-- ==== Sys2Proof/Word.lean ====
section
/-! DEFINITION. The word types of the model and the sizes of the wafer (R7, R9, R11, R13, R14). -/

namespace Sys2Proof

/-- A 32-bit S-core register or memory word. -/
abbrev Word := BitVec 32
/-- One byte. -/
abbrev Byte := BitVec 8
/-- A 64-bit register word. -/
abbrev DWord := BitVec 64
/-- One 32-byte queue entry (R169), byte 0 in the low bits. -/
abbrev Entry := BitVec 256

/-- R7: 48 fields. -/
abbrev numFields : Nat := 48
/-- R9: 288 ponds in a field. -/
abbrev pondsPerField : Nat := 288
/-- R10: 13,824 ponds on the wafer, numbered 288·f + p (R22). -/
abbrev numPonds : Nat := 13824
/-- R11: 576 lakes, numbered 12·f + l. -/
abbrev numLakes : Nat := 576
/-- R13: 192 optical ports, numbered 4·f + k. -/
abbrev numPorts : Nat := 192
/-- R14: 64 partitions. -/
abbrev numParts : Nat := 64

/-- A pond of the wafer. -/
abbrev PondIx := Fin numPonds
/-- A field. -/
abbrev FieldIx := Fin numFields
/-- A lake of the wafer. -/
abbrev LakeIx := Fin numLakes
/-- An optical port. -/
abbrev PortIx := Fin numPorts
/-- A partition. -/
abbrev PartIx := Fin numParts

end Sys2Proof
end

