-- ==== Sys2Proof/Config.lean ====
section
/-! DEFINITION. What one module fixes and what the spec leaves open: uninterpreted constants with no body, so that no
proof can see a value of theirs. -/

namespace Sys2Proof

/-- The n-th value the spec leaves open in a run (State.free counts them); DESIGN CHOICE, log entry 5. -/
opaque Config.freeValue : Nat → Nat

/-- R111, R113, R114: the value of a V-core stage where the spec states none: operation, SUB, FMT and operands a and b. Codes of SUB
without a meaning (CVT 2–7, FUNC 4–7, reductions 5–7), FUNC with FMT I32 and a REDR row in which no element takes part
(DESIGN CHOICE, log entry 26). -/
opaque Config.openStage (op sub fmt a b : Nat) : Nat

/-- R114: the variable t of an exponent-mode function table that clamps a negative input, as F32 (DESIGN CHOICE, log entry 26). -/
opaque Config.clampT (x : Nat) : Nat

/-- R68, R109: the F32 a V-core widens an F8 or F4 element to when its scaled value lies beyond F32: format code, element
code and scale (DESIGN CHOICE, log entry 26). -/
opaque Config.wideElem (fmt code scale : Nat) : Nat

/-- R339, R354: the voltage offset of lake w from calibration, as its 8-bit field (DESIGN CHOICE, log entry 6). -/
opaque Config.lakeOffset : Nat → Nat

/-- R388: the leakage field of lake w from calibration (DESIGN CHOICE, log entry 6). -/
opaque Config.lakeLeak : Nat → Nat

/-- R394: the Opal signature known for a unit type, ratio and segment (DESIGN CHOICE, log entry 7). -/
opaque Config.opalSignature : Nat → Nat → Nat → BitVec 64

/-- R437: what the device identity key signs for a message, as bytes r ‖ s (DESIGN CHOICE, log entry 8). -/
opaque Config.deviceSign : List Byte → List Byte

/-- R437: the certificate chain of slot 0 as bytes (DESIGN CHOICE, log entry 8). -/
opaque Config.certChain : List Byte

/-- R438, R447: Ouvlon's public keys as Qx ‖ Qy: licences and firmware (DESIGN CHOICE, log entry 8). -/
opaque Config.licenceKey : List Byte
opaque Config.firmwareKey : List Byte

/-- R22: the module serial number, 16 bytes, ASCII, zero-padded (DESIGN CHOICE, log entry 8). -/
opaque Config.moduleSerial : List Byte

/-- R21: the signature of the factory map over its header and body (DESIGN CHOICE, log entry 8). -/
opaque Config.factorySig : List Byte

/-- R21: the key of Ouvlon that signs factory maps, as Qx ‖ Qy (DESIGN CHOICE, log entry 8). -/
opaque Config.mapKey : List Byte

/-- R481: the EXTEST and SAMPLE boundary cells read from the pins (DESIGN CHOICE, log entry 9). -/
opaque Config.boundaryCells : Nat → List Bool

end Sys2Proof
end

