-- ==== Sys2Proof/Machine/Numbers.lean ====
section
/-! DEFINITION. Number formats and arithmetic (R62–R82): exact values, roundings, conversions, comparisons, the
stochastic-rounding LFSR and the block quantizer. -/

namespace Sys2Proof.Machine

/-- R62: the formats that hold numbers. -/
inductive NFmt where
  | f32 | f16 | g16 | f8 | f4
  deriving DecidableEq, Repr

/-- R62: fraction bits. -/
def NFmt.mbits : NFmt → Nat
  | .f32 => 23 | .f16 => 10 | .g16 => 7 | .f8 => 2 | .f4 => 1

/-- R62: exponent bits. -/
def NFmt.ebits : NFmt → Nat
  | .f32 => 8 | .f16 => 5 | .g16 => 8 | .f8 => 5 | .f4 => 2

/-- R62: exponent bias. -/
def NFmt.bias : NFmt → Nat
  | .f32 => 127 | .f16 => 15 | .g16 => 127 | .f8 => 15 | .f4 => 1

/-- R62: width in bits. -/
def NFmt.bits : NFmt → Nat
  | .f32 => 32 | .f16 => 16 | .g16 => 16 | .f8 => 8 | .f4 => 4

/-- R29: K-elements per K-slot. -/
def NFmt.perSlot : NFmt → Nat
  | .f32 => 1 | .f16 => 1 | .g16 => 1 | .f8 => 2 | .f4 => 4

/-- The format codes of MCORE_CFG (R61) and of descriptors: 0 F32, 1 F16, 2 G16, 3 F8, 4 F4. -/
def NFmt.ofCode : Nat → NFmt
  | 0 => .f32 | 1 => .f16 | 2 => .g16 | 3 => .f8 | _ => .f4

/-- F8 and F4 carry block scales (R67). -/
def NFmt.scaled : NFmt → Bool
  | .f8 => true | .f4 => true | _ => false

/-- A decoded value. `fin neg m e` is (−1)^neg · m · 2^e. A NaN's payload is its fraction left-aligned in 23 bits
(R77). `bad` stands for an invalid part of an operation (R73). -/
inductive Num where
  | nan (neg : Bool) (pay : Nat)
  | inf (neg : Bool)
  | fin (neg : Bool) (m : Nat) (e : Int)
  | bad
  deriving DecidableEq, Repr

/-- R64: the canonical NaN. -/
def Num.canon : Num := .nan false 0x400000

/-- Is the value a NaN? -/
def Num.isNan : Num → Bool
  | .nan _ _ => true
  | _ => false

/-- NaN, infinite or invalid. -/
def Num.nonFinite : Num → Bool
  | .fin _ _ _ => false
  | _ => true

/-- Is the value ±0? -/
def Num.isZero : Num → Bool
  | .fin _ 0 _ => true
  | _ => false

/-- Sign of the value. -/
def Num.neg? : Num → Bool
  | .nan n _ => n | .inf n => n | .fin n _ _ => n | .bad => false

/-- R62–R65: the value of a code. -/
def NFmt.decode (f : NFmt) (code : Nat) : Num :=
  let mb := f.mbits
  let frac := code % 2 ^ mb
  let ex := (code / 2 ^ mb) % 2 ^ f.ebits
  let neg := decide ((code / 2 ^ (f.bits - 1)) % 2 = 1)
  if f = .f4 then
    if code % 16 = 15 then .nan true 0x400000
    else if ex = 0 then .fin neg frac (-1) else .fin neg (frac + 2) ((ex : Int) - 2)
  else if ex = 2 ^ f.ebits - 1 then
    if frac = 0 then .inf neg else .nan neg (frac * 2 ^ (23 - mb))
  else if ex = 0 then .fin neg frac (1 - (f.bias : Int) - mb)
  else .fin neg (frac + 2 ^ mb) ((ex : Int) - f.bias - mb)

/-- R74: rounding modes, by RND code (0 nearest even, 1 toward zero, 2 stochastic). -/
inductive RMode where
  | rne | rtz
  /-- Stochastic with the lane's LFSR value L after its step (R75). -/
  | stoch (l : Nat)
  deriving DecidableEq, Repr

/-- R74–R75: does the mode round the magnitude up, given the kept integer `n` and the remainder `r` of 2^d? -/
def RMode.up (mode : RMode) (n r d : Nat) : Bool :=
  match mode with
  | .rne => decide (2 ^ d < 2 * r) || (decide (2 * r = 2 ^ d) && decide (n % 2 = 1))
  | .rtz => false
  | .stoch l => decide (2 ^ 16 ≤ (r * 2 ^ 16) / 2 ^ d + l)

/-- The magnitude code of m · 2^e (m > 0) in format `f` before overflow is judged: the exponent field and the
fraction as one number, growing past the format's largest code when the value does (R74). -/
def NFmt.roundMag (f : NFmt) (mode : RMode) (m : Nat) (e : Int) : Nat :=
  let emin : Int := 1 - (f.bias : Int) - f.mbits
  let q : Int := max ((Nat.log2 m : Int) + e - f.mbits) emin
  let base := (q - emin).toNat * 2 ^ f.mbits
  if q ≤ e then base + m * 2 ^ (e - q).toNat
  else
    let d := (q - e).toNat
    let n := m / 2 ^ d
    base + (if mode.up n (m % 2 ^ d) d then n + 1 else n)

/-- R74–R78: the code of a value in format `f`. -/
def NFmt.encode (f : NFmt) (mode : RMode) (sat : Bool) (x : Num) : Nat :=
  let sgn (neg : Bool) : Nat := if neg then 2 ^ (f.bits - 1) else 0
  let infMag := (2 ^ f.ebits - 1) * 2 ^ f.mbits
  if f = .f4 then
    match x with
    | .nan _ _ => 15
    | .bad => 15
    | .inf neg => if neg then 0xE else 7
    | .fin neg m e =>
      if m = 0 then sgn neg
      else sgn neg + min (f.roundMag mode m e) (if neg then 6 else 7)
  else
    match x with
    | .nan neg pay => sgn neg + infMag + ((pay / 2 ^ (23 - f.mbits)) % 2 ^ (f.mbits - 1) + 2 ^ (f.mbits - 1))
    | .bad => infMag + 2 ^ (f.mbits - 1)
    | .inf neg => sgn neg + infMag
    | .fin neg m e =>
      if m = 0 then sgn neg
      else
        let k := f.roundMag mode m e
        if k < infMag then sgn neg + k
        else if sat || decide (mode = .rtz) then sgn neg + (infMag - 1)
        else sgn neg + infMag

/-- R66: the value of an S8 scale code. -/
def s8decode (c : Nat) : Num :=
  if c % 256 = 255 then .canon else .fin false 1 ((c % 256 : Nat) - 127 : Int)

/-- A NaN input as an operation's result carries it: quieted (R72). -/
def Num.quiet : Num → Num
  | .nan neg p => .nan neg (p % 0x400000 + 0x400000)
  | x => x

/-- R72: the first NaN of a list of inputs, quieted. -/
def firstNan : List Num → Option Num
  | [] => none
  | x :: r => if x.isNan then some x.quiet else firstNan r

/-- The exact product of two non-NaN values; 0 × ∞ is invalid (R73). -/
def Num.mulCore (a b : Num) : Num :=
  match a, b with
  | .bad, _ => .bad
  | _, .bad => .bad
  | .nan n p, _ => .nan n p
  | _, .nan n p => .nan n p
  | .inf n, .inf k => .inf (n ^^ k)
  | .inf n, .fin k m _ => if m = 0 then .bad else .inf (n ^^ k)
  | .fin n m _, .inf k => if m = 0 then .bad else .inf (n ^^ k)
  | .fin n m e, .fin k m' e' => .fin (n ^^ k) (m * m') (e + e')

/-- The exact product, NaN inputs first (R72). -/
def Num.mul (a b : Num) : Num :=
  match firstNan [a, b] with
  | some x => x
  | none => Num.mulCore a b

/-- Sign flip. -/
def Num.negate : Num → Num
  | .nan n p => .nan (!n) p | .inf n => .inf (!n) | .fin n m e => .fin (!n) m e | .bad => .bad

/-- Magnitude. -/
def Num.abs : Num → Num
  | .nan _ p => .nan false p | .inf _ => .inf false | .fin _ m e => .fin false m e | .bad => .bad

/-- The lowest exponent among the finite addends. -/
def minExp : List Num → Int → Int
  | [], a => a
  | .fin _ _ e :: r, a => minExp r (min a e)
  | _ :: r, a => minExp r a

/-- The signed sum of the finite addends in units of 2^e0. -/
def sumAt (e0 : Int) : List Num → Int
  | [] => 0
  | .fin neg m e :: r =>
    let v : Int := (m * 2 ^ (e - e0).toNat : Nat)
    (if neg then -v else v) + sumAt e0 r
  | _ :: r => sumAt e0 r

/-- R70, R73: the exact sum of addends none of which is a NaN input. An exact zero is +0 unless every addend
is −0. -/
def sumCore (xs : List Num) : Num :=
  if xs.any (fun x => decide (x = .bad)) then .bad
  else if xs.any (fun x => decide (x = .inf false)) then
    if xs.any (fun x => decide (x = .inf true)) then .bad else .inf false
  else if xs.any (fun x => decide (x = .inf true)) then .inf true
  else
    let e0 := minExp xs 0
    let s := sumAt e0 xs
    if s = 0 then .fin (!xs.isEmpty && xs.all (fun x => x.neg? && x.isZero)) 0 0
    else .fin (decide (s < 0)) s.natAbs e0

/-- The exact sum, NaN inputs first (R72). -/
def numSum (xs : List Num) : Num :=
  match firstNan xs with
  | some x => x
  | none => sumCore xs

/-- Fused multiply-add with the exact product (R71–R73): inputs in operand order. -/
def numFma (a b c : Num) : Num :=
  match firstNan [a, b, c] with
  | some x => x
  | none => sumCore [Num.mulCore a b, c]

/-- A value rounded once to F32 and taken as exact again. -/
def Num.r32 (x : Num) : Num := NFmt.f32.decode (NFmt.f32.encode .rne false x)

/-- R71: rounding to nearest even in a format. -/
def NFmt.rnd (f : NFmt) (x : Num) : Nat := f.encode .rne false x

/-- R71: one addition in format `f`. -/
def NFmt.add (f : NFmt) (a b : Nat) : Nat := f.rnd (numSum [f.decode a, f.decode b])
/-- R71: one subtraction in format `f`. -/
def NFmt.sub (f : NFmt) (a b : Nat) : Nat :=
  f.rnd (match firstNan [f.decode a, f.decode b] with
    | some x => x
    | none => sumCore [f.decode a, (f.decode b).negate])
/-- R71: one multiplication in format `f`. -/
def NFmt.mul (f : NFmt) (a b : Nat) : Nat := f.rnd (Num.mul (f.decode a) (f.decode b))
/-- R71: one fused multiply-add in format `f`. -/
def NFmt.fma (f : NFmt) (a b c : Nat) : Nat := f.rnd (numFma (f.decode a) (f.decode b) (f.decode c))

/-- Exact order of two values that are not NaN: `a < b` (R80). -/
def Num.lt (a b : Num) : Bool :=
  match a, b with
  | .nan _ _, _ => false
  | _, .nan _ _ => false
  | .bad, _ => false
  | _, .bad => false
  | .inf n, .inf k => n && !k
  | .inf n, .fin _ _ _ => n
  | .fin _ _ _, .inf k => !k
  | .fin _ _ _, .fin _ _ _ =>
    let e0 := minExp [a, b] 0
    decide (sumAt e0 [a] < sumAt e0 [b])

/-- R80: equal, ±0 alike; a NaN equals nothing. -/
def Num.eq (a b : Num) : Bool :=
  match a, b with
  | .nan _ _, _ => false
  | _, .nan _ _ => false
  | .bad, _ => false
  | _, .bad => false
  | _, _ => !Num.lt a b && !Num.lt b a

/-- R80: a ≤ b. -/
def Num.le (a b : Num) : Bool := Num.lt a b || Num.eq a b

/-- R81: maximum (`num` = false) or maximumNumber (`num` = true). -/
def Num.max (num : Bool) (a b : Num) : Num :=
  match a.isNan, b.isNan with
  | true, true => a.quiet
  | true, false => if num then b else a.quiet
  | false, true => if num then a else b.quiet
  | false, false =>
    if Num.lt a b then b else if Num.lt b a then a
    else if a.isZero && a.neg? then b else a

/-- R81: minimum (`num` = false) or minimumNumber (`num` = true). -/
def Num.min (num : Bool) (a b : Num) : Num :=
  match a.isNan, b.isNan with
  | true, true => a.quiet
  | true, false => if num then b else a.quiet
  | false, true => if num then a else b.quiet
  | false, false =>
    if Num.lt a b then a else if Num.lt b a then b
    else if a.isZero && !a.neg? then b else a

/-- R75: one step of the stochastic-rounding LFSR. -/
def lfsrStep (x : BitVec 16) : BitVec 16 :=
  (x <<< 1) ||| BitVec.zeroExtend 16
    (BitVec.ofBool (x.getLsbD 15 ^^ x.getLsbD 13 ^^ x.getLsbD 12 ^^ x.getLsbD 10))

/-- R43, R75: the seed of lane n; a seed of 0 is replaced by 0xACE1 before the rotation. -/
def lfsrSeed (seed : Nat) (lane : Nat) : BitVec 16 :=
  (if seed % 65536 = 0 then 0xACE1#16 else BitVec.ofNat 16 seed).rotateLeft (lane % 16)

/-- The rounding mode that an RND code selects, with the lane's LFSR after its step. -/
def RMode.ofRnd (rnd : Nat) (l : BitVec 16) : RMode :=
  match rnd with
  | 0 => .rne
  | 1 => .rtz
  | _ => .stoch l.toNat

/-- R79 step 1: the largest magnitude among the finite elements of one sign, none where there is none. -/
def largestMag (neg : Bool) : List Num → Option Num
  | [] => none
  | .fin n m e :: r =>
    if m ≠ 0 ∧ n = neg then
      match largestMag neg r with
      | some y => if Num.lt (.fin false m e) y then some y else some (.fin false m e)
      | none => some (.fin false m e)
    else largestMag neg r
  | _ :: r => largestMag neg r

/-- The smallest integer e with x ≤ (lm · 2^le) · 2^e, searched upward from below the answer. -/
def scaleExp (lm : Nat) (le : Int) (x : Num) : Int :=
  match x with
  | .fin _ m e =>
    let guess : Int := (Nat.log2 m : Int) + e - (Nat.log2 lm : Int) - le - 1
    if Num.le x (.fin false lm (le + guess)) then guess
    else if Num.le x (.fin false lm (le + guess + 1)) then guess + 1
    else guess + 2
  | _ => -127

/-- R79 steps 1–3: the scale exponent of a block; none when it has no non-zero finite element. `f4asym` selects
the asymmetric clip of F4. -/
def blockExp (f : NFmt) (f4asym : Bool) (xs : List Num) : Option Int :=
  let lp : Nat × Int := match f with
    | .f4 => if f4asym then (6, 0) else (4, 0)
    | _ => (57344, 0)
  let ln : Nat × Int := match f with
    | .f4 => (4, 0)
    | _ => (57344, 0)
  let cand := match largestMag false xs, largestMag true xs with
    | none, none => none
    | some p, none => some (scaleExp lp.1 lp.2 p)
    | none, some n => some (scaleExp ln.1 ln.2 n)
    | some p, some n => some (Max.max (scaleExp lp.1 lp.2 p) (scaleExp ln.1 ln.2 n))
  cand.map (fun e => Max.max (-127) (Min.min 127 e))

/-- R79: the scale code the quantizer writes. -/
def blockScale (f : NFmt) (f4asym : Bool) (xs : List Num) : Nat :=
  match blockExp f f4asym xs with
  | none => 0x7F
  | some e => (e + 127).toNat

/-- R79 step 4: the element divided by 2^e. -/
def Num.unscale (x : Num) (code : Nat) : Num :=
  match x with
  | .fin n m e => .fin n m (e - ((code : Int) - 127))
  | y => y

/-- R77, R78 with symmetric clip: F4 results of a symmetric block stay within ±4.0 by the choice of e, so the
conversion itself is the plain one. -/
def quantElem (f : NFmt) (mode : RMode) (sat : Bool) (code : Nat) (x : Num) : Nat :=
  f.encode mode sat (x.unscale code)

/-- R67: the value of a coded element under its block's scale. -/
def scaledElem (f : NFmt) (code scale : Nat) : Num :=
  let a := f.decode code
  if f.scaled then
    match firstNan [a, s8decode scale] with
    | some x => x
    | none => Num.mulCore a (s8decode scale)
  else a

end Sys2Proof.Machine
end

