-- ==== Sys2Proof/Machine/MArray.lean ====
section
/-! DEFINITION. The arithmetic of one MAC array on one accumulator set (R28, R31, R48–R54, R69–R73, R88–R93): pure
functions of the operand values, so that the M-core meanings only fetch operands and store results. -/

namespace Sys2Proof.Machine

/-- R28: one accumulator set as 25 F32 cells: 0–15 data (4·i + j), 16–19 checksum row j, 20–23 checksum column i,
24 absolute sum. `none` is a cell no group has initialised yet (R70). -/
structure AccSet where
  cells : List (Option Nat)
  /-- The set was poisoned (R54). -/
  poison : Bool
  deriving DecidableEq, Repr

/-- A set before its first group. -/
def AccSet.fresh : AccSet := ⟨List.replicate 25 none, false⟩

/-- An upset striking an accumulator cell: the set, the cell, after how many groups of the segment, and the bits it
flips (R50). -/
structure Upset where
  set : Nat
  cell : Nat
  after : Nat
  mask : Nat
  deriving DecidableEq, Repr

/-- The F32 value of a cell; +0 where nothing was issued (R90). -/
def AccSet.val (a : AccSet) (c : Nat) : Nat := ((a.cells.getD c none).getD 0)

/-- The exact value of a cell. -/
def AccSet.num (a : AccSet) (c : Nat) : Num := NFmt.f32.decode (a.val c)

/-- An element with its block scale. -/
abbrev Scaled := Num × Num

/-- The exact scaled value, NaN inputs first. -/
def scaledVal (x : Scaled) : Num :=
  match firstNan [x.1, x.2] with
  | some n => n
  | none => Num.mulCore x.1 x.2

/-- The operands of one row group against one quarter: `a i k` the activation of row i, `aOn i k` its row-bitmap bit
(all true without bitmaps; false for a masked row), `b k j` the weight, `on j k` whether index k issues in column j. -/
structure Operands where
  a : Nat → Nat → Scaled
  aOn : Nat → Nat → Bool
  b : Nat → Nat → Scaled
  on : Nat → Nat → Bool
  /-- R48: the sums over N that came with the weight block of an index, of the values and of their absolutes. -/
  held : Nat → Option (Num × Num)

/-- One product of a cell at K-index k: its inputs in NaN order and the exact product. -/
abbrev Term := List Num × Num

/-- R48: Σ over M of A[i,k], rounded once to F32. -/
def Operands.sumA (o : Operands) (abs : Bool) (k : Nat) : Num :=
  Num.r32 (numSum (((List.range 4).filter (fun i => o.aOn i k)).map
    (fun i => if abs then (scaledVal (o.a i k)).abs else scaledVal (o.a i k))))

/-- R48: Σ over N of four weights or of their absolutes, rounded once to F32. -/
def sumOverN (b : Nat → Scaled) (abs : Bool) : Nat :=
  NFmt.f32.encode .rne false (numSum ((List.range 4).map (fun j => if abs then (scaledVal (b j)).abs else scaledVal (b j))))

/-- R48: Σ over N of B[k,j], as formed when the weight block was loaded. -/
def Operands.sumB (o : Operands) (abs : Bool) (k : Nat) : Num :=
  match o.held k with
  | some x => if abs then x.2 else x.1
  | none => NFmt.f32.decode (sumOverN (o.b k) abs)

/-- R93: index k issues in some column. -/
def Operands.union (o : Operands) (k : Nat) : Bool := (List.range 4).any (fun j => o.on j k)

/-- R48, R69, R93: the product that cell c takes at index k, where it takes one. -/
def Operands.term (o : Operands) (c k : Nat) : Option Term :=
  if c < 16 then
    let i := c / 4
    let j := c % 4
    if o.on j k && o.aOn i k then
      let x := o.a i k
      let y := o.b k j
      some ([x.1, x.2, y.1, y.2], Num.mulCore (Num.mulCore x.1 x.2) (Num.mulCore y.1 y.2))
    else none
  else if c < 20 then
    let j := c - 16
    if o.on j k then
      let s := o.sumA false k
      let y := o.b k j
      some ([s, y.1, y.2], Num.mulCore s (Num.mulCore y.1 y.2))
    else none
  else if c < 24 then
    let i := c - 20
    if o.union k && o.aOn i k then
      let x := o.a i k
      let s := o.sumB false k
      some ([x.1, x.2, s], Num.mulCore (Num.mulCore x.1 x.2) s)
    else none
  else
    if o.union k then
      let p := o.sumA true k
      let q := o.sumB true k
      some ([p, q], Num.mulCore p q)
    else none

/-- R69: the exact sum of a group's products rounded once to F32; none when no product issues (R90). -/
def groupSum (ts : List Term) : Option Nat :=
  if ts.isEmpty then none
  else
    match firstNan (ts.flatMap (fun t => t.1)) with
    | some n => some (NFmt.f32.rnd n)
    | none => some (NFmt.f32.rnd (sumCore (ts.map (fun t => t.2))))

/-- R69, R70: the first group initialises the accumulator, the others are added with a rounding of their own. -/
def accumulate (old : Option Nat) (g : Option Nat) : Option Nat :=
  match old, g with
  | x, none => x
  | none, some v => some v
  | some a, some v => some (NFmt.f32.add a v)

/-- One aligned group of 4 K-elements issued against every cell in use; the checksum cells only with CHK_EN. -/
def AccSet.group (s : AccSet) (o : Operands) (chk : Bool) (kg : Nat) : AccSet :=
  { s with cells := s.cells.mapIdx (fun c old =>
      if c < 16 || chk then
        accumulate old (groupSum ((List.range 4).filterMap (fun x => o.term c (4 * kg + x))))
      else old) }

/-- Upsets of set `g` due after `n` groups. -/
def AccSet.strike (s : AccSet) (us : List Upset) (g n : Nat) : AccSet :=
  us.foldl (fun s u =>
    if u.set = g && u.after = n then
      { s with cells := s.cells.modify u.cell (fun v => some ((v.getD 0) ^^^ (u.mask % 2 ^ 32))) }
    else s) s

/-- `n` groups from K-group `kg0`, upsets striking in between. -/
def AccSet.segment (s : AccSet) (o : Operands) (chk : Bool) (us : List Upset) (g kg0 n : Nat) : AccSet :=
  (List.range n).foldl (fun s x => (s.group o chk (kg0 + x)).strike us g (x + 1)) s

/-- F32 sum in ascending index, one rounding per addition (R49). -/
def f32Chain : List Nat → Nat
  | [] => 0
  | x :: r => r.foldl NFmt.f32.add x

/-- R49 step 1: the sum over M of the data of column j. -/
def AccSet.colSum (s : AccSet) (j : Nat) : Nat := f32Chain ((List.range 4).map (fun i => s.val (4 * i + j)))
/-- R49 step 1: the sum over N of the data of row i. -/
def AccSet.rowSum (s : AccSet) (i : Nat) : Nat := f32Chain ((List.range 4).map (fun j => s.val (4 * i + j)))

/-- R49: the eight sums, column sums first (the bit order of FAIL_MASK, R61). -/
def AccSet.sums (s : AccSet) : List Nat :=
  (List.range 4).map s.colSum ++ (List.range 4).map s.rowSum

/-- The eight checksum values, in the same order. -/
def AccSet.checks (s : AccSet) : List Nat := (List.range 8).map (fun c => s.val (16 + c))

/-- R50: |sum − checksum| > 2^−14 · S. -/
def compFails (sum chk : Nat) (S : Num) : Bool :=
  let d := (sumCore [NFmt.f32.decode sum, (NFmt.f32.decode chk).negate]).abs
  Num.lt (Num.mulCore S (.fin false 1 (-14))) d

/-- The comparisons that fail, as bits 0–7. -/
def failMask (sums chks : List Nat) (S : Num) : Nat :=
  ((sums.zip chks).mapIdx (fun n p => if compFails p.1 p.2 S then 2 ^ n else 0)).sum

/-- How a set's check came out (R49–R51). -/
inductive CheckResult where
  | pass
  /-- S not finite: not compared, counted in CHK_SKIP, passed. -/
  | skip
  /-- Mismatch, with the failed comparisons and whether it was raised under R51. -/
  | mismatch (mask : Nat) (nonfinite : Bool)
  deriving DecidableEq, Repr

/-- R49–R51: the check of one set. -/
def AccSet.check (s : AccSet) : CheckResult :=
  let S := s.num 24
  if S.nonFinite then .skip
  else if ((List.range 16).map s.num ++ s.sums.map NFmt.f32.decode ++ s.checks.map NFmt.f32.decode).any
      Num.nonFinite then .mismatch (failMask s.sums s.checks S) true
  else
    let m := failMask s.sums s.checks S
    if m = 0 then .pass else .mismatch m false

/-- R49 step 3: seed the checksum cells for the next segment with the eight sums. -/
def AccSet.reseed (s : AccSet) : AccSet :=
  { s with cells := s.cells.take 16 ++ s.sums.map some ++ s.cells.drop 24 }

/-- R53: what a rotated recompute decides for one set. -/
inductive Verdict where
  | checkerFault | corrected | poisoned
  deriving DecidableEq, Repr

/-- R53 steps 4 and 5: the recomputed set `c'` is judged against the original `c`; the second component says that the
checksum comparison was skipped under R51. -/
def judge (c c' : AccSet) : Verdict × Bool :=
  let S' := c'.num 24
  let skip := S'.nonFinite
  let fin := ((List.range 16).map c'.num ++ c'.sums.map NFmt.f32.decode ++ c.checks.map NFmt.f32.decode).all
    (fun x => !x.nonFinite)
  if (List.range 16).all (fun x => c.val x = c'.val x) then (.checkerFault, skip)
  else if skip || (fin && failMask c'.sums c.checks S' = 0) then (.corrected, skip)
  else (.poisoned, skip)

/-- R53, R54: the set that goes on: the values of the verdict, reseeded, with the recomputed absolute sum. -/
def settled (v : Verdict) (c c' : AccSet) : AccSet :=
  match v with
  | .checkerFault => ({ c with cells := c.cells.take 24 ++ c'.cells.drop 24 }).reseed
  | .corrected => c'.reseed
  | .poisoned => { c' with poison := true }

/-- Population of a bitmap given as a Nat of 64 bits. -/
def popcount64 (n : Nat) : Nat := ((List.range 64).filter (fun i => n.testBit i)).length

/-- R89: the match vector of column j over 64 K-elements. -/
def matchVec (lane rowsOr : Nat) : Nat := lane &&& rowsOr

/-- R91: core cycles of a sparse window. -/
def windowCycles (e : Nat) (f32 rt : Bool) (m : Nat) : Nat :=
  (if rt then 1 else 0) + (if f32 then 2 else 1) * Max.max (4 / e) ((m + 4 * e - 1) / (4 * e))

/-- R86: the fields of a metadata word (R85). -/
structure MetaWord where
  dense : Bool
  zero : Bool
  fmt : Nat
  tbm : Bool
  rt : Bool
  qpop : List Nat
  seq : Nat
  chk : Nat
  reservedClear : Bool
  deriving DecidableEq, Repr

/-- R85: the metadata word read from its 64 bits. -/
def MetaWord.ofBits (w : BitVec 64) : MetaWord :=
  let n := w.toNat
  { dense := n.testBit 0, zero := n.testBit 1, fmt := n / 4 % 8, tbm := n.testBit 5, rt := n.testBit 6
    qpop := [n / 2 ^ 8 % 128, n / 2 ^ 16 % 128, n / 2 ^ 24 % 128, n / 2 ^ 32 % 128]
    seq := n / 2 ^ 40 % 256, chk := n / 2 ^ 56 % 256
    reservedClear := !(n.testBit 7 || n.testBit 15 || n.testBit 23 || n.testBit 31 || n.testBit 39)
      && decide (n / 2 ^ 48 % 256 = 0) }

/-- R85: XOR of bytes 0–6. -/
def metaXor (w : BitVec 64) : Nat :=
  (List.range 7).foldl (fun a i => a ^^^ (w.toNat / 2 ^ (8 * i) % 256)) 0

/-- R86: is the metadata word valid, for quarter `quarter` with lane-bitmap populations `pops`, weight format code
`bfmt`, expected sequence number `seq` (none for the first record checked), and BUILD licence `build`? -/
def metaValid (w : BitVec 64) (quarter : Nat) (pops : List Nat) (bfmt : Nat) (seq : Nat) (build : Bool) : Bool :=
  let m := MetaWord.ofBits w
  decide (m.chk = metaXor w) && decide (m.fmt < 5) && decide (m.fmt = bfmt) && !(m.dense && m.zero)
    && m.reservedClear && m.qpop.all (fun p => decide (p ≤ 64)) && (!m.tbm || m.qpop.all (fun p => decide (p ≤ 32)))
    && pops.all (fun p => decide (p ≤ m.qpop.getD quarter 0)) && decide (m.seq = seq) && (!m.tbm || build)

end Sys2Proof.Machine
end

