-- ==== Sys2Proof/Machine/Tab.lean ====
section
/-! DEFINITION. Sparse tables in one canonical form: keys strictly rising, no entry equal to the default that an
unlisted key reads as. Registers, memories and every numbered unit's state are such tables. -/

namespace Sys2Proof.Machine

/-- A sparse table: pairs of key and value. -/
abbrev Tab (α : Type) := List (Nat × α)

/-- The value at a key; `d` where the table lists none. -/
def Tab.get {α : Type} (t : Tab α) (k : Nat) (d : α) : α :=
  match t with
  | [] => d
  | (k', v) :: r => if k' = k then v else Tab.get r k d

/-- The table without a key. -/
def Tab.del {α : Type} (t : Tab α) (k : Nat) : Tab α :=
  match t with
  | [] => []
  | (k', v) :: r => if k' = k then Tab.del r k else (k', v) :: Tab.del r k

/-- Put a pair in front of the first larger key. -/
def Tab.ins {α : Type} (t : Tab α) (k : Nat) (v : α) : Tab α :=
  match t with
  | [] => [(k, v)]
  | (k', v') :: r => if k < k' then (k, v) :: (k', v') :: r else (k', v') :: Tab.ins r k v

/-- Write a key: the default removes the entry, so equal tables are equal data. -/
def Tab.set {α : Type} [DecidableEq α] (t : Tab α) (k : Nat) (d v : α) : Tab α :=
  if v = d then Tab.del t k else Tab.ins (Tab.del t k) k v

/-- Keys strictly rising. -/
def Tab.sorted {α : Type} (t : Tab α) : Bool :=
  match t with
  | [] => true
  | (k, _) :: r => r.all (fun e => decide (k < e.1)) && Tab.sorted r

/-- Canonical form: keys strictly rising and no value equal to the default of its key. -/
def Tab.wf {α : Type} [DecidableEq α] (t : Tab α) (d : Nat → α) : Bool :=
  Tab.sorted t && t.all (fun e => decide (e.2 ≠ d e.1))

/-- Drop every entry whose key satisfies `p`: those keys read as their default again. -/
def Tab.clear {α : Type} (t : Tab α) (p : Nat → Bool) : Tab α :=
  t.filter (fun e => ! p e.1)

/-- R18: a unit that has control registers. Tiles carry a core's and a router's registers. -/
inductive UnitId where
  /-- Tile position t of wafer pond g (units 0–15). -/
  | tile (g t : Nat)
  /-- Wafer pond g (unit 16). -/
  | pond (g : Nat)
  /-- Wafer lake w (unit 17). -/
  | lake (w : Nat)
  /-- Field supervisor f (unit 18). -/
  | fld (f : Nat)
  /-- DRAM channel controllers of field f (unit 19). -/
  | dram (f : Nat)
  /-- Optical engine of field f (unit 20). -/
  | opt (f : Nat)
  /-- Rails and regulators of field f (unit 21). -/
  | pwr (f : Nat)
  /-- The hub and service controller (unit 24). -/
  | hub
  deriving DecidableEq, Repr

/-- The unit exists on a wafer (R7–R13). -/
def UnitId.ok : UnitId → Bool
  | .tile g t => decide (g < numPonds) && decide (t < 16)
  | .pond g => decide (g < numPonds)
  | .lake w => decide (w < numLakes)
  | .fld f | .dram f | .opt f | .pwr f => decide (f < numFields)
  | .hub => true

/-- A number for each unit, so that registers are keyed by one Nat. -/
def UnitId.idx : UnitId → Nat
  | .tile g t => 16 * g + t
  | .pond g => 221184 + g
  | .lake w => 235008 + w
  | .fld f => 235584 + f
  | .dram f => 235632 + f
  | .opt f => 235680 + f
  | .pwr f => 235728 + f
  | .hub => 235776

/-- R6: the access codes. -/
inductive Access where
  | ro | rw | w1c | w1s | wo | rc | lk
  deriving DecidableEq, Repr

/-- One field of a register: offset of its first register, low bit, width, how many registers of the
kind there are and how far apart, access code, reset value. -/
structure Fld where
  off : Nat
  lo : Nat
  width : Nat
  count : Nat
  stride : Nat
  acc : Access
  rst : Nat
  deriving DecidableEq, Repr

/-- The storage key of field `f` of the `i`-th register of its kind in unit `u`. -/
def Fld.key (u : UnitId) (f : Fld) (i : Nat) : Nat :=
  (u.idx * 2 ^ 23 + (f.off + i * f.stride)) * 64 + f.lo

end Sys2Proof.Machine
end

