-- ==== Sys2Proof/Machine/Regs.lean ====
section
/-! DEFINITION. The register map: one constant for every register field of the spec's register tables
(R61, R107, R126, R127, R166-R168, R197, R198, R264, R292, R293, R311, R312, R331, R353, R354, R369,
R387-R389, R412, R413, R435, R436, R454, R466, R490), with its place, width, access code (R6) and reset value. -/

namespace Sys2Proof.Machine

/-! MCORE_ registers of R61. -/

/-- MCORE_ID.UNIT_TYPE, R61. -/
def Reg.mcoreIdUnitType : Fld := ⟨0, 0, 8, 1, 0, .ro, 1⟩
/-- MCORE_ID.POS, R61 (reset: "t"). -/
def Reg.mcoreIdPos : Fld := ⟨0, 8, 4, 1, 0, .ro, 0⟩
/-- MCORE_ID.VERSION, R61. -/
def Reg.mcoreIdVersion : Fld := ⟨0, 16, 8, 1, 0, .ro, 1⟩
/-- MCORE_CTRL.RUN, R61. -/
def Reg.mcoreCtrlRun : Fld := ⟨8, 0, 1, 1, 0, .rw, 0⟩
/-- MCORE_CTRL.MODE, R61. -/
def Reg.mcoreCtrlMode : Fld := ⟨8, 1, 1, 1, 0, .rw, 0⟩
/-- MCORE_CTRL.DRAIN, R61. -/
def Reg.mcoreCtrlDrain : Fld := ⟨8, 2, 1, 1, 0, .w1s, 0⟩
/-- MCORE_CTRL.GATE_RELEASE, R61. -/
def Reg.mcoreCtrlGateRelease : Fld := ⟨8, 3, 1, 1, 0, .w1s, 0⟩
/-- MCORE_CFG.CHK_EN, R61. -/
def Reg.mcoreCfgChkEn : Fld := ⟨0x10, 0, 1, 1, 0, .rw, 1⟩
/-- MCORE_CFG.A_FMT, R61. -/
def Reg.mcoreCfgAFmt : Fld := ⟨0x10, 1, 3, 1, 0, .rw, 1⟩
/-- MCORE_CFG.B_FMT, R61. -/
def Reg.mcoreCfgBFmt : Fld := ⟨0x10, 4, 3, 1, 0, .rw, 1⟩
/-- MCORE_CFG.OUT_FMT, R61. -/
def Reg.mcoreCfgOutFmt : Fld := ⟨0x10, 7, 3, 1, 0, .rw, 1⟩
/-- MCORE_CFG.RND, R61. -/
def Reg.mcoreCfgRnd : Fld := ⟨0x10, 10, 2, 1, 0, .rw, 0⟩
/-- MCORE_CFG.SAT, R61. -/
def Reg.mcoreCfgSat : Fld := ⟨0x10, 12, 1, 1, 0, .rw, 0⟩
/-- MCORE_CFG.ACT_EN, R61. -/
def Reg.mcoreCfgActEn : Fld := ⟨0x10, 13, 1, 1, 0, .rw, 0⟩
/-- MCORE_CFG.BIAS_EN, R61. -/
def Reg.mcoreCfgBiasEn : Fld := ⟨0x10, 14, 1, 1, 0, .rw, 0⟩
/-- MCORE_CFG.EW_OP, R61. -/
def Reg.mcoreCfgEwOp : Fld := ⟨0x10, 15, 2, 1, 0, .rw, 0⟩
/-- MCORE_CFG.SEG_GROUPS, R61. -/
def Reg.mcoreCfgSegGroups : Fld := ⟨0x10, 24, 8, 1, 0, .rw, 0x10⟩
/-- MCORE_SHAPE.ROW_K, R61. -/
def Reg.mcoreShapeRowK : Fld := ⟨0x18, 0, 14, 1, 0, .rw, 0x40⟩
/-- MCORE_SHAPE.NCOLS, R61. -/
def Reg.mcoreShapeNcols : Fld := ⟨0x18, 16, 13, 1, 0, .rw, 0x10⟩
/-- MCORE_GATE.DEADLINE, R61. -/
def Reg.mcoreGateDeadline : Fld := ⟨0x20, 0, 12, 1, 0, .rw, 0x100⟩
/-- MCORE_GATE.DEMAND, R61. -/
def Reg.mcoreGateDemand : Fld := ⟨0x20, 16, 4, 1, 0, .rw, 1⟩
/-- MCORE_GATE_BUF.BASE, R61. -/
def Reg.mcoreGateBufBase : Fld := ⟨0x28, 0, 8, 1, 0, .rw, 0⟩
/-- MCORE_GATE_BUF.SIZE, R61. -/
def Reg.mcoreGateBufSize : Fld := ⟨0x28, 8, 8, 1, 0, .rw, 0⟩
/-- MCORE_WRING.BASE, R61. -/
def Reg.mcoreWringBase : Fld := ⟨0x30, 0, 8, 1, 0, .rw, 0⟩
/-- MCORE_WRING.SIZE, R61. -/
def Reg.mcoreWringSize : Fld := ⟨0x30, 8, 8, 1, 0, .rw, 0⟩
/-- MCORE_WRING.SPRING, R61. -/
def Reg.mcoreWringSpring : Fld := ⟨0x30, 16, 6, 1, 0, .rw, 0⟩
/-- MCORE_WRING.SIG_EN, R61. -/
def Reg.mcoreWringSigEn : Fld := ⟨0x30, 22, 1, 1, 0, .rw, 0⟩
/-- MCORE_WRING.RESIDENT, R61. -/
def Reg.mcoreWringResident : Fld := ⟨0x30, 23, 1, 1, 0, .rw, 0⟩
/-- MCORE_WRING_REL.REL, R61. -/
def Reg.mcoreWringRelRel : Fld := ⟨0x38, 0, 18, 1, 0, .ro, 0⟩
/-- MCORE_EPI_BASE.BASE, R61. -/
def Reg.mcoreEpiBaseBase : Fld := ⟨0x40, 7, 11, 1, 0, .rw, 0⟩
/-- MCORE_SEED.SEED, R61. -/
def Reg.mcoreSeedSeed : Fld := ⟨0x48, 0, 16, 1, 0, .rw, 0⟩
/-- MCORE_ARRAY.LIVE, R61 (reset: "From map"). -/
def Reg.mcoreArrayLive : Fld := ⟨0x50, 0, 4, 1, 0, .ro, 0⟩
/-- MCORE_ARRAY.RETIRED_CHK, R61. -/
def Reg.mcoreArrayRetiredChk : Fld := ⟨0x50, 4, 4, 1, 0, .ro, 0⟩
/-- MCORE_ARRAY.RETIRED_MAP, R61 (reset: "From map"). -/
def Reg.mcoreArrayRetiredMap : Fld := ⟨0x50, 8, 4, 1, 0, .ro, 0⟩
/-- MCORE_STATUS.BUSY, R61. -/
def Reg.mcoreStatusBusy : Fld := ⟨0x58, 0, 1, 1, 0, .ro, 0⟩
/-- MCORE_STATUS.MODE_PENDING, R61. -/
def Reg.mcoreStatusModePending : Fld := ⟨0x58, 1, 1, 1, 0, .ro, 0⟩
/-- MCORE_STATUS.CFG_WR_IGN, R61. -/
def Reg.mcoreStatusCfgWrIgn : Fld := ⟨0x58, 2, 1, 1, 0, .w1c, 0⟩
/-- MCORE_STATUS.RECOMPUTE, R61. -/
def Reg.mcoreStatusRecompute : Fld := ⟨0x58, 3, 1, 1, 0, .ro, 0⟩
/-- MCORE_STATUS.POISON, R61. -/
def Reg.mcoreStatusPoison : Fld := ⟨0x58, 4, 1, 1, 0, .w1c, 0⟩
/-- MCORE_STATUS.NO_ARRAY, R61. -/
def Reg.mcoreStatusNoArray : Fld := ⟨0x58, 5, 1, 1, 0, .ro, 0⟩
/-- MCORE_GATE_STAT.FILL, R61. -/
def Reg.mcoreGateStatFill : Fld := ⟨0x60, 0, 6, 1, 0, .ro, 0⟩
/-- MCORE_GATE_STAT.AGE, R61. -/
def Reg.mcoreGateStatAge : Fld := ⟨0x60, 8, 12, 1, 0, .ro, 0⟩
/-- MCORE_CHK_LAST.ARRAY, R61. -/
def Reg.mcoreChkLastArray : Fld := ⟨0x68, 0, 2, 1, 0, .ro, 0⟩
/-- MCORE_CHK_LAST.OUTCOME, R61. -/
def Reg.mcoreChkLastOutcome : Fld := ⟨0x68, 2, 2, 1, 0, .ro, 0⟩
/-- MCORE_CHK_LAST.FAIL_MASK, R61. -/
def Reg.mcoreChkLastFailMask : Fld := ⟨0x68, 4, 8, 1, 0, .ro, 0⟩
/-- MCORE_CHK_LAST.NONFINITE, R61. -/
def Reg.mcoreChkLastNonfinite : Fld := ⟨0x68, 12, 1, 1, 0, .ro, 0⟩
/-- MCORE_CHK_LAST.SET, R61. -/
def Reg.mcoreChkLastSet : Fld := ⟨0x68, 13, 3, 1, 0, .ro, 0⟩
/-- MCORE_CHK_TIME.TIME, R61. -/
def Reg.mcoreChkTimeTime : Fld := ⟨0x70, 0, 64, 1, 0, .ro, 0⟩
/-- MCORE_STALL_IN, R61. -/
def Reg.mcoreStallIn : Fld := ⟨0x100, 0, 48, 1, 0, .ro, 0⟩
/-- MCORE_STALL_OUT, R61. -/
def Reg.mcoreStallOut : Fld := ⟨0x108, 0, 48, 1, 0, .ro, 0⟩
/-- MCORE_STALL_GATE, R61. -/
def Reg.mcoreStallGate : Fld := ⟨0x110, 0, 48, 1, 0, .ro, 0⟩
/-- MCORE_TILES, R61. -/
def Reg.mcoreTiles : Fld := ⟨0x118, 0, 48, 1, 0, .ro, 0⟩
/-- MCORE_MASKED, R61. -/
def Reg.mcoreMasked : Fld := ⟨0x120, 0, 48, 1, 0, .ro, 0⟩
/-- MCORE_CHK_MISMATCH, R61. -/
def Reg.mcoreChkMismatch : Fld := ⟨0x128, 0, 32, 1, 0, .ro, 0⟩
/-- MCORE_CHK_SKIP, R61. -/
def Reg.mcoreChkSkip : Fld := ⟨0x130, 0, 32, 1, 0, .ro, 0⟩
/-- MCORE_WRAP, R61. -/
def Reg.mcoreWrap : Fld := ⟨0x138, 0, 5, 1, 0, .w1c, 0⟩
/-- MCORE_ACT_TABLE.SLOPE, R61. -/
def Reg.mcoreActTableSlope : Fld := ⟨0x200, 0, 32, 64, 8, .rw, 0⟩
/-- MCORE_ACT_TABLE.INTERCEPT, R61. -/
def Reg.mcoreActTableIntercept : Fld := ⟨0x200, 32, 32, 64, 8, .rw, 0⟩

/-! MCORE_ registers of R107. -/

/-- MCORE_SPARSE.REC_EN, R107. -/
def Reg.mcoreSparseRecEn : Fld := ⟨0x78, 0, 1, 1, 0, .rw, 0⟩
/-- MCORE_SPARSE.ROW_BM, R107. -/
def Reg.mcoreSparseRowBm : Fld := ⟨0x78, 1, 1, 1, 0, .rw, 0⟩
/-- MCORE_SPARSE.PRED_EN, R107. -/
def Reg.mcoreSparsePredEn : Fld := ⟨0x78, 2, 1, 1, 0, .rw, 0⟩
/-- MCORE_SPARSE.META_ERR, R107. -/
def Reg.mcoreSparseMetaErr : Fld := ⟨0x78, 8, 1, 1, 0, .w1c, 0⟩
/-- MCORE_PRED_THR.MISS_THR, R107. -/
def Reg.mcorePredThrMissThr : Fld := ⟨0x80, 0, 32, 1, 0, .rw, 0x7F800000⟩
/-- MCORE_SP_WIN, R107. -/
def Reg.mcoreSpWin : Fld := ⟨0x140, 0, 48, 1, 0, .ro, 0⟩
/-- MCORE_SP_CYC, R107. -/
def Reg.mcoreSpCyc : Fld := ⟨0x148, 0, 48, 1, 0, .ro, 0⟩
/-- MCORE_SP_SKIP, R107. -/
def Reg.mcoreSpSkip : Fld := ⟨0x150, 0, 48, 1, 0, .ro, 0⟩
/-- MCORE_META_ERR, R107. -/
def Reg.mcoreMetaErr : Fld := ⟨0x158, 0, 32, 1, 0, .ro, 0⟩
/-- MCORE_PRED_MISS, R107. -/
def Reg.mcorePredMiss : Fld := ⟨0x160, 0, 32, 1, 0, .ro, 0⟩
/-- MCORE_SP_WRAP, R107. -/
def Reg.mcoreSpWrap : Fld := ⟨0x168, 0, 3, 1, 0, .w1c, 0⟩

/-! VCORE_ registers of R126. -/

/-- VCORE_ID.UNIT_TYPE, R126. -/
def Reg.vcoreIdUnitType : Fld := ⟨0, 0, 8, 1, 0, .ro, 2⟩
/-- VCORE_ID.POS, R126 (reset: "t"). -/
def Reg.vcoreIdPos : Fld := ⟨0, 8, 4, 1, 0, .ro, 0⟩
/-- VCORE_ID.VERSION, R126. -/
def Reg.vcoreIdVersion : Fld := ⟨0, 16, 8, 1, 0, .ro, 1⟩
/-- VCORE_CTRL.RUN, R126. -/
def Reg.vcoreCtrlRun : Fld := ⟨8, 0, 1, 1, 0, .rw, 0⟩
/-- VCORE_CTRL.DRAIN, R126. -/
def Reg.vcoreCtrlDrain : Fld := ⟨8, 1, 1, 1, 0, .w1s, 0⟩
/-- VCORE_CTRL.SET, R126. -/
def Reg.vcoreCtrlSet : Fld := ⟨8, 2, 2, 1, 0, .rw, 0⟩
/-- VCORE_CFG.IN_FMT, R126. -/
def Reg.vcoreCfgInFmt : Fld := ⟨0x10, 0, 3, 1, 0, .rw, 1⟩
/-- VCORE_CFG.OUT_FMT, R126. -/
def Reg.vcoreCfgOutFmt : Fld := ⟨0x10, 3, 3, 1, 0, .rw, 1⟩
/-- VCORE_CFG.RND, R126. -/
def Reg.vcoreCfgRnd : Fld := ⟨0x10, 6, 2, 1, 0, .rw, 0⟩
/-- VCORE_CFG.SAT, R126. -/
def Reg.vcoreCfgSat : Fld := ⟨0x10, 8, 1, 1, 0, .rw, 0⟩
/-- VCORE_CFG.QCLIP, R126. -/
def Reg.vcoreCfgQclip : Fld := ⟨0x10, 9, 1, 1, 0, .rw, 0⟩
/-- VCORE_CFG.OUT_PRED, R126. -/
def Reg.vcoreCfgOutPred : Fld := ⟨0x10, 10, 1, 1, 0, .rw, 0⟩
/-- VCORE_CFG.SELECT, R126. -/
def Reg.vcoreCfgSelect : Fld := ⟨0x10, 11, 1, 1, 0, .rw, 0⟩
/-- VCORE_CFG.SEL_OUT, R126. -/
def Reg.vcoreCfgSelOut : Fld := ⟨0x10, 12, 1, 1, 0, .rw, 0⟩
/-- VCORE_CFG.ROWB, R126. -/
def Reg.vcoreCfgRowb : Fld := ⟨0x10, 20, 12, 1, 0, .rw, 1⟩
/-- VCORE_SEL.THRESH, R126. -/
def Reg.vcoreSelThresh : Fld := ⟨0x18, 0, 32, 1, 0, .rw, 0x7F800000⟩
/-- VCORE_SEL.GUARD, R126. -/
def Reg.vcoreSelGuard : Fld := ⟨0x18, 32, 16, 1, 0, .rw, 0x40⟩
/-- VCORE_SEL.SELBUF, R126. -/
def Reg.vcoreSelSelbuf : Fld := ⟨0x18, 48, 8, 1, 0, .rw, 0⟩
/-- VCORE_SEED.SEED, R126. -/
def Reg.vcoreSeedSeed : Fld := ⟨0x20, 0, 16, 1, 0, .rw, 0⟩
/-- VCORE_FTAB.BASE, R126. -/
def Reg.vcoreFtabBase : Fld := ⟨0x28, 0, 8, 1, 0, .rw, 0⟩
/-- VCORE_GATH.BASE, R126. -/
def Reg.vcoreGathBase : Fld := ⟨0x30, 0, 23, 1, 0, .rw, 0⟩
/-- VCORE_GATH.SPACE, R126. -/
def Reg.vcoreGathSpace : Fld := ⟨0x30, 23, 1, 1, 0, .rw, 0⟩
/-- VCORE_GATH.ESIZE, R126. -/
def Reg.vcoreGathEsize : Fld := ⟨0x30, 24, 2, 1, 0, .rw, 2⟩
/-- VCORE_STATUS.BUSY, R126. -/
def Reg.vcoreStatusBusy : Fld := ⟨0x38, 0, 1, 1, 0, .ro, 0⟩
/-- VCORE_STATUS.SET_PENDING, R126. -/
def Reg.vcoreStatusSetPending : Fld := ⟨0x38, 1, 1, 1, 0, .ro, 0⟩
/-- VCORE_STATUS.CFG_WR_IGN, R126. -/
def Reg.vcoreStatusCfgWrIgn : Fld := ⟨0x38, 2, 1, 1, 0, .w1c, 0⟩
/-- VCORE_STATUS.GATH_ERR, R126. -/
def Reg.vcoreStatusGathErr : Fld := ⟨0x38, 3, 1, 1, 0, .w1c, 0⟩
/-- VCORE_STAGE.OP, R126. -/
def Reg.vcoreStageOp : Fld := ⟨0x40, 0, 6, 24, 8, .rw, 0⟩
/-- VCORE_STAGE.FMT, R126. -/
def Reg.vcoreStageFmt : Fld := ⟨0x40, 6, 2, 24, 8, .rw, 0⟩
/-- VCORE_STAGE.SRC_A, R126. -/
def Reg.vcoreStageSrcA : Fld := ⟨0x40, 8, 3, 24, 8, .rw, 0⟩
/-- VCORE_STAGE.SRC_B, R126. -/
def Reg.vcoreStageSrcB : Fld := ⟨0x40, 11, 3, 24, 8, .rw, 0⟩
/-- VCORE_STAGE.SRC_C, R126. -/
def Reg.vcoreStageSrcC : Fld := ⟨0x40, 14, 3, 24, 8, .rw, 0⟩
/-- VCORE_STAGE.CIDX, R126. -/
def Reg.vcoreStageCidx : Fld := ⟨0x40, 17, 3, 24, 8, .rw, 0⟩
/-- VCORE_STAGE.NUM, R126. -/
def Reg.vcoreStageNum : Fld := ⟨0x40, 20, 1, 24, 8, .rw, 0⟩
/-- VCORE_STAGE.SUB, R126. -/
def Reg.vcoreStageSub : Fld := ⟨0x40, 21, 3, 24, 8, .rw, 0⟩
/-- VCORE_STAGE.PSEL, R126. -/
def Reg.vcoreStagePsel : Fld := ⟨0x40, 24, 2, 24, 8, .rw, 0⟩
/-- VCORE_STAGE.GUARD, R126. -/
def Reg.vcoreStageGuard : Fld := ⟨0x40, 26, 2, 24, 8, .rw, 0⟩
/-- VCORE_ELEMS, R126. -/
def Reg.vcoreElems : Fld := ⟨0x140, 0, 48, 1, 0, .ro, 0⟩
/-- VCORE_STALL_IN, R126. -/
def Reg.vcoreStallIn : Fld := ⟨0x148, 0, 48, 1, 0, .ro, 0⟩
/-- VCORE_STALL_OUT, R126. -/
def Reg.vcoreStallOut : Fld := ⟨0x150, 0, 48, 1, 0, .ro, 0⟩
/-- VCORE_STALL_GATH, R126. -/
def Reg.vcoreStallGath : Fld := ⟨0x158, 0, 48, 1, 0, .ro, 0⟩
/-- VCORE_WRAP, R126. -/
def Reg.vcoreWrap : Fld := ⟨0x160, 0, 4, 1, 0, .w1c, 0⟩
/-- VCORE_CONST, R126. -/
def Reg.vcoreConst : Fld := ⟨0x100, 0, 32, 8, 8, .rw, 0⟩

/-! SCORE_ registers of R127. -/

/-- SCORE_ID.UNIT_TYPE, R127. -/
def Reg.scoreIdUnitType : Fld := ⟨0, 0, 8, 1, 0, .ro, 4⟩
/-- SCORE_ID.VERSION, R127. -/
def Reg.scoreIdVersion : Fld := ⟨0, 16, 8, 1, 0, .ro, 1⟩
/-- SCORE_CTRL.RUN, R127. -/
def Reg.scoreCtrlRun : Fld := ⟨8, 0, 1, 1, 0, .rw, 0⟩
/-- SCORE_BOOT.ENTRY, R127. -/
def Reg.scoreBootEntry : Fld := ⟨0x10, 2, 16, 1, 0, .rw, 0⟩
/-- SCORE_EVT.VEC, R127. -/
def Reg.scoreEvtVec : Fld := ⟨0x18, 2, 16, 1, 0, .rw, 0⟩
/-- SCORE_EVT.EN, R127. -/
def Reg.scoreEvtEn : Fld := ⟨0x18, 20, 10, 1, 0, .rw, 0x122⟩
/-- SCORE_ESTAT.CAUSE, R127. -/
def Reg.scoreEstatCause : Fld := ⟨0x20, 0, 4, 1, 0, .ro, 0⟩
/-- SCORE_ESTAT.SRC, R127. -/
def Reg.scoreEstatSrc : Fld := ⟨0x20, 4, 4, 1, 0, .ro, 0⟩
/-- SCORE_ESTAT.DEPTH, R127. -/
def Reg.scoreEstatDepth : Fld := ⟨0x20, 8, 5, 1, 0, .ro, 0⟩
/-- SCORE_ESTAT.IN_HANDLER, R127. -/
def Reg.scoreEstatInHandler : Fld := ⟨0x20, 13, 1, 1, 0, .ro, 0⟩
/-- SCORE_ESTAT.HALTED, R127. -/
def Reg.scoreEstatHalted : Fld := ⟨0x20, 14, 1, 1, 0, .ro, 0⟩
/-- SCORE_EPC.EPC, R127. -/
def Reg.scoreEpcEpc : Fld := ⟨0x28, 2, 16, 1, 0, .ro, 0⟩
/-- SCORE_WDOG.TIMEOUT, R127. -/
def Reg.scoreWdogTimeout : Fld := ⟨0x30, 0, 20, 1, 0, .rw, 0x3E8⟩
/-- SCORE_STEP.STEP, R127. -/
def Reg.scoreStepStep : Fld := ⟨0x38, 0, 32, 1, 0, .ro, 0⟩
/-- SCORE_OPAL.IDLE, R127. -/
def Reg.scoreOpalIdle : Fld := ⟨0x40, 0, 16, 1, 0, .ro, 0⟩
/-- SCORE_OPAL.MASK, R127. -/
def Reg.scoreOpalMask : Fld := ⟨0x40, 16, 16, 1, 0, .ro, 0⟩
/-- SCORE_WIN.BASE, R127. -/
def Reg.scoreWinBase : Fld := ⟨0x80, 24, 34, 16, 8, .rw, 0⟩
/-- SCORE_INSTR, R127. -/
def Reg.scoreInstr : Fld := ⟨0x100, 0, 48, 1, 0, .ro, 0⟩
/-- SCORE_STALL, R127. -/
def Reg.scoreStall : Fld := ⟨0x108, 0, 48, 1, 0, .ro, 0⟩
/-- SCORE_EVENTS, R127. -/
def Reg.scoreEvents : Fld := ⟨0x110, 0, 32, 1, 0, .ro, 0⟩
/-- SCORE_WRAP, R127. -/
def Reg.scoreWrap : Fld := ⟨0x118, 0, 2, 1, 0, .w1c, 0⟩

/-! POND_ registers of R166. -/

/-- POND_MEM_CFG.CACHE_MIB, R166. -/
def Reg.pondMemCfgCacheMib : Fld := ⟨0x200, 0, 3, 1, 0, .rw, 0⟩
/-- POND_MEM_CFG.PATROL_EN, R166. -/
def Reg.pondMemCfgPatrolEn : Fld := ⟨0x200, 3, 1, 1, 0, .rw, 1⟩
/-- POND_MEM_MAP.USED, R166 (reset: "From map"). -/
def Reg.pondMemMapUsed : Fld := ⟨0x208, 0, 34, 1, 0, .ro, 0⟩
/-- POND_CACHE_CMD.OP, R166. -/
def Reg.pondCacheCmdOp : Fld := ⟨0x210, 0, 2, 1, 0, .wo, 0⟩
/-- POND_CACHE_CMD.RANGE, R166. -/
def Reg.pondCacheCmdRange : Fld := ⟨0x210, 2, 1, 1, 0, .wo, 0⟩
/-- POND_CACHE_CMD.SPRING, R166. -/
def Reg.pondCacheCmdSpring : Fld := ⟨0x210, 3, 6, 1, 0, .wo, 0⟩
/-- POND_CACHE_CMD.SIG_EN, R166. -/
def Reg.pondCacheCmdSigEn : Fld := ⟨0x210, 9, 1, 1, 0, .wo, 0⟩
/-- POND_CACHE_BASE.LINE, R166. -/
def Reg.pondCacheBaseLine : Fld := ⟨0x218, 7, 51, 1, 0, .rw, 0⟩
/-- POND_CACHE_LEN.LINES, R166. -/
def Reg.pondCacheLenLines : Fld := ⟨0x220, 0, 32, 1, 0, .rw, 0⟩
/-- POND_MEM_STAT.CMD_BUSY, R166. -/
def Reg.pondMemStatCmdBusy : Fld := ⟨0x228, 0, 1, 1, 0, .ro, 0⟩
/-- POND_MEM_STAT.CMD_PENDING, R166. -/
def Reg.pondMemStatCmdPending : Fld := ⟨0x228, 1, 1, 1, 0, .ro, 0⟩
/-- POND_MEM_STAT.CMD_OVF, R166. -/
def Reg.pondMemStatCmdOvf : Fld := ⟨0x228, 2, 1, 1, 0, .w1c, 0⟩
/-- POND_MEM_STAT.SPLIT_BUSY, R166. -/
def Reg.pondMemStatSplitBusy : Fld := ⟨0x228, 3, 1, 1, 0, .ro, 0⟩
/-- POND_MEM_STAT.UNC, R166. -/
def Reg.pondMemStatUnc : Fld := ⟨0x228, 4, 1, 1, 0, .w1c, 0⟩
/-- POND_MEM_STAT.RETIRE_PENDING, R166. -/
def Reg.pondMemStatRetirePending : Fld := ⟨0x228, 5, 1, 1, 0, .ro, 0⟩
/-- POND_BANK_CONF, R166. -/
def Reg.pondBankConf : Fld := ⟨0x240, 0, 48, 1, 0, .ro, 0⟩
/-- POND_CACHE_HIT, R166. -/
def Reg.pondCacheHit : Fld := ⟨0x248, 0, 48, 1, 0, .ro, 0⟩
/-- POND_CACHE_MISS, R166. -/
def Reg.pondCacheMiss : Fld := ⟨0x250, 0, 48, 1, 0, .ro, 0⟩
/-- POND_CACHE_WB, R166. -/
def Reg.pondCacheWb : Fld := ⟨0x258, 0, 48, 1, 0, .ro, 0⟩
/-- POND_ECC_CORR, R166. -/
def Reg.pondEccCorr : Fld := ⟨0x260, 0, 32, 1, 0, .ro, 0⟩
/-- POND_ECC_UNC, R166. -/
def Reg.pondEccUnc : Fld := ⟨0x268, 0, 32, 1, 0, .ro, 0⟩
/-- POND_MEM_WRAP, R166. -/
def Reg.pondMemWrap : Fld := ⟨0x270, 0, 4, 1, 0, .w1c, 0⟩

/-! AU_ registers of R167. -/

/-- AU_ID.UNIT_TYPE, R167. -/
def Reg.auIdUnitType : Fld := ⟨0, 0, 8, 1, 0, .ro, 3⟩
/-- AU_ID.POS, R167 (reset: "t"). -/
def Reg.auIdPos : Fld := ⟨0, 8, 4, 1, 0, .ro, 0⟩
/-- AU_ID.VERSION, R167. -/
def Reg.auIdVersion : Fld := ⟨0, 16, 8, 1, 0, .ro, 1⟩
/-- AU_CTRL.RUN, R167. -/
def Reg.auCtrlRun : Fld := ⟨8, 0, 1, 1, 0, .rw, 0⟩
/-- AU_CTRL.DRAIN, R167. -/
def Reg.auCtrlDrain : Fld := ⟨8, 1, 1, 1, 0, .w1s, 0⟩
/-- AU_CTRL.ABORT, R167. -/
def Reg.auCtrlAbort : Fld := ⟨8, 4, 4, 1, 0, .w1s, 0⟩
/-- AU_STATUS.BUSY, R167. -/
def Reg.auStatusBusy : Fld := ⟨0x10, 0, 4, 1, 0, .ro, 0⟩
/-- AU_STATUS.ERR, R167. -/
def Reg.auStatusErr : Fld := ⟨0x10, 4, 4, 1, 0, .w1c, 0⟩
/-- AU_STATUS.CFG_WR_IGN, R167. -/
def Reg.auStatusCfgWrIgn : Fld := ⟨0x10, 8, 1, 1, 0, .w1c, 0⟩
/-- AU_GEN_STAT.STATE, R167. -/
def Reg.auGenStatState : Fld := ⟨0x40, 0, 2, 4, 16, .ro, 0⟩
/-- AU_GEN_STAT.QDEPTH, R167. -/
def Reg.auGenStatQdepth : Fld := ⟨0x40, 2, 3, 4, 16, .ro, 0⟩
/-- AU_GEN_STAT.CHAIN, R167. -/
def Reg.auGenStatChain : Fld := ⟨0x40, 5, 1, 4, 16, .ro, 0⟩
/-- AU_GEN_STAT.KIND, R167. -/
def Reg.auGenStatKind : Fld := ⟨0x40, 8, 8, 4, 16, .ro, 0⟩
/-- AU_GEN_STAT.HANDLE, R167. -/
def Reg.auGenStatHandle : Fld := ⟨0x40, 32, 32, 4, 16, .ro, 0⟩
/-- AU_GEN_POS.DONE, R167. -/
def Reg.auGenPosDone : Fld := ⟨0x48, 0, 48, 4, 16, .ro, 0⟩
/-- AU_REQS, R167. -/
def Reg.auReqs : Fld := ⟨0x100, 0, 48, 4, 8, .ro, 0⟩
/-- AU_STALL, R167. -/
def Reg.auStall : Fld := ⟨0x120, 0, 48, 4, 8, .ro, 0⟩
/-- AU_CMP_TILES, R167. -/
def Reg.auCmpTiles : Fld := ⟨0x140, 0, 48, 1, 0, .ro, 0⟩
/-- AU_CMP_DENSE, R167. -/
def Reg.auCmpDense : Fld := ⟨0x148, 0, 48, 1, 0, .ro, 0⟩
/-- AU_WRAP, R167. -/
def Reg.auWrap : Fld := ⟨0x150, 0, 10, 1, 0, .w1c, 0⟩

/-! DRAM_ registers of R168. -/

/-- DRAM_ID.UNIT_TYPE, R168. -/
def Reg.dramIdUnitType : Fld := ⟨0, 0, 8, 1, 0, .ro, 0x10⟩
/-- DRAM_ID.VERSION, R168. -/
def Reg.dramIdVersion : Fld := ⟨0, 16, 8, 1, 0, .ro, 1⟩
/-- DRAM_CHAN.GOOD, R168 (reset: "From map"). -/
def Reg.dramChanGood : Fld := ⟨8, 0, 32, 1, 0, .ro, 0⟩
/-- DRAM_CHAN.G, R168 (reset: "From map"). -/
def Reg.dramChanG : Fld := ⟨8, 32, 6, 1, 0, .ro, 0⟩
/-- DRAM_CHAN.USABLE_GIB, R168 (reset: "From map"). -/
def Reg.dramChanUsableGib : Fld := ⟨8, 38, 7, 1, 0, .ro, 0⟩
/-- DRAM_CHAN.FAILED_LIVE, R168. -/
def Reg.dramChanFailedLive : Fld := ⟨8, 45, 1, 1, 0, .ro, 0⟩
/-- DRAM_THERM.TEMP, R168. -/
def Reg.dramThermTemp : Fld := ⟨0x10, 0, 10, 1, 0, .ro, 0⟩
/-- DRAM_THERM.STATE, R168. -/
def Reg.dramThermState : Fld := ⟨0x10, 10, 2, 1, 0, .ro, 0⟩
/-- DRAM_THERM.HOLD_MS, R168. -/
def Reg.dramThermHoldMs : Fld := ⟨0x10, 16, 16, 1, 0, .rw, 0xA⟩
/-- DRAM_THROTTLE.LIMIT, R168. -/
def Reg.dramThrottleLimit : Fld := ⟨0x18, 0, 7, 1, 0, .rw, 0x64⟩
/-- DRAM_THROTTLE.ALERT_LIMIT, R168. -/
def Reg.dramThrottleAlertLimit : Fld := ⟨0x18, 8, 7, 1, 0, .rw, 0x19⟩
/-- DRAM_THROTTLE.ALERT, R168. -/
def Reg.dramThrottleAlert : Fld := ⟨0x18, 15, 1, 1, 0, .ro, 0⟩
/-- DRAM_PATROL.EN, R168. -/
def Reg.dramPatrolEn : Fld := ⟨0x20, 0, 1, 1, 0, .rw, 1⟩
/-- DRAM_PATROL.PASSES, R168. -/
def Reg.dramPatrolPasses : Fld := ⟨0x20, 32, 32, 1, 0, .ro, 0⟩
/-- DRAM_ERR_LAST.OFFSET, R168. -/
def Reg.dramErrLastOffset : Fld := ⟨0x28, 0, 37, 1, 0, .ro, 0⟩
/-- DRAM_ERR_LAST.CHANNEL, R168. -/
def Reg.dramErrLastChannel : Fld := ⟨0x28, 37, 5, 1, 0, .ro, 0⟩
/-- DRAM_ERR_LAST.VALID, R168. -/
def Reg.dramErrLastValid : Fld := ⟨0x28, 63, 1, 1, 0, .w1c, 0⟩
/-- DRAM_ECC_CORR, R168. -/
def Reg.dramEccCorr : Fld := ⟨0x40, 0, 32, 1, 0, .ro, 0⟩
/-- DRAM_ECC_UNC, R168. -/
def Reg.dramEccUnc : Fld := ⟨0x48, 0, 32, 1, 0, .ro, 0⟩
/-- DRAM_RACC, R168. -/
def Reg.dramRacc : Fld := ⟨0x50, 0, 64, 1, 0, .ro, 0⟩
/-- DRAM_CH_RD, R168. -/
def Reg.dramChRd : Fld := ⟨0x100, 0, 48, 32, 32, .ro, 0⟩
/-- DRAM_CH_WR, R168. -/
def Reg.dramChWr : Fld := ⟨0x108, 0, 48, 32, 32, .ro, 0⟩
/-- DRAM_CH_STALL, R168. -/
def Reg.dramChStall : Fld := ⟨0x110, 0, 48, 32, 32, .ro, 0⟩
/-- DRAM_CH_WRAP, R168. -/
def Reg.dramChWrap : Fld := ⟨0x118, 0, 3, 32, 32, .w1c, 0⟩

/-! RTR_ registers of R197. -/

/-- RTR_QDEST.QUEUE, R197. -/
def Reg.rtrQdestQueue : Fld := ⟨0x800, 0, 3, 8, 8, .rw, 0⟩
/-- RTR_QDEST.TILE, R197. -/
def Reg.rtrQdestTile : Fld := ⟨0x800, 3, 4, 8, 8, .rw, 0⟩
/-- RTR_QDEST.POND, R197. -/
def Reg.rtrQdestPond : Fld := ⟨0x800, 7, 9, 8, 8, .rw, 0⟩
/-- RTR_QDEST.FIELD, R197. -/
def Reg.rtrQdestField : Fld := ⟨0x800, 16, 6, 8, 8, .rw, 0⟩
/-- RTR_QDEST.RANK, R197. -/
def Reg.rtrQdestRank : Fld := ⟨0x800, 22, 6, 8, 8, .rw, 0⟩
/-- RTR_QDEST.UNORD, R197. -/
def Reg.rtrQdestUnord : Fld := ⟨0x800, 28, 1, 8, 8, .rw, 0⟩
/-- RTR_QDEST.VALID, R197. -/
def Reg.rtrQdestValid : Fld := ⟨0x800, 29, 1, 8, 8, .rw, 0⟩
/-- RTR_QSPILL_I.L1_BASE, R197. -/
def Reg.rtrQspillIL1Base : Fld := ⟨0x840, 0, 8, 8, 8, .rw, 0⟩
/-- RTR_QSPILL_O.L1_BASE, R197. -/
def Reg.rtrQspillOL1Base : Fld := ⟨0x880, 0, 8, 8, 8, .rw, 0⟩
/-- RTR_QSPILL_I.L1_SIZE, R197. -/
def Reg.rtrQspillIL1Size : Fld := ⟨0x840, 8, 8, 8, 8, .rw, 0⟩
/-- RTR_QSPILL_O.L1_SIZE, R197. -/
def Reg.rtrQspillOL1Size : Fld := ⟨0x880, 8, 8, 8, 8, .rw, 0⟩
/-- RTR_QSPILL_I.L2_BASE, R197. -/
def Reg.rtrQspillIL2Base : Fld := ⟨0x840, 16, 11, 8, 8, .rw, 0⟩
/-- RTR_QSPILL_O.L2_BASE, R197. -/
def Reg.rtrQspillOL2Base : Fld := ⟨0x880, 16, 11, 8, 8, .rw, 0⟩
/-- RTR_QSPILL_I.L2_SIZE, R197. -/
def Reg.rtrQspillIL2Size : Fld := ⟨0x840, 32, 8, 8, 8, .rw, 0⟩
/-- RTR_QSPILL_O.L2_SIZE, R197. -/
def Reg.rtrQspillOL2Size : Fld := ⟨0x880, 32, 8, 8, 8, .rw, 0⟩
/-- RTR_STEER.FUNC, R197. -/
def Reg.rtrSteerFunc : Fld := ⟨0x8C0, 0, 3, 4, 8, .rw, 0⟩
/-- RTR_STEER.CIN, R197. -/
def Reg.rtrSteerCin : Fld := ⟨0x8C0, 3, 3, 4, 8, .rw, 0⟩
/-- RTR_STEER.DIN, R197. -/
def Reg.rtrSteerDin : Fld := ⟨0x8C0, 6, 3, 4, 8, .rw, 0⟩
/-- RTR_STEER.M1, R197. -/
def Reg.rtrSteerM1 : Fld := ⟨0x8C0, 9, 3, 4, 8, .rw, 0⟩
/-- RTR_STEER.M2, R197. -/
def Reg.rtrSteerM2 : Fld := ⟨0x8C0, 12, 3, 4, 8, .rw, 0⟩
/-- RTR_STEER.M3, R197. -/
def Reg.rtrSteerM3 : Fld := ⟨0x8C0, 15, 3, 4, 8, .rw, 0⟩
/-- RTR_STEER.MCNT, R197. -/
def Reg.rtrSteerMcnt : Fld := ⟨0x8C0, 18, 2, 4, 8, .rw, 0⟩
/-- RTR_STEER.OUT, R197. -/
def Reg.rtrSteerOut : Fld := ⟨0x8C0, 20, 4, 4, 8, .rw, 0⟩
/-- RTR_STEER.OUT_MASK, R197. -/
def Reg.rtrSteerOutMask : Fld := ⟨0x8C0, 24, 8, 4, 8, .rw, 0⟩
/-- RTR_STEER.ITEMS, R197. -/
def Reg.rtrSteerItems : Fld := ⟨0x8C0, 32, 8, 4, 8, .rw, 1⟩
/-- RTR_STEER.LEN, R197. -/
def Reg.rtrSteerLen : Fld := ⟨0x8C0, 40, 8, 4, 8, .rw, 1⟩
/-- RTR_STEER.DEADLINE, R197. -/
def Reg.rtrSteerDeadline : Fld := ⟨0x8C0, 48, 12, 4, 8, .rw, 0x100⟩
/-- RTR_STEER.EMIT, R197. -/
def Reg.rtrSteerEmit : Fld := ⟨0x8C0, 60, 1, 4, 8, .rw, 0⟩
/-- RTR_QSTAT.IWAIT, R197. -/
def Reg.rtrQstatIwait : Fld := ⟨0x8E0, 0, 8, 1, 0, .ro, 0⟩
/-- RTR_QSTAT.OWAIT, R197. -/
def Reg.rtrQstatOwait : Fld := ⟨0x8E0, 8, 8, 1, 0, .ro, 0⟩
/-- RTR_QSTAT.ISPILL, R197. -/
def Reg.rtrQstatIspill : Fld := ⟨0x8E0, 16, 8, 1, 0, .ro, 0⟩
/-- RTR_QSTAT.OSPILL, R197. -/
def Reg.rtrQstatOspill : Fld := ⟨0x8E0, 24, 8, 1, 0, .ro, 0⟩
/-- RTR_QSTAT.LAST_TOK, R197. -/
def Reg.rtrQstatLastTok : Fld := ⟨0x8E0, 32, 1, 1, 0, .ro, 0⟩
/-- RTR_QSTAT.STEER_ERR, R197. -/
def Reg.rtrQstatSteerErr : Fld := ⟨0x8E0, 33, 1, 1, 0, .w1c, 0⟩
/-- RTR_QSTAT.CFG_WR_IGN, R197. -/
def Reg.rtrQstatCfgWrIgn : Fld := ⟨0x8E0, 34, 1, 1, 0, .w1c, 0⟩
/-- RTR_QSTAT.WAIT_TMO, R197. -/
def Reg.rtrQstatWaitTmo : Fld := ⟨0x8E0, 35, 16, 1, 0, .w1c, 0⟩
/-- RTR_QSTALL_I, R197. -/
def Reg.rtrQstallI : Fld := ⟨0x900, 0, 48, 8, 8, .ro, 0⟩
/-- RTR_QSTALL_O, R197. -/
def Reg.rtrQstallO : Fld := ⟨0x940, 0, 48, 8, 8, .ro, 0⟩
/-- RTR_STEER_WAIT, R197. -/
def Reg.rtrSteerWait : Fld := ⟨0x980, 0, 48, 4, 8, .ro, 0⟩
/-- RTR_STEER_BLK, R197. -/
def Reg.rtrSteerBlk : Fld := ⟨0x9A0, 0, 48, 4, 8, .ro, 0⟩
/-- RTR_STEER_DROP, R197. -/
def Reg.rtrSteerDrop : Fld := ⟨0x9C0, 0, 48, 1, 0, .ro, 0⟩
/-- RTR_TOK_DROP, R197. -/
def Reg.rtrTokDrop : Fld := ⟨0x9C8, 0, 32, 1, 0, .ro, 0⟩
/-- RTR_SEND_HELD, R197. -/
def Reg.rtrSendHeld : Fld := ⟨0x9D0, 0, 48, 1, 0, .ro, 0⟩
/-- RTR_QWRAP, R197. -/
def Reg.rtrQwrap : Fld := ⟨0x9D8, 0, 26, 1, 0, .w1c, 0⟩
/-- RTR_QOCC_I.CUR, R197. -/
def Reg.rtrQoccICur : Fld := ⟨0xA00, 0, 16, 8, 8, .ro, 0⟩
/-- RTR_QOCC_I.HIGH, R197. -/
def Reg.rtrQoccIHigh : Fld := ⟨0xA00, 16, 16, 8, 8, .ro, 0⟩
/-- RTR_QOCC_O.CUR, R197. -/
def Reg.rtrQoccOCur : Fld := ⟨0xA40, 0, 16, 8, 8, .ro, 0⟩
/-- RTR_QOCC_O.HIGH, R197. -/
def Reg.rtrQoccOHigh : Fld := ⟨0xA40, 16, 16, 8, 8, .ro, 0⟩

/-! POND_ registers of R198. -/

/-- POND_ARR_STAT.USED, R198. -/
def Reg.pondArrStatUsed : Fld := ⟨0x300, 0, 5, 1, 0, .ro, 0⟩
/-- POND_ARR_STAT.HIGH, R198. -/
def Reg.pondArrStatHigh : Fld := ⟨0x300, 8, 5, 1, 0, .ro, 0⟩
/-- POND_ARR_STAT.HELD, R198. -/
def Reg.pondArrStatHeld : Fld := ⟨0x300, 16, 5, 1, 0, .ro, 0⟩
/-- POND_SPR_CFG.WAIT_LIMIT, R198. -/
def Reg.pondSprCfgWaitLimit : Fld := ⟨0x308, 0, 20, 1, 0, .rw, 0⟩
/-- POND_ARR_DENY, R198. -/
def Reg.pondArrDeny : Fld := ⟨0x310, 0, 32, 1, 0, .ro, 0⟩
/-- POND_SIG_HELD, R198. -/
def Reg.pondSigHeld : Fld := ⟨0x318, 0, 48, 1, 0, .ro, 0⟩
/-- POND_SIG_APPLIED, R198. -/
def Reg.pondSigApplied : Fld := ⟨0x320, 0, 48, 1, 0, .ro, 0⟩
/-- POND_SPR_WRAP, R198. -/
def Reg.pondSprWrap : Fld := ⟨0x328, 0, 2, 1, 0, .w1c, 0⟩

/-! RTR_ registers of R264. -/

/-- RTR_ID.UNIT_TYPE, R264. -/
def Reg.rtrIdUnitType : Fld := ⟨0x400, 0, 8, 1, 0, .ro, 0x20⟩
/-- RTR_ID.POS, R264 (reset: "t"). -/
def Reg.rtrIdPos : Fld := ⟨0x400, 8, 4, 1, 0, .ro, 0⟩
/-- RTR_ID.VERSION, R264. -/
def Reg.rtrIdVersion : Fld := ⟨0x400, 16, 8, 1, 0, .ro, 1⟩
/-- RTR_ID.FIELD_LINK, R264 (reset: "By position"). -/
def Reg.rtrIdFieldLink : Fld := ⟨0x400, 24, 1, 1, 0, .ro, 0⟩
/-- RTR_ID.WRAP, R264 (reset: "By position"). -/
def Reg.rtrIdWrap : Fld := ⟨0x400, 25, 4, 1, 0, .ro, 0⟩
/-- RTR_CFG.ESC_WAIT, R264. -/
def Reg.rtrCfgEscWait : Fld := ⟨0x408, 0, 8, 1, 0, .rw, 0x10⟩
/-- RTR_CFG.COMB_WIN, R264. -/
def Reg.rtrCfgCombWin : Fld := ⟨0x408, 8, 6, 1, 0, .rw, 8⟩
/-- RTR_CFG.RSP_TMO, R264. -/
def Reg.rtrCfgRspTmo : Fld := ⟨0x408, 16, 16, 1, 0, .rw, 0x3E8⟩
/-- RTR_STATUS.CFG_WR_IGN, R264. -/
def Reg.rtrStatusCfgWrIgn : Fld := ⟨0x410, 0, 1, 1, 0, .w1c, 0⟩
/-- RTR_STATUS.ESC_FROZEN, R264. -/
def Reg.rtrStatusEscFrozen : Fld := ⟨0x410, 1, 1, 1, 0, .ro, 0⟩
/-- RTR_STATUS.SLOT_ERR, R264. -/
def Reg.rtrStatusSlotErr : Fld := ⟨0x410, 2, 1, 1, 0, .w1c, 0⟩
/-- RTR_STATUS.HW_CLR, R264. -/
def Reg.rtrStatusHwClr : Fld := ⟨0x410, 3, 1, 1, 0, .w1s, 0⟩
/-- RTR_STATUS.EPOCH, R264. -/
def Reg.rtrStatusEpoch : Fld := ⟨0x410, 8, 8, 1, 0, .ro, 0⟩
/-- RTR_RSLOT.BUSY, R264. -/
def Reg.rtrRslotBusy : Fld := ⟨0x418, 0, 16, 1, 0, .ro, 0⟩
/-- RTR_COMBINE, R264. -/
def Reg.rtrCombine : Fld := ⟨0x440, 0, 48, 1, 0, .ro, 0⟩
/-- RTR_DISCARD, R264. -/
def Reg.rtrDiscard : Fld := ⟨0x448, 0, 32, 1, 0, .ro, 0⟩
/-- RTR_NACK, R264. -/
def Reg.rtrNack : Fld := ⟨0x450, 0, 48, 1, 0, .ro, 0⟩
/-- RTR_ESC_ENTER, R264. -/
def Reg.rtrEscEnter : Fld := ⟨0x458, 0, 48, 1, 0, .ro, 0⟩
/-- RTR_GWRAP, R264. -/
def Reg.rtrGwrap : Fld := ⟨0x460, 0, 3, 1, 0, .w1c, 0⟩
/-- RTR_PKT_IN, R264. -/
def Reg.rtrPktIn : Fld := ⟨0x500, 0, 48, 6, 64, .ro, 0⟩
/-- RTR_PKT_OUT, R264. -/
def Reg.rtrPktOut : Fld := ⟨0x508, 0, 48, 6, 64, .ro, 0⟩
/-- RTR_STALL, R264. -/
def Reg.rtrStall : Fld := ⟨0x510, 0, 48, 6, 64, .ro, 0⟩
/-- RTR_DEPTH.VC0_CUR, R264. -/
def Reg.rtrDepthVc0Cur : Fld := ⟨0x518, 0, 4, 6, 64, .ro, 0⟩
/-- RTR_DEPTH.VC0_HW, R264. -/
def Reg.rtrDepthVc0Hw : Fld := ⟨0x518, 4, 4, 6, 64, .ro, 0⟩
/-- RTR_DEPTH.VC1, R264. -/
def Reg.rtrDepthVc1 : Fld := ⟨0x518, 8, 8, 6, 64, .ro, 0⟩
/-- RTR_DEPTH.VC2, R264. -/
def Reg.rtrDepthVc2 : Fld := ⟨0x518, 16, 8, 6, 64, .ro, 0⟩
/-- RTR_DEPTH.VC3, R264. -/
def Reg.rtrDepthVc3 : Fld := ⟨0x518, 24, 8, 6, 64, .ro, 0⟩
/-- RTR_CRC_ERR, R264. -/
def Reg.rtrCrcErr : Fld := ⟨0x520, 0, 32, 6, 64, .ro, 0⟩
/-- RTR_MC_HOLD, R264. -/
def Reg.rtrMcHold : Fld := ⟨0x528, 0, 48, 6, 64, .ro, 0⟩
/-- RTR_LINK.STATE, R264. -/
def Reg.rtrLinkState : Fld := ⟨0x530, 0, 2, 6, 64, .ro, 0⟩
/-- RTR_LINK.ASLEEP, R264. -/
def Reg.rtrLinkAsleep : Fld := ⟨0x530, 2, 1, 6, 64, .ro, 0⟩
/-- RTR_PWRAP, R264. -/
def Reg.rtrPwrap : Fld := ⟨0x538, 0, 4, 6, 64, .w1c, 0⟩

/-! OPT_ registers of R292. -/

/-- OPT_ID.UNIT_TYPE, R292. -/
def Reg.optIdUnitType : Fld := ⟨0, 0, 8, 1, 0, .ro, 0x30⟩
/-- OPT_ID.VERSION, R292. -/
def Reg.optIdVersion : Fld := ⟨0, 16, 8, 1, 0, .ro, 1⟩
/-- OPT_SYS.RANK, R292. -/
def Reg.optSysRank : Fld := ⟨8, 0, 6, 1, 0, .ro, 0⟩
/-- OPT_SYS.SIZE, R292. -/
def Reg.optSysSize : Fld := ⟨8, 6, 7, 1, 0, .ro, 1⟩
/-- OPT_SYS.FAB192, R292. -/
def Reg.optSysFab192 : Fld := ⟨8, 13, 1, 1, 0, .ro, 0⟩
/-- OPT_SYS.PROMOTED, R292. -/
def Reg.optSysPromoted : Fld := ⟨8, 14, 1, 1, 0, .ro, 0⟩
/-- OPT_SYS.ACTIVE, R292. -/
def Reg.optSysActive : Fld := ⟨8, 16, 8, 1, 0, .ro, 0⟩
/-- OPT_LASER.SUPPLY, R292 (reset: "f div 4"). -/
def Reg.optLaserSupply : Fld := ⟨0x10, 0, 4, 1, 0, .ro, 0⟩
/-- OPT_LASER.PRESENT, R292. -/
def Reg.optLaserPresent : Fld := ⟨0x10, 4, 1, 1, 0, .ro, 0⟩
/-- OPT_LASER.LOST, R292. -/
def Reg.optLaserLost : Fld := ⟨0x10, 5, 1, 1, 0, .w1c, 0⟩
/-- OPT_LASER.LOW, R292. -/
def Reg.optLaserLow : Fld := ⟨0x10, 8, 16, 1, 0, .ro, 0⟩
/-- OPT_WRAP.PWRAP, R292. -/
def Reg.optWrapPwrap : Fld := ⟨0x18, 0, 16, 1, 0, .w1c, 0⟩
/-- OPT_WRAP.RWRAP, R292. -/
def Reg.optWrapRwrap : Fld := ⟨0x18, 16, 1, 1, 0, .w1c, 0⟩
/-- OPT_RELAYED, R292. -/
def Reg.optRelayed : Fld := ⟨0x20, 0, 48, 1, 0, .ro, 0⟩
/-- OPT_PCTRL.EN, R292. -/
def Reg.optPctrlEn : Fld := ⟨0x100, 0, 1, 4, 64, .rw, 1⟩
/-- OPT_PCTRL.RETRAIN, R292. -/
def Reg.optPctrlRetrain : Fld := ⟨0x100, 1, 1, 4, 64, .w1s, 0⟩
/-- OPT_PCTRL.HOLD_DOWN, R292. -/
def Reg.optPctrlHoldDown : Fld := ⟨0x100, 2, 1, 4, 64, .rw, 0⟩
/-- OPT_PSTAT.STATE, R292. -/
def Reg.optPstatState : Fld := ⟨0x108, 0, 3, 4, 64, .ro, 0⟩
/-- OPT_PSTAT.LANES, R292. -/
def Reg.optPstatLanes : Fld := ⟨0x108, 3, 5, 4, 64, .ro, 0⟩
/-- OPT_PSTAT.SPARE, R292 (reset: "By port"). -/
def Reg.optPstatSpare : Fld := ⟨0x108, 8, 1, 4, 64, .ro, 0⟩
/-- OPT_PSTAT.SUBST, R292. -/
def Reg.optPstatSubst : Fld := ⟨0x108, 9, 1, 4, 64, .ro, 0⟩
/-- OPT_PSTAT.FAILS, R292. -/
def Reg.optPstatFails : Fld := ⟨0x108, 16, 8, 4, 64, .ro, 0⟩
/-- OPT_PSTAT.LANE_OK, R292. -/
def Reg.optPstatLaneOk : Fld := ⟨0x108, 32, 16, 4, 64, .ro, 0⟩
/-- OPT_PEER.PEER_RANK, R292. -/
def Reg.optPeerPeerRank : Fld := ⟨0x110, 0, 6, 4, 64, .ro, 0⟩
/-- OPT_PEER.PEER_DEAL, R292. -/
def Reg.optPeerPeerDeal : Fld := ⟨0x110, 8, 8, 4, 64, .ro, 0⟩
/-- OPT_PEER.DEAL, R292. -/
def Reg.optPeerDeal : Fld := ⟨0x110, 16, 8, 4, 64, .ro, 0xFF⟩
/-- OPT_PEER.VALID, R292. -/
def Reg.optPeerValid : Fld := ⟨0x110, 24, 1, 4, 64, .ro, 0⟩
/-- OPT_TX_FRAMES, R292. -/
def Reg.optTxFrames : Fld := ⟨0x118, 0, 48, 4, 64, .ro, 0⟩
/-- OPT_RX_FRAMES, R292. -/
def Reg.optRxFrames : Fld := ⟨0x120, 0, 48, 4, 64, .ro, 0⟩
/-- OPT_FEC_CORR, R292. -/
def Reg.optFecCorr : Fld := ⟨0x128, 0, 48, 4, 64, .ro, 0⟩
/-- OPT_FRAME_ERR, R292. -/
def Reg.optFrameErr : Fld := ⟨0x130, 0, 32, 4, 64, .ro, 0⟩
/-- OPT_REPLAY, R292. -/
def Reg.optReplay : Fld := ⟨0x138, 0, 48, 4, 64, .ro, 0⟩

/-! SVC_ registers of R293. -/

/-- SVC_RING_CTRL.EN, R293. -/
def Reg.svcRingCtrlEn : Fld := ⟨0x600, 0, 1, 1, 0, .rw, 0⟩
/-- SVC_RING_CTRL.MASTER_EN, R293. -/
def Reg.svcRingCtrlMasterEn : Fld := ⟨0x600, 1, 1, 1, 0, .rw, 1⟩
/-- SVC_RING_STAT.TOPO, R293. -/
def Reg.svcRingStatTopo : Fld := ⟨0x608, 0, 2, 1, 0, .ro, 3⟩
/-- SVC_RING_STAT.BYPASS, R293. -/
def Reg.svcRingStatBypass : Fld := ⟨0x608, 2, 1, 1, 0, .ro, 1⟩
/-- SVC_RING_STAT.ALIGNED, R293. -/
def Reg.svcRingStatAligned : Fld := ⟨0x608, 3, 1, 1, 0, .ro, 0⟩
/-- SVC_RING_STAT.MASTER, R293. -/
def Reg.svcRingStatMaster : Fld := ⟨0x608, 4, 1, 1, 0, .ro, 0⟩
/-- SVC_RING_STAT.LIGHT_A, R293. -/
def Reg.svcRingStatLightA : Fld := ⟨0x608, 5, 1, 1, 0, .ro, 0⟩
/-- SVC_RING_STAT.LIGHT_B, R293. -/
def Reg.svcRingStatLightB : Fld := ⟨0x608, 6, 1, 1, 0, .ro, 0⟩
/-- SVC_RING_STAT.MASTER_RANK, R293. -/
def Reg.svcRingStatMasterRank : Fld := ⟨0x608, 8, 6, 1, 0, .ro, 0⟩
/-- SVC_RING_STAT.HOPS, R293. -/
def Reg.svcRingStatHops : Fld := ⟨0x608, 16, 6, 1, 0, .ro, 0⟩
/-- SVC_RING_STAT.DIR, R293. -/
def Reg.svcRingStatDir : Fld := ⟨0x608, 22, 1, 1, 0, .ro, 0⟩
/-- SVC_RING_DELAY.HOP_A, R293. -/
def Reg.svcRingDelayHopA : Fld := ⟨0x610, 0, 32, 1, 0, .ro, 0⟩
/-- SVC_RING_DELAY.HOP_B, R293. -/
def Reg.svcRingDelayHopB : Fld := ⟨0x610, 32, 32, 1, 0, .ro, 0⟩
/-- SVC_RING_FRAMES, R293. -/
def Reg.svcRingFrames : Fld := ⟨0x618, 0, 48, 1, 0, .ro, 0⟩
/-- SVC_RING_ERR, R293. -/
def Reg.svcRingErr : Fld := ⟨0x620, 0, 32, 1, 0, .ro, 0⟩
/-- SVC_RING_WRAP, R293. -/
def Reg.svcRingWrap : Fld := ⟨0x628, 0, 1, 1, 0, .w1c, 0⟩

/-! OPT_ registers of R311. -/

/-- OPT_CSTAT.STATE, R311. -/
def Reg.optCstatState : Fld := ⟨0x200, 0, 2, 16, 32, .ro, 0⟩
/-- OPT_CSTAT.BUSY, R311. -/
def Reg.optCstatBusy : Fld := ⟨0x200, 2, 2, 16, 32, .ro, 0⟩
/-- OPT_CSTAT.ERR, R311. -/
def Reg.optCstatErr : Fld := ⟨0x200, 8, 8, 16, 32, .ro, 0⟩
/-- OPT_CSTAT.PART, R311. -/
def Reg.optCstatPart : Fld := ⟨0x200, 16, 6, 16, 32, .ro, 0⟩
/-- OPT_CSTAT.KIND, R311. -/
def Reg.optCstatKind : Fld := ⟨0x200, 24, 8, 16, 32, .ro, 0⟩
/-- OPT_CSTAT.SHARD, R311. -/
def Reg.optCstatShard : Fld := ⟨0x200, 32, 24, 16, 32, .ro, 0⟩
/-- OPT_CWAIT, R311. -/
def Reg.optCwait : Fld := ⟨0x208, 0, 48, 16, 32, .ro, 0⟩
/-- OPT_CDROP, R311. -/
def Reg.optCdrop : Fld := ⟨0x210, 0, 32, 16, 32, .ro, 0⟩
/-- OPT_CWRAP, R311. -/
def Reg.optCwrap : Fld := ⟨0x218, 0, 1, 16, 32, .w1c, 0⟩

/-! RTR_ registers of R312. -/

/-- RTR_QCOLL.EN, R312. -/
def Reg.rtrQcollEn : Fld := ⟨0xB00, 0, 1, 8, 8, .rw, 0⟩
/-- RTR_QCOLL.MARKER, R312. -/
def Reg.rtrQcollMarker : Fld := ⟨0xB00, 1, 1, 8, 8, .rw, 0⟩
/-- RTR_QCOLL.CTX, R312. -/
def Reg.rtrQcollCtx : Fld := ⟨0xB00, 2, 4, 8, 8, .rw, 0⟩
/-- RTR_QCOLL.RANGE_ERR, R312. -/
def Reg.rtrQcollRangeErr : Fld := ⟨0xB00, 6, 1, 8, 8, .w1c, 0⟩
/-- RTR_QCOLL.START, R312. -/
def Reg.rtrQcollStart : Fld := ⟨0xB00, 32, 32, 8, 8, .rw, 0⟩
/-- RTR_QCPOS.SENT, R312. -/
def Reg.rtrQcposSent : Fld := ⟨0xB40, 0, 48, 8, 8, .ro, 0⟩

/-! HUB_ registers of R331. -/

/-- HUB_ID.UNIT_TYPE, R331. -/
def Reg.hubIdUnitType : Fld := ⟨0, 0, 8, 1, 0, .ro, 0x40⟩
/-- HUB_ID.VERSION, R331. -/
def Reg.hubIdVersion : Fld := ⟨0, 16, 8, 1, 0, .ro, 1⟩
/-- HUB_CTRL.CLOG_EN, R331. -/
def Reg.hubCtrlClogEn : Fld := ⟨8, 0, 1, 1, 0, .rw, 0⟩
/-- HUB_CTRL.RSP_TMO, R331. -/
def Reg.hubCtrlRspTmo : Fld := ⟨8, 16, 16, 1, 0, .rw, 0x3E8⟩
/-- HUB_STATUS.COMPLETION_BACKPRESSURE, R331. -/
def Reg.hubStatusCompletionBackpressure : Fld := ⟨0x10, 0, 1, 1, 0, .ro, 0⟩
/-- HUB_STATUS.CLOG_ERR, R331. -/
def Reg.hubStatusClogErr : Fld := ⟨0x10, 1, 1, 1, 0, .w1c, 0⟩
/-- HUB_STATUS.BAR2_ERR, R331. -/
def Reg.hubStatusBar2Err : Fld := ⟨0x10, 2, 1, 1, 0, .w1c, 0⟩
/-- HUB_STATUS.IDE_ACTIVE, R331. -/
def Reg.hubStatusIdeActive : Fld := ⟨0x10, 3, 1, 1, 0, .ro, 0⟩
/-- HUB_STATUS.LINK_WIDTH, R331. -/
def Reg.hubStatusLinkWidth : Fld := ⟨0x10, 4, 5, 1, 0, .ro, 0⟩
/-- HUB_STATUS.LINK_RATE, R331. -/
def Reg.hubStatusLinkRate : Fld := ⟨0x10, 9, 3, 1, 0, .ro, 0⟩
/-- HUB_STATUS.PTM_VALID, R331. -/
def Reg.hubStatusPtmValid : Fld := ⟨0x10, 12, 1, 1, 0, .ro, 0⟩
/-- HUB_STATUS.WIN_ERR, R331. -/
def Reg.hubStatusWinErr : Fld := ⟨0x10, 13, 1, 1, 0, .w1c, 0⟩
/-- HUB_CLOG_BASE.BASE, R331. -/
def Reg.hubClogBaseBase : Fld := ⟨0x18, 12, 52, 1, 0, .rw, 0⟩
/-- HUB_CLOG_HEAD.HEAD, R331. -/
def Reg.hubClogHeadHead : Fld := ⟨0x20, 0, 32, 1, 0, .rw, 0⟩
/-- HUB_CLOG_TAIL.TAIL, R331. -/
def Reg.hubClogTailTail : Fld := ⟨0x28, 0, 32, 1, 0, .ro, 0⟩
/-- HUB_EVT_CFG.VEC, R331. -/
def Reg.hubEvtCfgVec : Fld := ⟨0x30, 0, 11, 1, 0, .rw, 1⟩
/-- HUB_NMI_STAT.NMI, R331. -/
def Reg.hubNmiStatNmi : Fld := ⟨0x38, 0, 3, 1, 0, .w1c, 0⟩
/-- HUB_BAR2_BASE.BASE, R331. -/
def Reg.hubBar2BaseBase : Fld := ⟨0x40, 0, 7, 1, 0, .rw, 0⟩
/-- HUB_CSR_WIN.FIELD, R331. -/
def Reg.hubCsrWinField : Fld := ⟨0x48, 0, 6, 1, 0, .rw, 0⟩
/-- HUB_CSR_WIN.POND, R331. -/
def Reg.hubCsrWinPond : Fld := ⟨0x48, 8, 9, 1, 0, .rw, 0⟩
/-- HUB_PTM_GT.GT, R331. -/
def Reg.hubPtmGtGt : Fld := ⟨0x60, 0, 64, 1, 0, .ro, 0⟩
/-- HUB_PTM_HOST.HOST, R331. -/
def Reg.hubPtmHostHost : Fld := ⟨0x68, 0, 64, 1, 0, .ro, 0⟩
/-- HUB_HWIN_BASE.BASE, R331. -/
def Reg.hubHwinBaseBase : Fld := ⟨0x100, 12, 52, 15, 16, .rw, 0⟩
/-- HUB_HWIN_SIZE.SIZE, R331. -/
def Reg.hubHwinSizeSize : Fld := ⟨0x108, 12, 32, 15, 16, .rw, 0⟩
/-- HUB_DMA_STAT.STATE, R331. -/
def Reg.hubDmaStatState : Fld := ⟨0x200, 0, 2, 8, 8, .ro, 0⟩
/-- HUB_DMA_STAT.QDEPTH, R331. -/
def Reg.hubDmaStatQdepth : Fld := ⟨0x200, 2, 11, 8, 8, .ro, 0⟩
/-- HUB_DMA_STAT.SLOT, R331. -/
def Reg.hubDmaStatSlot : Fld := ⟨0x200, 32, 10, 8, 8, .ro, 0⟩
/-- HUB_HSPR.COUNT, R331. -/
def Reg.hubHsprCount : Fld := ⟨0x400, 0, 32, 64, 8, .rw, 0⟩
/-- HUB_CMDS, R331. -/
def Reg.hubCmds : Fld := ⟨0x80, 0, 48, 1, 0, .ro, 0⟩
/-- HUB_REFUSED, R331. -/
def Reg.hubRefused : Fld := ⟨0x88, 0, 32, 1, 0, .ro, 0⟩
/-- HUB_DMA_IN, R331. -/
def Reg.hubDmaIn : Fld := ⟨0x90, 0, 48, 1, 0, .ro, 0⟩
/-- HUB_DMA_OUT, R331. -/
def Reg.hubDmaOut : Fld := ⟨0x98, 0, 48, 1, 0, .ro, 0⟩
/-- HUB_EVT_LOST, R331. -/
def Reg.hubEvtLost : Fld := ⟨0xA0, 0, 32, 1, 0, .ro, 0⟩
/-- HUB_SLOT_WR_IGN, R331. -/
def Reg.hubSlotWrIgn : Fld := ⟨0xA8, 0, 32, 1, 0, .ro, 0⟩
/-- HUB_WRAP, R331. -/
def Reg.hubWrap : Fld := ⟨0xB0, 0, 3, 1, 0, .w1c, 0⟩
/-- HUB_SLOT_WR_IGN.BAR2_DENY, R331. -/
def Reg.hubSlotWrIgnBar2Deny : Fld := ⟨0xA8, 32, 32, 1, 0, .ro, 0⟩

/-! SVC_ registers of R353. -/

/-- SVC_CLK_CTRL.AUTO_RETURN, R353. -/
def Reg.svcClkCtrlAutoReturn : Fld := ⟨0x700, 0, 1, 1, 0, .rw, 0⟩
/-- SVC_CLK_CTRL.RETURN, R353. -/
def Reg.svcClkCtrlReturn : Fld := ⟨0x700, 1, 1, 1, 0, .w1s, 0⟩
/-- SVC_CLK_STAT.SOURCE, R353. -/
def Reg.svcClkStatSource : Fld := ⟨0x708, 0, 1, 1, 0, .ro, 1⟩
/-- SVC_CLK_STAT.REFIN_OK, R353. -/
def Reg.svcClkStatRefinOk : Fld := ⟨0x708, 1, 1, 1, 0, .ro, 0⟩
/-- SVC_CLK_STAT.TRIM_SRC, R353. -/
def Reg.svcClkStatTrimSrc : Fld := ⟨0x708, 2, 2, 1, 0, .ro, 0⟩
/-- SVC_CLK_STAT.TRIMMED, R353. -/
def Reg.svcClkStatTrimmed : Fld := ⟨0x708, 4, 1, 1, 0, .ro, 0⟩
/-- SVC_CLK_STAT.RETURN_PENDING, R353. -/
def Reg.svcClkStatReturnPending : Fld := ⟨0x708, 5, 1, 1, 0, .ro, 0⟩
/-- SVC_CLK_STAT.LAST_FAIL, R353. -/
def Reg.svcClkStatLastFail : Fld := ⟨0x708, 6, 2, 1, 0, .w1c, 0⟩
/-- SVC_OSC_TRIM.TRIM, R353 (reset: "Stored trim"). -/
def Reg.svcOscTrimTrim : Fld := ⟨0x710, 0, 16, 1, 0, .ro, 0⟩
/-- SVC_OSC_TRIM.REF_DEV, R353. -/
def Reg.svcOscTrimRefDev : Fld := ⟨0x710, 32, 16, 1, 0, .ro, 0⟩
/-- SVC_TIME.TIME, R353. -/
def Reg.svcTimeTime : Fld := ⟨0x718, 0, 64, 1, 0, .ro, 0⟩
/-- SVC_TIME_STAT.STEPPED, R353. -/
def Reg.svcTimeStatStepped : Fld := ⟨0x720, 0, 1, 1, 0, .ro, 0⟩
/-- SVC_TIME_STAT.SLEWING, R353. -/
def Reg.svcTimeStatSlewing : Fld := ⟨0x720, 1, 1, 1, 0, .ro, 0⟩
/-- SVC_TIME_STAT.SHORT, R353. -/
def Reg.svcTimeStatShort : Fld := ⟨0x720, 2, 1, 1, 0, .ro, 0⟩
/-- SVC_TIME_STAT.OFFSET, R353. -/
def Reg.svcTimeStatOffset : Fld := ⟨0x720, 32, 32, 1, 0, .ro, 0⟩
/-- SVC_CLK_SWITCHES.TO_OSC, R353. -/
def Reg.svcClkSwitchesToOsc : Fld := ⟨0x728, 0, 32, 1, 0, .ro, 0⟩
/-- SVC_CLK_SWITCHES.TO_REF, R353. -/
def Reg.svcClkSwitchesToRef : Fld := ⟨0x728, 32, 32, 1, 0, .ro, 0⟩
/-- SVC_SLEW_BEATS, R353. -/
def Reg.svcSlewBeats : Fld := ⟨0x730, 0, 48, 1, 0, .ro, 0⟩
/-- SVC_CLK_WRAP, R353. -/
def Reg.svcClkWrap : Fld := ⟨0x738, 0, 1, 1, 0, .w1c, 0⟩

/-! LAKE_ registers of R354. -/

/-- LAKE_ID.UNIT_TYPE, R354. -/
def Reg.lakeIdUnitType : Fld := ⟨0, 0, 8, 1, 0, .ro, 0x50⟩
/-- LAKE_ID.LAKE, R354 (reset: "12·f + l"). -/
def Reg.lakeIdLake : Fld := ⟨0, 8, 10, 1, 0, .ro, 0⟩
/-- LAKE_ID.VERSION, R354. -/
def Reg.lakeIdVersion : Fld := ⟨0, 24, 8, 1, 0, .ro, 1⟩
/-- LAKE_CLK_STAT.N, R354. -/
def Reg.lakeClkStatN : Fld := ⟨8, 0, 5, 1, 0, .ro, 4⟩
/-- LAKE_CLK_STAT.TARGET, R354. -/
def Reg.lakeClkStatTarget : Fld := ⟨8, 8, 5, 1, 0, .ro, 4⟩
/-- LAKE_CLK_STAT.STATE, R354. -/
def Reg.lakeClkStatState : Fld := ⟨8, 16, 3, 1, 0, .ro, 2⟩
/-- LAKE_CLK_STAT.SEQ, R354. -/
def Reg.lakeClkStatSeq : Fld := ⟨8, 20, 2, 1, 0, .ro, 0⟩
/-- LAKE_CLK_STAT.PENDING, R354. -/
def Reg.lakeClkStatPending : Fld := ⟨8, 22, 1, 1, 0, .ro, 0⟩
/-- LAKE_CLK_STAT.DROOP, R354. -/
def Reg.lakeClkStatDroop : Fld := ⟨8, 23, 1, 1, 0, .ro, 0⟩
/-- LAKE_CLK_STAT.ALERT, R354. -/
def Reg.lakeClkStatAlert : Fld := ⟨8, 24, 1, 1, 0, .ro, 0⟩
/-- LAKE_CLK_STAT.SKEW_ALARM, R354. -/
def Reg.lakeClkStatSkewAlarm : Fld := ⟨8, 25, 1, 1, 0, .w1c, 0⟩
/-- LAKE_CLK_LIMIT.CEILING, R354. -/
def Reg.lakeClkLimitCeiling : Fld := ⟨0x10, 0, 5, 1, 0, .ro, 0x10⟩
/-- LAKE_CLK_LIMIT.GRANT, R354. -/
def Reg.lakeClkLimitGrant : Fld := ⟨0x10, 8, 5, 1, 0, .ro, 4⟩
/-- LAKE_CLK_LIMIT.THERM, R354. -/
def Reg.lakeClkLimitTherm : Fld := ⟨0x10, 16, 5, 1, 0, .ro, 0x14⟩
/-- LAKE_SLEEP.WARM_BEATS, R354. -/
def Reg.lakeSleepWarmBeats : Fld := ⟨0x18, 0, 16, 1, 0, .rw, 0x40⟩
/-- LAKE_SLEEP.COLD_US, R354. -/
def Reg.lakeSleepColdUs : Fld := ⟨0x18, 16, 20, 1, 0, .rw, 0x3E8⟩
/-- LAKE_VF.OFFSET, R354 (reset: "From calibration"). -/
def Reg.lakeVfOffset : Fld := ⟨0x20, 0, 8, 1, 0, .ro, 0⟩
/-- LAKE_VF.VOLT, R354. -/
def Reg.lakeVfVolt : Fld := ⟨0x20, 8, 10, 1, 0, .ro, 0x226⟩
/-- LAKE_VF.RAIL, R354. -/
def Reg.lakeVfRail : Fld := ⟨0x20, 18, 10, 1, 0, .ro, 0⟩
/-- LAKE_PHASE.TRIM, R354. -/
def Reg.lakePhaseTrim : Fld := ⟨0x28, 0, 10, 1, 0, .ro, 0⟩
/-- LAKE_PHASE.SKEW_N, R354. -/
def Reg.lakePhaseSkewN : Fld := ⟨0x28, 32, 8, 1, 0, .ro, 0⟩
/-- LAKE_PHASE.SKEW_E, R354. -/
def Reg.lakePhaseSkewE : Fld := ⟨0x28, 40, 8, 1, 0, .ro, 0⟩
/-- LAKE_PHASE.SKEW_S, R354. -/
def Reg.lakePhaseSkewS : Fld := ⟨0x28, 48, 8, 1, 0, .ro, 0⟩
/-- LAKE_PHASE.SKEW_W, R354. -/
def Reg.lakePhaseSkewW : Fld := ⟨0x28, 56, 8, 1, 0, .ro, 0⟩
/-- LAKE_WAKE_WARM, R354. -/
def Reg.lakeWakeWarm : Fld := ⟨0x80, 0, 48, 1, 0, .ro, 0⟩
/-- LAKE_WAKE_COLD, R354. -/
def Reg.lakeWakeCold : Fld := ⟨0x88, 0, 48, 1, 0, .ro, 0⟩
/-- LAKE_WAKE_WAIT, R354. -/
def Reg.lakeWakeWait : Fld := ⟨0x90, 0, 48, 1, 0, .ro, 0⟩
/-- LAKE_SLEEP_BEATS, R354. -/
def Reg.lakeSleepBeats : Fld := ⟨0x98, 0, 48, 1, 0, .ro, 0⟩
/-- LAKE_SWITCH, R354. -/
def Reg.lakeSwitch : Fld := ⟨0xA0, 0, 48, 1, 0, .ro, 0⟩
/-- LAKE_DROOP, R354. -/
def Reg.lakeDroop : Fld := ⟨0xA8, 0, 32, 1, 0, .ro, 0⟩
/-- LAKE_CLK_ERR, R354. -/
def Reg.lakeClkErr : Fld := ⟨0xB0, 0, 32, 1, 0, .ro, 0⟩
/-- LAKE_CLK_WRAP, R354. -/
def Reg.lakeClkWrap : Fld := ⟨0xB8, 0, 5, 1, 0, .w1c, 0⟩

/-! SVC_ registers of R369. -/

/-- SVC_PWR_CTRL.AUTO_ON, R369 (reset: "Stored; 1 when none"). -/
def Reg.svcPwrCtrlAutoOn : Fld := ⟨0x740, 0, 1, 1, 0, .rw, 1⟩
/-- SVC_PWR_CTRL.WAFER_OFF, R369. -/
def Reg.svcPwrCtrlWaferOff : Fld := ⟨0x740, 1, 1, 1, 0, .w1s, 0⟩
/-- SVC_PWR_STAT.STATE, R369. -/
def Reg.svcPwrStatState : Fld := ⟨0x748, 0, 3, 1, 0, .ro, 1⟩
/-- SVC_PWR_STAT.MAIN_OK, R369. -/
def Reg.svcPwrStatMainOk : Fld := ⟨0x748, 3, 1, 1, 0, .ro, 0⟩
/-- SVC_PWR_STAT.AUX_OK, R369. -/
def Reg.svcPwrStatAuxOk : Fld := ⟨0x748, 4, 1, 1, 0, .ro, 1⟩
/-- SVC_PWR_STAT.ALERT, R369. -/
def Reg.svcPwrStatAlert : Fld := ⟨0x748, 5, 1, 1, 0, .ro, 0⟩
/-- SVC_PWR_STAT.ALERT_EXT, R369. -/
def Reg.svcPwrStatAlertExt : Fld := ⟨0x748, 6, 1, 1, 0, .ro, 0⟩
/-- SVC_PWR_STAT.ALERT_INT, R369. -/
def Reg.svcPwrStatAlertInt : Fld := ⟨0x748, 7, 1, 1, 0, .ro, 0⟩
/-- SVC_PWR_STAT.MOD_READY, R369. -/
def Reg.svcPwrStatModReady : Fld := ⟨0x748, 8, 1, 1, 0, .ro, 0⟩
/-- SVC_PWR_STAT.LAST_OFF, R369. -/
def Reg.svcPwrStatLastOff : Fld := ⟨0x748, 12, 4, 1, 0, .ro, 0⟩
/-- SVC_PWR_MEAS.MAIN_V, R369. -/
def Reg.svcPwrMeasMainV : Fld := ⟨0x750, 0, 16, 1, 0, .ro, 0⟩
/-- SVC_PWR_MEAS.AUX_V, R369. -/
def Reg.svcPwrMeasAuxV : Fld := ⟨0x750, 16, 16, 1, 0, .ro, 0⟩
/-- SVC_PWR_MEAS.MAIN_W, R369. -/
def Reg.svcPwrMeasMainW : Fld := ⟨0x750, 32, 16, 1, 0, .ro, 0⟩
/-- SVC_ALERT_SRC.LAKE, R369. -/
def Reg.svcAlertSrcLake : Fld := ⟨0x758, 0, 10, 1, 0, .ro, 0x3FF⟩
/-- SVC_ALERT_SRC.FIELD, R369. -/
def Reg.svcAlertSrcField : Fld := ⟨0x758, 10, 6, 1, 0, .ro, 0x3F⟩
/-- SVC_ALERT_SRC.EXT, R369. -/
def Reg.svcAlertSrcExt : Fld := ⟨0x758, 16, 1, 1, 0, .ro, 0⟩
/-- SVC_ALERT_SRC.LAKE_SEEN, R369. -/
def Reg.svcAlertSrcLakeSeen : Fld := ⟨0x758, 17, 1, 1, 0, .ro, 0⟩
/-- SVC_ALERT_SRC.FIELD_SEEN, R369. -/
def Reg.svcAlertSrcFieldSeen : Fld := ⟨0x758, 18, 1, 1, 0, .ro, 0⟩
/-- SVC_ALERT_SRC.MAIN_UV, R369. -/
def Reg.svcAlertSrcMainUv : Fld := ⟨0x758, 19, 1, 1, 0, .ro, 0⟩
/-- SVC_ALERTS, R369. -/
def Reg.svcAlerts : Fld := ⟨0x760, 0, 32, 1, 0, .ro, 0⟩
/-- SVC_ALERT_BEATS, R369. -/
def Reg.svcAlertBeats : Fld := ⟨0x768, 0, 48, 1, 0, .ro, 0⟩
/-- SVC_PWR_WRAP, R369. -/
def Reg.svcPwrWrap : Fld := ⟨0x770, 0, 1, 1, 0, .w1c, 0⟩

/-! SVC_ registers of R387. -/

/-- SVC_CAP_CTRL.CAP_W, R387. -/
def Reg.svcCapCtrlCapW : Fld := ⟨0x780, 0, 16, 1, 0, .rw, 0x55F0⟩
/-- SVC_CAP_CTRL.SLOPE, R387. -/
def Reg.svcCapCtrlSlope : Fld := ⟨0x780, 16, 9, 1, 0, .rw, 0x1F4⟩
/-- SVC_CAP_STAT.ALLOW_W, R387. -/
def Reg.svcCapStatAllowW : Fld := ⟨0x788, 0, 16, 1, 0, .ro, 0⟩
/-- SVC_CAP_STAT.MEM_LIMIT, R387. -/
def Reg.svcCapStatMemLimit : Fld := ⟨0x788, 16, 7, 1, 0, .ro, 0x64⟩
/-- SVC_CAP_STAT.PRIO, R387. -/
def Reg.svcCapStatPrio : Fld := ⟨0x788, 24, 3, 1, 0, .ro, 7⟩
/-- SVC_CAP_STAT.CAPPED, R387. -/
def Reg.svcCapStatCapped : Fld := ⟨0x788, 27, 1, 1, 0, .ro, 0⟩
/-- SVC_CAP_STAT.TRIM_W, R387. -/
def Reg.svcCapStatTrimW : Fld := ⟨0x788, 32, 16, 1, 0, .ro, 0⟩
/-- SVC_CAP_MEAS.LINKS_W, R387. -/
def Reg.svcCapMeasLinksW : Fld := ⟨0x790, 0, 16, 1, 0, .ro, 0⟩
/-- SVC_CAP_MEAS.MEM_W, R387. -/
def Reg.svcCapMeasMemW : Fld := ⟨0x790, 16, 16, 1, 0, .ro, 0⟩
/-- SVC_CAP_MEAS.COMPUTE_W, R387. -/
def Reg.svcCapMeasComputeW : Fld := ⟨0x790, 32, 16, 1, 0, .ro, 0⟩
/-- SVC_CAP_MEAS.LOSS_W, R387. -/
def Reg.svcCapMeasLossW : Fld := ⟨0x790, 48, 16, 1, 0, .ro, 0⟩
/-- SVC_CAPPED_US, R387. -/
def Reg.svcCappedUs : Fld := ⟨0x798, 0, 48, 1, 0, .ro, 0⟩
/-- SVC_SLOPE_WAIT, R387. -/
def Reg.svcSlopeWait : Fld := ⟨0x7A0, 0, 48, 1, 0, .ro, 0⟩
/-- SVC_CAP_WRAP, R387. -/
def Reg.svcCapWrap : Fld := ⟨0x7A8, 0, 2, 1, 0, .w1c, 0⟩

/-! LAKE_ registers of R388. -/

/-- LAKE_THERM.TEMP, R388. -/
def Reg.lakeThermTemp : Fld := ⟨0x100, 0, 10, 1, 0, .ro, 0⟩
/-- LAKE_THERM.STATE, R388. -/
def Reg.lakeThermState : Fld := ⟨0x100, 10, 2, 1, 0, .ro, 0⟩
/-- LAKE_THERM.SENS_OK, R388 (reset: "From map"). -/
def Reg.lakeThermSensOk : Fld := ⟨0x100, 12, 4, 1, 0, .ro, 0⟩
/-- LAKE_THERM.EST, R388. -/
def Reg.lakeThermEst : Fld := ⟨0x100, 16, 1, 1, 0, .ro, 0⟩
/-- LAKE_TSENS.S0, R388. -/
def Reg.lakeTsensS0 : Fld := ⟨0x108, 0, 10, 1, 0, .ro, 0⟩
/-- LAKE_TSENS.S1, R388. -/
def Reg.lakeTsensS1 : Fld := ⟨0x108, 16, 10, 1, 0, .ro, 0⟩
/-- LAKE_TSENS.S2, R388. -/
def Reg.lakeTsensS2 : Fld := ⟨0x108, 32, 10, 1, 0, .ro, 0⟩
/-- LAKE_TSENS.S3, R388. -/
def Reg.lakeTsensS3 : Fld := ⟨0x108, 48, 10, 1, 0, .ro, 0⟩
/-- LAKE_PWR.POWER, R388. -/
def Reg.lakePwrPower : Fld := ⟨0x110, 0, 12, 1, 0, .ro, 0⟩
/-- LAKE_PWR.PRIO, R388. -/
def Reg.lakePwrPrio : Fld := ⟨0x110, 16, 3, 1, 0, .ro, 7⟩
/-- LAKE_PWR.LEAK, R388 (reset: "From calibration"). -/
def Reg.lakePwrLeak : Fld := ⟨0x110, 32, 12, 1, 0, .ro, 0⟩
/-- LAKE_WARM_BEATS, R388. -/
def Reg.lakeWarmBeats : Fld := ⟨0x180, 0, 48, 1, 0, .ro, 0⟩
/-- LAKE_HOT_BEATS, R388. -/
def Reg.lakeHotBeats : Fld := ⟨0x188, 0, 48, 1, 0, .ro, 0⟩
/-- LAKE_SLEW_HOLD, R388. -/
def Reg.lakeSlewHold : Fld := ⟨0x190, 0, 48, 1, 0, .ro, 0⟩
/-- LAKE_SHUTS, R388. -/
def Reg.lakeShuts : Fld := ⟨0x198, 0, 32, 1, 0, .ro, 0⟩
/-- LAKE_PWR_WRAP, R388. -/
def Reg.lakePwrWrap : Fld := ⟨0x1A0, 0, 3, 1, 0, .w1c, 0⟩

/-! PWR_ registers of R389. -/

/-- PWR_ID.UNIT_TYPE, R389. -/
def Reg.pwrIdUnitType : Fld := ⟨0, 0, 8, 1, 0, .ro, 0x60⟩
/-- PWR_ID.VERSION, R389. -/
def Reg.pwrIdVersion : Fld := ⟨0, 16, 8, 1, 0, .ro, 1⟩
/-- PWR_BUS.VOLT, R389. -/
def Reg.pwrBusVolt : Fld := ⟨8, 0, 16, 1, 0, .ro, 0⟩
/-- PWR_BUS.AMPS, R389. -/
def Reg.pwrBusAmps : Fld := ⟨8, 16, 16, 1, 0, .ro, 0⟩
/-- PWR_BUS.CONV_TEMP, R389. -/
def Reg.pwrBusConvTemp : Fld := ⟨8, 32, 16, 1, 0, .ro, 0⟩
/-- PWR_RAILS.STRIP, R389. -/
def Reg.pwrRailsStrip : Fld := ⟨0x10, 0, 1, 1, 0, .ro, 0⟩
/-- PWR_RAILS.SRAM, R389. -/
def Reg.pwrRailsSram : Fld := ⟨0x10, 1, 1, 1, 0, .ro, 0⟩
/-- PWR_RAILS.DRAM_CORE, R389. -/
def Reg.pwrRailsDramCore : Fld := ⟨0x10, 2, 1, 1, 0, .ro, 0⟩
/-- PWR_RAILS.DRAM_WL, R389. -/
def Reg.pwrRailsDramWl : Fld := ⟨0x10, 3, 1, 1, 0, .ro, 0⟩
/-- PWR_RAILS.OPT, R389. -/
def Reg.pwrRailsOpt : Fld := ⟨0x10, 4, 2, 1, 0, .ro, 0⟩
/-- PWR_ALERTS.FIELD, R389. -/
def Reg.pwrAlertsField : Fld := ⟨0x18, 0, 32, 1, 0, .ro, 0⟩
/-- PWR_LAKE.VOLT, R389. -/
def Reg.pwrLakeVolt : Fld := ⟨0x100, 0, 10, 12, 8, .ro, 0⟩
/-- PWR_LAKE.AMPS, R389. -/
def Reg.pwrLakeAmps : Fld := ⟨0x100, 10, 15, 12, 8, .ro, 0⟩
/-- PWR_LAKE.PH_TEMP, R389. -/
def Reg.pwrLakePhTemp : Fld := ⟨0x100, 25, 10, 12, 8, .ro, 0⟩
/-- PWR_LAKE.ENABLED, R389. -/
def Reg.pwrLakeEnabled : Fld := ⟨0x100, 35, 1, 12, 8, .ro, 0⟩
/-- PWR_LAKE.ALERTS_1H, R389. -/
def Reg.pwrLakeAlerts1h : Fld := ⟨0x100, 36, 12, 12, 8, .ro, 0⟩

/-! FLD_ registers of R412. -/

/-- FLD_ELOG_STAT.WRITTEN, R412. -/
def Reg.fldElogStatWritten : Fld := ⟨0x100, 0, 32, 1, 0, .ro, 0⟩
/-- FLD_ELOG_STAT.LOST, R412. -/
def Reg.fldElogStatLost : Fld := ⟨0x100, 32, 32, 1, 0, .ro, 0⟩
/-- FLD_ELOG_SUPP.SUPPRESSED, R412. -/
def Reg.fldElogSuppSuppressed : Fld := ⟨0x108, 0, 32, 1, 0, .ro, 0⟩
/-- FLD_SUPV.ADOPTING, R412. -/
def Reg.fldSupvAdopting : Fld := ⟨0x110, 0, 1, 1, 0, .ro, 0⟩
/-- FLD_SUPV.ADOPTED, R412. -/
def Reg.fldSupvAdopted : Fld := ⟨0x110, 1, 1, 1, 0, .ro, 0⟩
/-- FLD_OPAL_CFG.EN, R412. -/
def Reg.fldOpalCfgEn : Fld := ⟨0x118, 0, 1, 1, 0, .rw, 1⟩
/-- FLD_OPAL_CFG.FORCE_EN, R412. -/
def Reg.fldOpalCfgForceEn : Fld := ⟨0x118, 1, 1, 1, 0, .rw, 1⟩
/-- FLD_OPAL_AGE.MAX_MVA, R412. -/
def Reg.fldOpalAgeMaxMva : Fld := ⟨0x120, 0, 16, 1, 0, .ro, 0⟩
/-- FLD_OPAL_AGE.MAX_S, R412. -/
def Reg.fldOpalAgeMaxS : Fld := ⟨0x120, 16, 16, 1, 0, .ro, 0⟩
/-- FLD_OPAL_AGE.POND, R412. -/
def Reg.fldOpalAgePond : Fld := ⟨0x120, 32, 9, 1, 0, .ro, 0⟩
/-- FLD_OPAL_AGE.TILE, R412. -/
def Reg.fldOpalAgeTile : Fld := ⟨0x120, 41, 4, 1, 0, .ro, 0⟩
/-- FLD_OPAL_PASS, R412. -/
def Reg.fldOpalPass : Fld := ⟨0x128, 0, 48, 1, 0, .ro, 0⟩
/-- FLD_OPAL_ABORT, R412. -/
def Reg.fldOpalAbort : Fld := ⟨0x130, 0, 48, 1, 0, .ro, 0⟩
/-- FLD_OPAL_FORCED, R412. -/
def Reg.fldOpalForced : Fld := ⟨0x138, 0, 48, 1, 0, .ro, 0⟩
/-- FLD_OPAL_FAIL, R412. -/
def Reg.fldOpalFail : Fld := ⟨0x140, 0, 32, 1, 0, .ro, 0⟩
/-- FLD_OPAL_WRAP, R412. -/
def Reg.fldOpalWrap : Fld := ⟨0x148, 0, 3, 1, 0, .w1c, 0⟩

/-! SVC_ registers of R413. -/

/-- SVC_MLOG_STAT.WRITTEN, R413 (reset: "Stored"). -/
def Reg.svcMlogStatWritten : Fld := ⟨0x7C0, 0, 32, 1, 0, .ro, 0⟩
/-- SVC_MLOG_STAT.LOST, R413 (reset: "Stored"). -/
def Reg.svcMlogStatLost : Fld := ⟨0x7C0, 32, 32, 1, 0, .ro, 0⟩
/-- SVC_MLOG_IDX.IDX, R413. -/
def Reg.svcMlogIdxIdx : Fld := ⟨0x7C8, 0, 16, 1, 0, .rw, 0⟩
/-- SVC_MLOG_DATA.DATA, R413. -/
def Reg.svcMlogDataData : Fld := ⟨0x7D0, 0, 64, 4, 8, .ro, 0⟩
/-- SVC_FAULT_CFG.LIMIT, R413. -/
def Reg.svcFaultCfgLimit : Fld := ⟨0x7F0, 0, 8, 1, 0, .rw, 3⟩
/-- SVC_FAULT_CFG.AUTO_RESUME, R413. -/
def Reg.svcFaultCfgAutoResume : Fld := ⟨0x7F0, 8, 1, 1, 0, .rw, 1⟩

/-! POND_ registers of R435. -/

/-- POND_RST_CTRL.COLD, R435. -/
def Reg.pondRstCtrlCold : Fld := ⟨0x380, 0, 1, 1, 0, .w1s, 0⟩
/-- POND_RST_CTRL.TILE, R435. -/
def Reg.pondRstCtrlTile : Fld := ⟨0x380, 16, 16, 1, 0, .w1s, 0⟩
/-- POND_RST_STAT.STATE, R435. -/
def Reg.pondRstStatState : Fld := ⟨0x388, 0, 3, 1, 0, .ro, 0⟩
/-- POND_RST_STAT.SPE, R435. -/
def Reg.pondRstStatSpe : Fld := ⟨0x388, 3, 1, 1, 0, .ro, 0⟩
/-- POND_RST_STAT.ATTRIBUTED, R435. -/
def Reg.pondRstStatAttributed : Fld := ⟨0x388, 4, 1, 1, 0, .ro, 0⟩
/-- POND_RST_STAT.CFG_WR_IGN, R435. -/
def Reg.pondRstStatCfgWrIgn : Fld := ⟨0x388, 5, 1, 1, 0, .w1c, 0⟩
/-- POND_RST_STAT.TEST_AGE, R435. -/
def Reg.pondRstStatTestAge : Fld := ⟨0x388, 32, 32, 1, 0, .ro, 0xFFFFFFFF⟩
/-- POND_RST_ABSORB, R435. -/
def Reg.pondRstAbsorb : Fld := ⟨0x390, 0, 48, 1, 0, .ro, 0⟩
/-- POND_RST_DISCARD, R435. -/
def Reg.pondRstDiscard : Fld := ⟨0x398, 0, 32, 1, 0, .ro, 0⟩
/-- POND_RST_WRAP, R435. -/
def Reg.pondRstWrap : Fld := ⟨0x3A0, 0, 1, 1, 0, .w1c, 0⟩
/-- POND_BC_CFG.OBJECT, R435. -/
def Reg.pondBcCfgObject : Fld := ⟨0x3A8, 0, 32, 1, 0, .rw, 0⟩
/-- POND_BC_CFG.CHUNKS, R435. -/
def Reg.pondBcCfgChunks : Fld := ⟨0x3A8, 32, 13, 1, 0, .rw, 0⟩
/-- POND_BC_CFG.UNIT, R435. -/
def Reg.pondBcCfgUnit : Fld := ⟨0x3A8, 45, 5, 1, 0, .rw, 0⟩
/-- POND_BC_CFG.ACTIVE, R435. -/
def Reg.pondBcCfgActive : Fld := ⟨0x3A8, 50, 1, 1, 0, .rw, 0⟩
/-- POND_BC_CFG.BASE, R435. -/
def Reg.pondBcCfgBase : Fld := ⟨0x3A8, 51, 13, 1, 0, .rw, 0⟩
/-- POND_BC_STAT.MISSING, R435. -/
def Reg.pondBcStatMissing : Fld := ⟨0x3B0, 0, 13, 1, 0, .ro, 0⟩
/-- POND_BC_STAT.DIGEST_OK, R435. -/
def Reg.pondBcStatDigestOk : Fld := ⟨0x3B0, 13, 1, 1, 0, .ro, 0⟩
/-- POND_BC_STAT.DIGEST_BAD, R435. -/
def Reg.pondBcStatDigestBad : Fld := ⟨0x3B0, 14, 1, 1, 0, .w1c, 0⟩
/-- POND_BC_DIGEST.DIGEST, R435. -/
def Reg.pondBcDigestDigest : Fld := ⟨0x3C0, 0, 64, 4, 8, .rw, 0⟩
/-- POND_BC_MISS, R435. -/
def Reg.pondBcMiss : Fld := ⟨0x400, 0, 64, 64, 8, .ro, 0⟩

/-! SVC_ registers of R436. -/

/-- SVC_BRINGUP_STAT.PATH, R436. -/
def Reg.svcBringupStatPath : Fld := ⟨0x640, 0, 2, 1, 0, .ro, 0⟩
/-- SVC_BRINGUP_STAT.STEP, R436. -/
def Reg.svcBringupStatStep : Fld := ⟨0x640, 2, 4, 1, 0, .ro, 0⟩
/-- SVC_BRINGUP_STAT.LAST_WARM, R436. -/
def Reg.svcBringupStatLastWarm : Fld := ⟨0x640, 6, 1, 1, 0, .ro, 0⟩
/-- SVC_BRINGUP_STAT.LAST_MS, R436. -/
def Reg.svcBringupStatLastMs : Fld := ⟨0x640, 32, 32, 1, 0, .ro, 0⟩
/-- SVC_PART_SEL.PART, R436. -/
def Reg.svcPartSelPart : Fld := ⟨0x648, 0, 6, 1, 0, .rw, 0⟩
/-- SVC_PART_STAT.STATE, R436. -/
def Reg.svcPartStatState : Fld := ⟨0x650, 0, 4, 1, 0, .ro, 0⟩
/-- SVC_PART_STAT.SPE, R436. -/
def Reg.svcPartStatSpe : Fld := ⟨0x650, 4, 1, 1, 0, .ro, 0⟩
/-- SVC_PART_STAT.COLD_PATH, R436. -/
def Reg.svcPartStatColdPath : Fld := ⟨0x650, 5, 1, 1, 0, .ro, 0⟩
/-- SVC_PART_STAT.STEP, R436. -/
def Reg.svcPartStatStep : Fld := ⟨0x650, 32, 32, 1, 0, .ro, 0⟩

/-! LAKE_ registers of R436. -/

/-- LAKE_RST_STAT.SPE, R436. -/
def Reg.lakeRstStatSpe : Fld := ⟨0x30, 0, 1, 1, 0, .ro, 0⟩
/-- LAKE_RST_STAT.RETURNING, R436. -/
def Reg.lakeRstStatReturning : Fld := ⟨0x30, 1, 1, 1, 0, .ro, 0⟩

/-! OPT_ registers of R436. -/

/-- OPT_PSPE.SPE, R436. -/
def Reg.optPspeSpe : Fld := ⟨0x28, 0, 4, 1, 0, .ro, 0⟩

/-! FLD_ registers of R436. -/

/-- FLD_BC_STAT.OBJECT, R436. -/
def Reg.fldBcStatObject : Fld := ⟨0x180, 0, 32, 1, 0, .ro, 0⟩
/-- FLD_BC_STAT.ROUNDS, R436. -/
def Reg.fldBcStatRounds : Fld := ⟨0x180, 32, 4, 1, 0, .ro, 0⟩
/-- FLD_BC_STAT.UNICAST, R436. -/
def Reg.fldBcStatUnicast : Fld := ⟨0x180, 36, 12, 1, 0, .ro, 0⟩
/-- FLD_BC_STAT.FAILED, R436. -/
def Reg.fldBcStatFailed : Fld := ⟨0x180, 48, 16, 1, 0, .ro, 0⟩

/-! SVC_ registers of R454. -/

/-- SVC_TRUST_STAT.KEY_ENROLLED, R454 (reset: "From OTP"). -/
def Reg.svcTrustStatKeyEnrolled : Fld := ⟨0x800, 0, 1, 1, 0, .ro, 0⟩
/-- SVC_TRUST_STAT.SESSION, R454. -/
def Reg.svcTrustStatSession : Fld := ⟨0x800, 1, 1, 1, 0, .ro, 0⟩
/-- SVC_TRUST_STAT.BUSY, R454. -/
def Reg.svcTrustStatBusy : Fld := ⟨0x800, 2, 1, 1, 0, .ro, 0⟩
/-- SVC_FW_STAT.RUNNING, R454 (reset: "By boot"). -/
def Reg.svcFwStatRunning : Fld := ⟨0x808, 0, 1, 1, 0, .ro, 0⟩
/-- SVC_FW_STAT.ACTIVE, R454 (reset: "From flash"). -/
def Reg.svcFwStatActive : Fld := ⟨0x808, 1, 1, 1, 0, .ro, 0⟩
/-- SVC_FW_STAT.TRIAL_SET, R454 (reset: "From flash"). -/
def Reg.svcFwStatTrialSet : Fld := ⟨0x808, 2, 1, 1, 0, .ro, 0⟩
/-- SVC_FW_STAT.RECOVERY, R454. -/
def Reg.svcFwStatRecovery : Fld := ⟨0x808, 3, 1, 1, 0, .ro, 0⟩
/-- SVC_FW_STAT.TRIAL_FAILED, R454. -/
def Reg.svcFwStatTrialFailed : Fld := ⟨0x808, 4, 1, 1, 0, .w1c, 0⟩
/-- SVC_FW_STAT.SVN, R454 (reset: "By boot"). -/
def Reg.svcFwStatSvn : Fld := ⟨0x808, 8, 7, 1, 0, .ro, 0⟩
/-- SVC_FW_STAT.C, R454 (reset: "From OTP"). -/
def Reg.svcFwStatC : Fld := ⟨0x808, 16, 7, 1, 0, .ro, 0⟩
/-- SVC_LIC_EFF.FEATURES, R454. -/
def Reg.svcLicEffFeatures : Fld := ⟨0x810, 0, 5, 1, 0, .ro, 0⟩
/-- SVC_LIC_SLOT.FEATURES, R454 (reset: "From flash"). -/
def Reg.svcLicSlotFeatures : Fld := ⟨0x840, 0, 5, 16, 8, .ro, 0⟩
/-- SVC_LIC_SLOT.USED, R454 (reset: "From flash"). -/
def Reg.svcLicSlotUsed : Fld := ⟨0x840, 5, 1, 16, 8, .ro, 0⟩
/-- SVC_LIC_SLOT.BAD, R454. -/
def Reg.svcLicSlotBad : Fld := ⟨0x840, 6, 1, 16, 8, .ro, 0⟩
/-- SVC_LIC_SLOT.ISSUE, R454 (reset: "From flash"). -/
def Reg.svcLicSlotIssue : Fld := ⟨0x840, 32, 32, 16, 8, .ro, 0⟩

/-! SVC_ registers of R466. -/

/-- SVC_TELEM_CTRL.EN, R466. -/
def Reg.svcTelemCtrlEn : Fld := ⟨0x900, 0, 1, 1, 0, .rw, 1⟩
/-- SVC_TELEM_CTRL.PERIOD_S, R466. -/
def Reg.svcTelemCtrlPeriodS : Fld := ⟨0x900, 1, 12, 1, 0, .rw, 0xE10⟩
/-- SVC_TELEM_STAT.SWEEPS, R466. -/
def Reg.svcTelemStatSweeps : Fld := ⟨0x908, 0, 32, 1, 0, .ro, 0⟩
/-- SVC_TELEM_STAT.INEXACT, R466. -/
def Reg.svcTelemStatInexact : Fld := ⟨0x908, 32, 32, 1, 0, .ro, 0⟩
/-- SVC_TELEM_LAST.TIME, R466. -/
def Reg.svcTelemLastTime : Fld := ⟨0x910, 0, 64, 1, 0, .ro, 0⟩
/-- SVC_TELEM_SEL.ADDR, R466. -/
def Reg.svcTelemSelAddr : Fld := ⟨0x918, 0, 58, 1, 0, .rw, 0⟩
/-- SVC_TELEM_TOTAL.TOTAL, R466. -/
def Reg.svcTelemTotalTotal : Fld := ⟨0x920, 0, 64, 1, 0, .ro, 0⟩
/-- SVC_TELEM_FLAGS.VALID, R466. -/
def Reg.svcTelemFlagsValid : Fld := ⟨0x928, 0, 1, 1, 0, .ro, 0⟩
/-- SVC_TELEM_FLAGS.INEXACT, R466. -/
def Reg.svcTelemFlagsInexact : Fld := ⟨0x928, 1, 1, 1, 0, .ro, 0⟩
/-- SVC_TELEM_FLAGS.SATURATED, R466. -/
def Reg.svcTelemFlagsSaturated : Fld := ⟨0x928, 2, 1, 1, 0, .ro, 0⟩
/-- SVC_TELEM_FLAGS.WRAPS, R466. -/
def Reg.svcTelemFlagsWraps : Fld := ⟨0x928, 32, 32, 1, 0, .ro, 0⟩
/-- SVC_TELEM_WR_IGN.COUNT, R466. -/
def Reg.svcTelemWrIgnCount : Fld := ⟨0x930, 0, 32, 1, 0, .ro, 0⟩
/-- SVC_TELEM_RAW.RAW, R466. -/
def Reg.svcTelemRawRaw : Fld := ⟨0x938, 0, 48, 1, 0, .ro, 0⟩

/-! SVC_ registers of R490. -/

/-- SVC_MOD_STAT.COOL_IN, R490. -/
def Reg.svcModStatCoolIn : Fld := ⟨0x940, 0, 10, 1, 0, .ro, 0⟩
/-- SVC_MOD_STAT.COOL_OUT, R490. -/
def Reg.svcModStatCoolOut : Fld := ⟨0x940, 16, 10, 1, 0, .ro, 0⟩
/-- SVC_MOD_STAT.COOL_WARN, R490. -/
def Reg.svcModStatCoolWarn : Fld := ⟨0x940, 32, 1, 1, 0, .ro, 0⟩
/-- SVC_MOD_STAT.SUPPLY_SEATED, R490. -/
def Reg.svcModStatSupplySeated : Fld := ⟨0x940, 33, 1, 1, 0, .ro, 0⟩
/-- SVC_MOD_STAT.SMB_ADDR, R490 (reset: "From pins"). -/
def Reg.svcModStatSmbAddr : Fld := ⟨0x940, 34, 3, 1, 0, .ro, 0⟩
/-- SVC_MOD_CFG.DT_LIMIT, R490 (reset: "Stored; 25 when none"). -/
def Reg.svcModCfgDtLimit : Fld := ⟨0x948, 0, 8, 1, 0, .rw, 0x19⟩
/-- SVC_MOD_CFG.OUT_LIMIT, R490 (reset: "Stored; 60 when none"). -/
def Reg.svcModCfgOutLimit : Fld := ⟨0x948, 8, 8, 1, 0, .rw, 0x3C⟩
/-- SVC_MOD_CFG.SMB_OFF_EN, R490 (reset: "Stored; 0 when none"). -/
def Reg.svcModCfgSmbOffEn : Fld := ⟨0x948, 16, 1, 1, 0, .rw, 0⟩
/-- SVC_COOL_WARNS, R490. -/
def Reg.svcCoolWarns : Fld := ⟨0x950, 0, 32, 1, 0, .ro, 0⟩

/-- Fields of the MCORE_ group, in offset order (part 0). -/
def Reg.mcoreFields0 : List Fld :=
  [Reg.mcoreIdUnitType, Reg.mcoreIdPos, Reg.mcoreIdVersion,
   Reg.mcoreCtrlRun, Reg.mcoreCtrlMode, Reg.mcoreCtrlDrain,
   Reg.mcoreCtrlGateRelease, Reg.mcoreCfgChkEn, Reg.mcoreCfgAFmt,
   Reg.mcoreCfgBFmt, Reg.mcoreCfgOutFmt, Reg.mcoreCfgRnd,
   Reg.mcoreCfgSat, Reg.mcoreCfgActEn, Reg.mcoreCfgBiasEn,
   Reg.mcoreCfgEwOp, Reg.mcoreCfgSegGroups, Reg.mcoreShapeRowK,
   Reg.mcoreShapeNcols, Reg.mcoreGateDeadline, Reg.mcoreGateDemand,
   Reg.mcoreGateBufBase, Reg.mcoreGateBufSize, Reg.mcoreWringBase]
/-- Fields of the MCORE_ group, in offset order (part 1). -/
def Reg.mcoreFields1 : List Fld :=
  [Reg.mcoreWringSize, Reg.mcoreWringSpring, Reg.mcoreWringSigEn,
   Reg.mcoreWringResident, Reg.mcoreWringRelRel, Reg.mcoreEpiBaseBase,
   Reg.mcoreSeedSeed, Reg.mcoreArrayLive, Reg.mcoreArrayRetiredChk,
   Reg.mcoreArrayRetiredMap, Reg.mcoreStatusBusy, Reg.mcoreStatusModePending,
   Reg.mcoreStatusCfgWrIgn, Reg.mcoreStatusRecompute, Reg.mcoreStatusPoison,
   Reg.mcoreStatusNoArray, Reg.mcoreGateStatFill, Reg.mcoreGateStatAge,
   Reg.mcoreChkLastArray, Reg.mcoreChkLastOutcome, Reg.mcoreChkLastFailMask,
   Reg.mcoreChkLastNonfinite, Reg.mcoreChkLastSet, Reg.mcoreChkTimeTime]
/-- Fields of the MCORE_ group, in offset order (part 2). -/
def Reg.mcoreFields2 : List Fld :=
  [Reg.mcoreSparseRecEn, Reg.mcoreSparseRowBm, Reg.mcoreSparsePredEn,
   Reg.mcoreSparseMetaErr, Reg.mcorePredThrMissThr, Reg.mcoreStallIn,
   Reg.mcoreStallOut, Reg.mcoreStallGate, Reg.mcoreTiles,
   Reg.mcoreMasked, Reg.mcoreChkMismatch, Reg.mcoreChkSkip,
   Reg.mcoreWrap, Reg.mcoreSpWin, Reg.mcoreSpCyc,
   Reg.mcoreSpSkip, Reg.mcoreMetaErr, Reg.mcorePredMiss,
   Reg.mcoreSpWrap, Reg.mcoreActTableSlope, Reg.mcoreActTableIntercept]
/-- Every field of the MCORE_ group. -/
def Reg.mcoreFields : List Fld :=
  Reg.mcoreFields0 ++ Reg.mcoreFields1 ++ Reg.mcoreFields2

/-- Fields of the VCORE_ group, in offset order (part 0). -/
def Reg.vcoreFields0 : List Fld :=
  [Reg.vcoreIdUnitType, Reg.vcoreIdPos, Reg.vcoreIdVersion,
   Reg.vcoreCtrlRun, Reg.vcoreCtrlDrain, Reg.vcoreCtrlSet,
   Reg.vcoreCfgInFmt, Reg.vcoreCfgOutFmt, Reg.vcoreCfgRnd,
   Reg.vcoreCfgSat, Reg.vcoreCfgQclip, Reg.vcoreCfgOutPred,
   Reg.vcoreCfgSelect, Reg.vcoreCfgSelOut, Reg.vcoreCfgRowb,
   Reg.vcoreSelThresh, Reg.vcoreSelGuard, Reg.vcoreSelSelbuf,
   Reg.vcoreSeedSeed, Reg.vcoreFtabBase, Reg.vcoreGathBase,
   Reg.vcoreGathSpace, Reg.vcoreGathEsize, Reg.vcoreStatusBusy]
/-- Fields of the VCORE_ group, in offset order (part 1). -/
def Reg.vcoreFields1 : List Fld :=
  [Reg.vcoreStatusSetPending, Reg.vcoreStatusCfgWrIgn, Reg.vcoreStatusGathErr,
   Reg.vcoreStageOp, Reg.vcoreStageFmt, Reg.vcoreStageSrcA,
   Reg.vcoreStageSrcB, Reg.vcoreStageSrcC, Reg.vcoreStageCidx,
   Reg.vcoreStageNum, Reg.vcoreStageSub, Reg.vcoreStagePsel,
   Reg.vcoreStageGuard, Reg.vcoreConst, Reg.vcoreElems,
   Reg.vcoreStallIn, Reg.vcoreStallOut, Reg.vcoreStallGath,
   Reg.vcoreWrap]
/-- Every field of the VCORE_ group. -/
def Reg.vcoreFields : List Fld :=
  Reg.vcoreFields0 ++ Reg.vcoreFields1

/-- Fields of the SCORE_ group, in offset order. -/
def Reg.scoreFields : List Fld :=
  [Reg.scoreIdUnitType, Reg.scoreIdVersion, Reg.scoreCtrlRun,
   Reg.scoreBootEntry, Reg.scoreEvtVec, Reg.scoreEvtEn,
   Reg.scoreEstatCause, Reg.scoreEstatSrc, Reg.scoreEstatDepth,
   Reg.scoreEstatInHandler, Reg.scoreEstatHalted, Reg.scoreEpcEpc,
   Reg.scoreWdogTimeout, Reg.scoreStepStep, Reg.scoreOpalIdle,
   Reg.scoreOpalMask, Reg.scoreWinBase, Reg.scoreInstr,
   Reg.scoreStall, Reg.scoreEvents, Reg.scoreWrap]

/-- Fields of the POND_ group, in offset order (part 0). -/
def Reg.pondFields0 : List Fld :=
  [Reg.pondMemCfgCacheMib, Reg.pondMemCfgPatrolEn, Reg.pondMemMapUsed,
   Reg.pondCacheCmdOp, Reg.pondCacheCmdRange, Reg.pondCacheCmdSpring,
   Reg.pondCacheCmdSigEn, Reg.pondCacheBaseLine, Reg.pondCacheLenLines,
   Reg.pondMemStatCmdBusy, Reg.pondMemStatCmdPending, Reg.pondMemStatCmdOvf,
   Reg.pondMemStatSplitBusy, Reg.pondMemStatUnc, Reg.pondMemStatRetirePending,
   Reg.pondBankConf, Reg.pondCacheHit, Reg.pondCacheMiss,
   Reg.pondCacheWb, Reg.pondEccCorr, Reg.pondEccUnc,
   Reg.pondMemWrap, Reg.pondArrStatUsed, Reg.pondArrStatHigh]
/-- Fields of the POND_ group, in offset order (part 1). -/
def Reg.pondFields1 : List Fld :=
  [Reg.pondArrStatHeld, Reg.pondSprCfgWaitLimit, Reg.pondArrDeny,
   Reg.pondSigHeld, Reg.pondSigApplied, Reg.pondSprWrap,
   Reg.pondRstCtrlCold, Reg.pondRstCtrlTile, Reg.pondRstStatState,
   Reg.pondRstStatSpe, Reg.pondRstStatAttributed, Reg.pondRstStatCfgWrIgn,
   Reg.pondRstStatTestAge, Reg.pondRstAbsorb, Reg.pondRstDiscard,
   Reg.pondRstWrap, Reg.pondBcCfgObject, Reg.pondBcCfgChunks,
   Reg.pondBcCfgUnit, Reg.pondBcCfgActive, Reg.pondBcCfgBase,
   Reg.pondBcStatMissing, Reg.pondBcStatDigestOk, Reg.pondBcStatDigestBad]
/-- Fields of the POND_ group, in offset order (part 2). -/
def Reg.pondFields2 : List Fld :=
  [Reg.pondBcDigestDigest, Reg.pondBcMiss]
/-- Every field of the POND_ group. -/
def Reg.pondFields : List Fld :=
  Reg.pondFields0 ++ Reg.pondFields1 ++ Reg.pondFields2

/-- Fields of the AU_ group, in offset order. -/
def Reg.auFields : List Fld :=
  [Reg.auIdUnitType, Reg.auIdPos, Reg.auIdVersion,
   Reg.auCtrlRun, Reg.auCtrlDrain, Reg.auCtrlAbort,
   Reg.auStatusBusy, Reg.auStatusErr, Reg.auStatusCfgWrIgn,
   Reg.auGenStatState, Reg.auGenStatQdepth, Reg.auGenStatChain,
   Reg.auGenStatKind, Reg.auGenStatHandle, Reg.auGenPosDone,
   Reg.auReqs, Reg.auStall, Reg.auCmpTiles,
   Reg.auCmpDense, Reg.auWrap]

/-- Fields of the DRAM_ group, in offset order. -/
def Reg.dramFields : List Fld :=
  [Reg.dramIdUnitType, Reg.dramIdVersion, Reg.dramChanGood,
   Reg.dramChanG, Reg.dramChanUsableGib, Reg.dramChanFailedLive,
   Reg.dramThermTemp, Reg.dramThermState, Reg.dramThermHoldMs,
   Reg.dramThrottleLimit, Reg.dramThrottleAlertLimit, Reg.dramThrottleAlert,
   Reg.dramPatrolEn, Reg.dramPatrolPasses, Reg.dramErrLastOffset,
   Reg.dramErrLastChannel, Reg.dramErrLastValid, Reg.dramEccCorr,
   Reg.dramEccUnc, Reg.dramRacc, Reg.dramChRd,
   Reg.dramChWr, Reg.dramChStall, Reg.dramChWrap]

/-- Fields of the RTR_ group, in offset order (part 0). -/
def Reg.rtrFields0 : List Fld :=
  [Reg.rtrIdUnitType, Reg.rtrIdPos, Reg.rtrIdVersion,
   Reg.rtrIdFieldLink, Reg.rtrIdWrap, Reg.rtrCfgEscWait,
   Reg.rtrCfgCombWin, Reg.rtrCfgRspTmo, Reg.rtrStatusCfgWrIgn,
   Reg.rtrStatusEscFrozen, Reg.rtrStatusSlotErr, Reg.rtrStatusHwClr,
   Reg.rtrStatusEpoch, Reg.rtrRslotBusy, Reg.rtrCombine,
   Reg.rtrDiscard, Reg.rtrNack, Reg.rtrEscEnter,
   Reg.rtrGwrap, Reg.rtrPktIn, Reg.rtrPktOut,
   Reg.rtrStall, Reg.rtrDepthVc0Cur, Reg.rtrDepthVc0Hw]
/-- Fields of the RTR_ group, in offset order (part 1). -/
def Reg.rtrFields1 : List Fld :=
  [Reg.rtrDepthVc1, Reg.rtrDepthVc2, Reg.rtrDepthVc3,
   Reg.rtrCrcErr, Reg.rtrMcHold, Reg.rtrLinkState,
   Reg.rtrLinkAsleep, Reg.rtrPwrap, Reg.rtrQdestQueue,
   Reg.rtrQdestTile, Reg.rtrQdestPond, Reg.rtrQdestField,
   Reg.rtrQdestRank, Reg.rtrQdestUnord, Reg.rtrQdestValid,
   Reg.rtrQspillIL1Base, Reg.rtrQspillIL1Size, Reg.rtrQspillIL2Base,
   Reg.rtrQspillIL2Size, Reg.rtrQspillOL1Base, Reg.rtrQspillOL1Size,
   Reg.rtrQspillOL2Base, Reg.rtrQspillOL2Size, Reg.rtrSteerFunc]
/-- Fields of the RTR_ group, in offset order (part 2). -/
def Reg.rtrFields2 : List Fld :=
  [Reg.rtrSteerCin, Reg.rtrSteerDin, Reg.rtrSteerM1,
   Reg.rtrSteerM2, Reg.rtrSteerM3, Reg.rtrSteerMcnt,
   Reg.rtrSteerOut, Reg.rtrSteerOutMask, Reg.rtrSteerItems,
   Reg.rtrSteerLen, Reg.rtrSteerDeadline, Reg.rtrSteerEmit,
   Reg.rtrQstatIwait, Reg.rtrQstatOwait, Reg.rtrQstatIspill,
   Reg.rtrQstatOspill, Reg.rtrQstatLastTok, Reg.rtrQstatSteerErr,
   Reg.rtrQstatCfgWrIgn, Reg.rtrQstatWaitTmo, Reg.rtrQstallI,
   Reg.rtrQstallO, Reg.rtrSteerWait, Reg.rtrSteerBlk]
/-- Fields of the RTR_ group, in offset order (part 3). -/
def Reg.rtrFields3 : List Fld :=
  [Reg.rtrSteerDrop, Reg.rtrTokDrop, Reg.rtrSendHeld,
   Reg.rtrQwrap, Reg.rtrQoccICur, Reg.rtrQoccIHigh,
   Reg.rtrQoccOCur, Reg.rtrQoccOHigh, Reg.rtrQcollEn,
   Reg.rtrQcollMarker, Reg.rtrQcollCtx, Reg.rtrQcollRangeErr,
   Reg.rtrQcollStart, Reg.rtrQcposSent]
/-- Every field of the RTR_ group. -/
def Reg.rtrFields : List Fld :=
  Reg.rtrFields0 ++ Reg.rtrFields1 ++ Reg.rtrFields2 ++ Reg.rtrFields3

/-- Fields of the OPT_ group, in offset order (part 0). -/
def Reg.optFields0 : List Fld :=
  [Reg.optIdUnitType, Reg.optIdVersion, Reg.optSysRank,
   Reg.optSysSize, Reg.optSysFab192, Reg.optSysPromoted,
   Reg.optSysActive, Reg.optLaserSupply, Reg.optLaserPresent,
   Reg.optLaserLost, Reg.optLaserLow, Reg.optWrapPwrap,
   Reg.optWrapRwrap, Reg.optRelayed, Reg.optPspeSpe,
   Reg.optPctrlEn, Reg.optPctrlRetrain, Reg.optPctrlHoldDown,
   Reg.optPstatState, Reg.optPstatLanes, Reg.optPstatSpare,
   Reg.optPstatSubst, Reg.optPstatFails, Reg.optPstatLaneOk]
/-- Fields of the OPT_ group, in offset order (part 1). -/
def Reg.optFields1 : List Fld :=
  [Reg.optPeerPeerRank, Reg.optPeerPeerDeal, Reg.optPeerDeal,
   Reg.optPeerValid, Reg.optTxFrames, Reg.optRxFrames,
   Reg.optFecCorr, Reg.optFrameErr, Reg.optReplay,
   Reg.optCstatState, Reg.optCstatBusy, Reg.optCstatErr,
   Reg.optCstatPart, Reg.optCstatKind, Reg.optCstatShard,
   Reg.optCwait, Reg.optCdrop, Reg.optCwrap]
/-- Every field of the OPT_ group. -/
def Reg.optFields : List Fld :=
  Reg.optFields0 ++ Reg.optFields1

/-- Fields of the SVC_ group, in offset order (part 0). -/
def Reg.svcFields0 : List Fld :=
  [Reg.svcRingCtrlEn, Reg.svcRingCtrlMasterEn, Reg.svcRingStatTopo,
   Reg.svcRingStatBypass, Reg.svcRingStatAligned, Reg.svcRingStatMaster,
   Reg.svcRingStatLightA, Reg.svcRingStatLightB, Reg.svcRingStatMasterRank,
   Reg.svcRingStatHops, Reg.svcRingStatDir, Reg.svcRingDelayHopA,
   Reg.svcRingDelayHopB, Reg.svcRingFrames, Reg.svcRingErr,
   Reg.svcRingWrap, Reg.svcBringupStatPath, Reg.svcBringupStatStep,
   Reg.svcBringupStatLastWarm, Reg.svcBringupStatLastMs, Reg.svcPartSelPart,
   Reg.svcPartStatState, Reg.svcPartStatSpe, Reg.svcPartStatColdPath]
/-- Fields of the SVC_ group, in offset order (part 1). -/
def Reg.svcFields1 : List Fld :=
  [Reg.svcPartStatStep, Reg.svcClkCtrlAutoReturn, Reg.svcClkCtrlReturn,
   Reg.svcClkStatSource, Reg.svcClkStatRefinOk, Reg.svcClkStatTrimSrc,
   Reg.svcClkStatTrimmed, Reg.svcClkStatReturnPending, Reg.svcClkStatLastFail,
   Reg.svcOscTrimTrim, Reg.svcOscTrimRefDev, Reg.svcTimeTime,
   Reg.svcTimeStatStepped, Reg.svcTimeStatSlewing, Reg.svcTimeStatShort,
   Reg.svcTimeStatOffset, Reg.svcClkSwitchesToOsc, Reg.svcClkSwitchesToRef,
   Reg.svcSlewBeats, Reg.svcClkWrap, Reg.svcPwrCtrlAutoOn,
   Reg.svcPwrCtrlWaferOff, Reg.svcPwrStatState, Reg.svcPwrStatMainOk]
/-- Fields of the SVC_ group, in offset order (part 2). -/
def Reg.svcFields2 : List Fld :=
  [Reg.svcPwrStatAuxOk, Reg.svcPwrStatAlert, Reg.svcPwrStatAlertExt,
   Reg.svcPwrStatAlertInt, Reg.svcPwrStatModReady, Reg.svcPwrStatLastOff,
   Reg.svcPwrMeasMainV, Reg.svcPwrMeasAuxV, Reg.svcPwrMeasMainW,
   Reg.svcAlertSrcLake, Reg.svcAlertSrcField, Reg.svcAlertSrcExt,
   Reg.svcAlertSrcLakeSeen, Reg.svcAlertSrcFieldSeen, Reg.svcAlertSrcMainUv,
   Reg.svcAlerts, Reg.svcAlertBeats, Reg.svcPwrWrap,
   Reg.svcCapCtrlCapW, Reg.svcCapCtrlSlope, Reg.svcCapStatAllowW,
   Reg.svcCapStatMemLimit, Reg.svcCapStatPrio, Reg.svcCapStatCapped]
/-- Fields of the SVC_ group, in offset order (part 3). -/
def Reg.svcFields3 : List Fld :=
  [Reg.svcCapStatTrimW, Reg.svcCapMeasLinksW, Reg.svcCapMeasMemW,
   Reg.svcCapMeasComputeW, Reg.svcCapMeasLossW, Reg.svcCappedUs,
   Reg.svcSlopeWait, Reg.svcCapWrap, Reg.svcMlogStatWritten,
   Reg.svcMlogStatLost, Reg.svcMlogIdxIdx, Reg.svcMlogDataData,
   Reg.svcFaultCfgLimit, Reg.svcFaultCfgAutoResume, Reg.svcTrustStatKeyEnrolled,
   Reg.svcTrustStatSession, Reg.svcTrustStatBusy, Reg.svcFwStatRunning,
   Reg.svcFwStatActive, Reg.svcFwStatTrialSet, Reg.svcFwStatRecovery,
   Reg.svcFwStatTrialFailed, Reg.svcFwStatSvn, Reg.svcFwStatC]
/-- Fields of the SVC_ group, in offset order (part 4). -/
def Reg.svcFields4 : List Fld :=
  [Reg.svcLicEffFeatures, Reg.svcLicSlotFeatures, Reg.svcLicSlotUsed,
   Reg.svcLicSlotBad, Reg.svcLicSlotIssue, Reg.svcTelemCtrlEn,
   Reg.svcTelemCtrlPeriodS, Reg.svcTelemStatSweeps, Reg.svcTelemStatInexact,
   Reg.svcTelemLastTime, Reg.svcTelemSelAddr, Reg.svcTelemTotalTotal,
   Reg.svcTelemFlagsValid, Reg.svcTelemFlagsInexact, Reg.svcTelemFlagsSaturated,
   Reg.svcTelemFlagsWraps, Reg.svcTelemWrIgnCount, Reg.svcTelemRawRaw,
   Reg.svcModStatCoolIn, Reg.svcModStatCoolOut, Reg.svcModStatCoolWarn,
   Reg.svcModStatSupplySeated, Reg.svcModStatSmbAddr, Reg.svcModCfgDtLimit]
/-- Fields of the SVC_ group, in offset order (part 5). -/
def Reg.svcFields5 : List Fld :=
  [Reg.svcModCfgOutLimit, Reg.svcModCfgSmbOffEn, Reg.svcCoolWarns]
/-- Every field of the SVC_ group. -/
def Reg.svcFields : List Fld :=
  Reg.svcFields0 ++ Reg.svcFields1 ++ Reg.svcFields2 ++ Reg.svcFields3 ++ Reg.svcFields4 ++ Reg.svcFields5

/-- Fields of the HUB_ group, in offset order (part 0). -/
def Reg.hubFields0 : List Fld :=
  [Reg.hubIdUnitType, Reg.hubIdVersion, Reg.hubCtrlClogEn,
   Reg.hubCtrlRspTmo, Reg.hubStatusCompletionBackpressure, Reg.hubStatusClogErr,
   Reg.hubStatusBar2Err, Reg.hubStatusIdeActive, Reg.hubStatusLinkWidth,
   Reg.hubStatusLinkRate, Reg.hubStatusPtmValid, Reg.hubStatusWinErr,
   Reg.hubClogBaseBase, Reg.hubClogHeadHead, Reg.hubClogTailTail,
   Reg.hubEvtCfgVec, Reg.hubNmiStatNmi, Reg.hubBar2BaseBase,
   Reg.hubCsrWinField, Reg.hubCsrWinPond, Reg.hubPtmGtGt,
   Reg.hubPtmHostHost, Reg.hubCmds, Reg.hubRefused]
/-- Fields of the HUB_ group, in offset order (part 1). -/
def Reg.hubFields1 : List Fld :=
  [Reg.hubDmaIn, Reg.hubDmaOut, Reg.hubEvtLost,
   Reg.hubSlotWrIgn, Reg.hubSlotWrIgnBar2Deny, Reg.hubWrap,
   Reg.hubHwinBaseBase, Reg.hubHwinSizeSize, Reg.hubDmaStatState,
   Reg.hubDmaStatQdepth, Reg.hubDmaStatSlot, Reg.hubHsprCount]
/-- Every field of the HUB_ group. -/
def Reg.hubFields : List Fld :=
  Reg.hubFields0 ++ Reg.hubFields1

/-- Fields of the LAKE_ group, in offset order (part 0). -/
def Reg.lakeFields0 : List Fld :=
  [Reg.lakeIdUnitType, Reg.lakeIdLake, Reg.lakeIdVersion,
   Reg.lakeClkStatN, Reg.lakeClkStatTarget, Reg.lakeClkStatState,
   Reg.lakeClkStatSeq, Reg.lakeClkStatPending, Reg.lakeClkStatDroop,
   Reg.lakeClkStatAlert, Reg.lakeClkStatSkewAlarm, Reg.lakeClkLimitCeiling,
   Reg.lakeClkLimitGrant, Reg.lakeClkLimitTherm, Reg.lakeSleepWarmBeats,
   Reg.lakeSleepColdUs, Reg.lakeVfOffset, Reg.lakeVfVolt,
   Reg.lakeVfRail, Reg.lakePhaseTrim, Reg.lakePhaseSkewN,
   Reg.lakePhaseSkewE, Reg.lakePhaseSkewS, Reg.lakePhaseSkewW]
/-- Fields of the LAKE_ group, in offset order (part 1). -/
def Reg.lakeFields1 : List Fld :=
  [Reg.lakeRstStatSpe, Reg.lakeRstStatReturning, Reg.lakeWakeWarm,
   Reg.lakeWakeCold, Reg.lakeWakeWait, Reg.lakeSleepBeats,
   Reg.lakeSwitch, Reg.lakeDroop, Reg.lakeClkErr,
   Reg.lakeClkWrap, Reg.lakeThermTemp, Reg.lakeThermState,
   Reg.lakeThermSensOk, Reg.lakeThermEst, Reg.lakeTsensS0,
   Reg.lakeTsensS1, Reg.lakeTsensS2, Reg.lakeTsensS3,
   Reg.lakePwrPower, Reg.lakePwrPrio, Reg.lakePwrLeak,
   Reg.lakeWarmBeats, Reg.lakeHotBeats, Reg.lakeSlewHold]
/-- Fields of the LAKE_ group, in offset order (part 2). -/
def Reg.lakeFields2 : List Fld :=
  [Reg.lakeShuts, Reg.lakePwrWrap]
/-- Every field of the LAKE_ group. -/
def Reg.lakeFields : List Fld :=
  Reg.lakeFields0 ++ Reg.lakeFields1 ++ Reg.lakeFields2

/-- Fields of the PWR_ group, in offset order. -/
def Reg.pwrFields : List Fld :=
  [Reg.pwrIdUnitType, Reg.pwrIdVersion, Reg.pwrBusVolt,
   Reg.pwrBusAmps, Reg.pwrBusConvTemp, Reg.pwrRailsStrip,
   Reg.pwrRailsSram, Reg.pwrRailsDramCore, Reg.pwrRailsDramWl,
   Reg.pwrRailsOpt, Reg.pwrAlertsField, Reg.pwrLakeVolt,
   Reg.pwrLakeAmps, Reg.pwrLakePhTemp, Reg.pwrLakeEnabled,
   Reg.pwrLakeAlerts1h]

/-- Fields of the FLD_ group, in offset order. -/
def Reg.fldFields : List Fld :=
  [Reg.fldElogStatWritten, Reg.fldElogStatLost, Reg.fldElogSuppSuppressed,
   Reg.fldSupvAdopting, Reg.fldSupvAdopted, Reg.fldOpalCfgEn,
   Reg.fldOpalCfgForceEn, Reg.fldOpalAgeMaxMva, Reg.fldOpalAgeMaxS,
   Reg.fldOpalAgePond, Reg.fldOpalAgeTile, Reg.fldOpalPass,
   Reg.fldOpalAbort, Reg.fldOpalForced, Reg.fldOpalFail,
   Reg.fldOpalWrap, Reg.fldBcStatObject, Reg.fldBcStatRounds,
   Reg.fldBcStatUnicast, Reg.fldBcStatFailed]

end Sys2Proof.Machine
end

