-- ==== Sys2Proof/Machine/Types.lean ====
section
/-! DEFINITION. The parts of the machine's state inside a pond and on its network: queues, springs, counted arrival,
cores, generators, caches, packets (chapters 02–07, 09). -/

namespace Sys2Proof.Machine

/-- R169: a queue entry with its kind flag (true for a token). -/
structure QEnt where
  tok : Bool
  data : Entry
  deriving DecidableEq, Repr

/-- R169, R173: one tile queue: hardware entries oldest first, and for each spill window the ring position of its
oldest entry and how many entries it holds. -/
structure TQueue where
  hw : List QEnt
  l1rd : Nat
  l1n : Nat
  l2rd : Nat
  l2n : Nat
  /-- R180: output queues served by a switch: runs of entries, oldest first, with their destination (0 for RTR_QDEST,
  else the DEST plus 1). -/
  runs : List (Nat × Nat)
  deriving DecidableEq, Repr

/-- R181, R184: what a steering unit has in hand: a decision with its remaining COUNT, or a batch fill. -/
structure Steer where
  /-- Remaining entries of the decision paired last. -/
  left : Nat
  /-- The token of the decision in hand. -/
  token : Entry
  /-- Stopped on a protocol error (R183). -/
  stopped : Bool
  /-- Batch: entries taken from DIN and not released yet, oldest first. -/
  held : List QEnt
  /-- Entries of the run being released that have not left; its items; BATCH_END owed; released by deadline. -/
  run : List QEnt
  runItems : Nat
  owed : Bool
  byDeadline : Bool
  /-- R37: a drain asked for the release of the complete items held while an earlier run was leaving. -/
  due : Bool
  deriving DecidableEq, Repr

/-- R185: one spring. -/
structure Spring where
  count : Nat
  thresh : Nat
  ovf : Bool
  applied : Nat
  /-- R186: a THRESH write waiting for the next core cycle. -/
  next : Option Nat
  deriving DecidableEq, Repr

/-- R187: who waits on a spring: a WAIT at a queue head, or the S-core's WAITS. -/
inductive WaiterAt where
  | queue (tile : Nat) (isOut : Bool) (q : Nat)
  | score
  deriving DecidableEq, Repr

/-- R187: a waiter with its age (the spring evaluation it arrived in). -/
structure Waiter where
  pond : Nat
  place : WaiterAt
  spring : Nat
  observe : Bool
  since : Nat
  deriving DecidableEq, Repr

/-- R189: one entry of a sender table; `used` orders evictions. -/
structure SendEnt where
  dest : Nat
  grant : Bool
  clean : Bool
  parity : Bool
  count : Nat
  out : Nat
  pend : Bool
  used : Nat
  /-- Evicted: its RELEASE is not answered yet (R189, R193). -/
  rel : Bool
  deriving DecidableEq, Repr

/-- R192: a signal held in an arrival-table entry. -/
structure HeldSig where
  spring : Nat
  amt : Nat
  n : Nat
  parity : Bool
  tag : Nat
  deriving DecidableEq, Repr

/-- R190: one entry of an arrival table with its held signal. -/
structure ArrEnt where
  src : Nat
  cnt0 : Nat
  cnt1 : Nat
  held : Option HeldSig
  deriving DecidableEq, Repr

/-- R33, R87, R103: a row in the gate buffer: its slot, the entries it holds, the mask entries paired with it. -/
structure GateRow where
  slot : Nat
  have_ : Nat
  masks : List Entry
  deriving DecidableEq, Repr

/-- R36, R39: the gate values that govern a filling group, latched when it starts filling. -/
structure GateGov where
  demand : Nat
  deadline : Nat
  missThr : Nat
  deriving DecidableEq, Repr

/-- R34, R38: a released group. -/
structure MGroup where
  gid : Nat
  rows : List GateRow
  size : Nat
  missThr : Nat
  nextQ : Nat
  moved : Nat
  deriving DecidableEq, Repr

/-- R84: a quarter record loaded for an array: its metadata, lane bitmaps, weight area and scale words. -/
structure QRec where
  dense : Bool
  zero : Bool
  rt : Bool
  lanes : List Nat
  scale0 : Nat
  scale1 : Nat
  /-- Ring position of the record, and its length in bytes. -/
  pos : Nat
  len : Nat
  /-- The weight area as loaded into the shadow register, little-endian. -/
  data : Nat
  deriving DecidableEq, Repr

/-- R53: a set under rotated recompute: its number, the original values, the failed comparisons, and whether its mismatch was
raised under R51. -/
structure Replay where
  set : Nat
  orig : AccSet
  mask : Nat
  nonfin : Bool
  deriving DecidableEq, Repr

/-- R28: a weight register: the block's first K-element in its quarter, its weight codes in ring order, the scale codes of its four
columns, and the F32 sums and absolute sums over N of each K-element (R48). -/
structure WBlock where
  k0 : Nat
  codes : List Nat
  scales : List Nat
  sums : List Nat
  abss : List Nat
  deriving DecidableEq, Repr

/-- R28, R34: one array's work in hand. -/
structure MArr where
  /-- Group and quarter in hand. -/
  work : Option (Nat × Nat)
  seg : Nat
  sets : List AccSet
  snap : List AccSet
  /-- Ring position at which the quarter starts. -/
  wpos : Nat
  recs : List QRec
  replay : List Replay
  /-- The quarter is final and waits to move (R41). -/
  final : Bool
  /-- The weight block being issued, and the one loaded ahead. -/
  active : Option WBlock
  shadow : Option WBlock
  deriving DecidableEq, Repr

/-- R41: a block-buffer slot: one 16-column block of a release. -/
structure BBSlot where
  gid : Nat
  block : Nat
  rows : List GateRow
  size : Nat
  missThr : Nat
  /-- Quarters moved so far (0–3) with their accumulator sets; an empty list for a skipped quarter. -/
  quarters : List (Nat × List AccSet)
  /-- Next row to drain. -/
  row : Nat
  deriving DecidableEq, Repr

/-- The state of one M-core beyond its registers. -/
structure MCore where
  /-- Rows of the group that is filling, oldest first. -/
  fill : List GateRow
  gov : Option GateGov
  /-- Released groups, oldest first. -/
  groups : List MGroup
  /-- Core cycles since the filling group's first complete row. -/
  age : Nat
  nextGid : Nat
  arrs : List MArr
  /-- The array that took the last quarter. -/
  rr : Nat
  bb : List BBSlot
  lfsr : List (BitVec 16)
  modeNext : Option Nat
  /-- Issue stopped by an invalid record or mask (R86). -/
  stopped : Bool
  /-- Ring byte offset at which the next quarter to be assigned starts. -/
  wnext : Nat
  /-- Released ring ranges that do not join the release pointer yet (start, length). -/
  relWait : List (Nat × Nat)
  /-- Bytes released in all. -/
  relAll : Nat
  /-- R41: by array, core cycles that its next quarter waits for the sets of the last to move. -/
  moving : List Nat
  /-- R41, R43: the output entries of a row that has left stage 1 and waits for room in output queue 0. -/
  stage2 : List QEnt
  deriving DecidableEq, Repr

/-- An array with nothing in hand. -/
def MArr.idle : MArr := ⟨none, 0, [], [], 0, [], [], false, none, none⟩

/-- An M-core after reset. -/
def MCore.init : MCore :=
  { fill := [], gov := none, groups := [], age := 0, nextGid := 0, arrs := List.replicate 4 MArr.idle, rr := 3, bb := [],
    lfsr := (List.range 16).map (lfsrSeed 0), modeNext := none, stopped := false, wnext := 0, relWait := [],
    relAll := 0, moving := [0, 0, 0, 0], stage2 := [] }

/-- The state of one V-core beyond its registers: rows in hand on both inputs, elements done in the row, row
accumulators, output gathered for the row. -/
structure VCore where
  setNext : Option Nat
  inA : List Entry
  inB : List Entry
  /-- Elements of the row already passed through the stages. -/
  done : Nat
  redr : Option Nat
  scan : Option Nat
  lfsr : List (BitVec 16)
  /-- Output elements of the row not yet written as entries: 32-bit stage value + 2^32 · lane. -/
  outVals : List Nat
  /-- Elements written in this row (R112). -/
  outCount : Nat
  /-- Entries ready for output queue 0. -/
  outQ : List QEnt
  /-- SCALE constants that apply from the next row (R177): number and value. -/
  constNext : List (Nat × Nat)
  deriving DecidableEq, Repr

/-- A V-core after reset. -/
def VCore.init : VCore :=
  { setNext := none, inA := [], inB := [], done := 0, redr := none, scan := none,
    lfsr := (List.range 16).map (lfsrSeed 0), outVals := [], outCount := 0, outQ := [],
    constNext := [] }

/-- R122: an event: cause and tile position of its source. -/
structure SEvent where
  cause : Nat
  src : Nat
  deriving DecidableEq, Repr

/-- Why an S-core instruction stalls (R119–R122). -/
inductive SStall where
  /-- WAITS on an own-pond spring. -/
  | waits
  /-- TOKR from an empty input queue. -/
  | tokr (q : Nat)
  /-- TOKW to a full output queue. -/
  | tokw (q : Nat)
  | idle
  | fence
  /-- AGGO with the generator's queue full. -/
  | aggo
  /-- A load or CSRR through a window, waiting for its answer into rd; size in bytes, sign extension. -/
  | load (rd : Nat) (size : Nat) (sign : Bool) (tag : Nat)
  /-- SIG waiting for PEND, OUT or a sender entry (R191). -/
  | sig
  /-- After a STEP with a forced test in progress (R396). -/
  | forced
  deriving DecidableEq, Repr

/-- The state of one S-core beyond its registers. -/
structure SCore where
  regs : Tab Word
  pc : Nat
  /-- TIMEH latch. -/
  timeh : Nat
  fifo : List SEvent
  stall : Option SStall
  /-- µs the FIFO head has waited, as counted under R123. -/
  headWait : Nat
  /-- Predictor misses of the pond in the step (R105). -/
  misses : Nat
  deriving DecidableEq, Repr

/-- An S-core after reset. -/
def SCore.init : SCore := ⟨[], 0, 0, [], none, 0, 0⟩

/-- R146: a queued descriptor: its 128 bytes and its handle count. -/
structure QDesc where
  raw : BitVec 1024
  handle : Nat
  /-- Unit (S-core local 0, scratchpad 1) of the descriptor's memory, for NEXT. -/
  space : Nat
  deriving DecidableEq, Repr

/-- A running descriptor. -/
structure RunDesc where
  d : QDesc
  /-- Next element (in pattern order), or 32-byte unit of a stream operation. -/
  pos : Nat
  /-- Requests not yet answered. -/
  outst : Nat
  /-- All requests issued. -/
  issued : Bool
  /-- Queue packing or unpacking buffer: bytes held. -/
  buf : List Byte
  /-- Byte offset reserved in the spill list (SPILL_W). -/
  base : Nat
  /-- Failure kind found, 0 none; the descriptor stops when its requests are answered. -/
  kind : Nat
  /-- Completion signal sent and not yet acknowledged. -/
  sigSent : Bool
  /-- COMPRESS, SPILL: bytes written so far after the start. -/
  wrPos : Nat
  /-- Bytes formed and not written yet (COMPRESS, queues, spill). -/
  out : List Byte
  /-- COMPRESS: SEQ of the next tile. -/
  seq : Nat
  /-- Writes that wait for a sender entry (R189): destination, bytes, value. -/
  held : List (Nat × Nat × Nat)
  /-- Reads into `buf` not yet answered. -/
  reads : Nat
  deriving DecidableEq, Repr

/-- R152: the status kept for a handle: its count, STATE and kind. -/
structure HStat where
  handle : Nat
  state : Nat
  kind : Nat
  deriving DecidableEq, Repr

/-- R146, R151–R153: one generator. -/
structure Gen where
  queue : List QDesc
  chain : Option QDesc
  /-- Running descriptors: the first issues, later ones only wait for answers. -/
  run : List RunDesc
  accepted : Nat
  hist : List HStat
  aborting : Bool
  deriving DecidableEq, Repr

/-- A generator after reset. -/
def Gen.init : Gen := ⟨[], none, [], 0, [], false⟩

/-- R141: one cache line: its line address, and bytes with their valid and dirty bits. -/
structure CLine where
  line : Nat
  valid : BitVec 128
  dirty : BitVec 128
  bytes : BitVec 1024
  deriving DecidableEq, Repr

/-- R141: one cache set: 8 ways and the tree pseudo-LRU bits. -/
structure CSet where
  ways : Tab CLine
  plru : BitVec 7
  deriving DecidableEq, Repr

/-- R144: a cache command: OP, RANGE, SPRING, SIG_EN, the range latched with it, and whether it has been applied to the lines: it
waits for the reads that missed before it. -/
structure CCmd where
  op : Nat
  range : Bool
  spring : Nat
  sig : Bool
  base : Nat
  lines : Nat
  swept : Bool
  deriving DecidableEq, Repr

/-- R239: a packet: 16-byte header and 32-byte payload. -/
structure Packet where
  header : BitVec 128
  payload : BitVec 256
  deriving DecidableEq, Repr

/-- Where a packet is: at a router (tile index 16·g + t) having entered by a port, at a field strip, or at
an optical port on its way to another rank. -/
inductive Place where
  | router (tile : Nat) (port : Nat)
  | strip (f : Nat)
  | port (p : Nat)
  deriving DecidableEq, Repr

/-- Where a hop is made: output port of a router (N, E, S, W, local, field), or a field's crossbar. -/
inductive HopAt where
  | out (router : Fin 221184) (port : Fin 6)
  | strip (f : FieldIx)
  deriving DecidableEq, Repr

/-- What MCAST does: a tile's network interface sends one, or a router serves one in flight. -/
inductive McastAct where
  | issue (pond : PondIx) (tile : Fin 16) (dest : BitVec 48) (data : Entry)
  | serve (flight : Nat)
  deriving DecidableEq, Repr

/-- A packet in flight with the cycles it has waited at its place. -/
structure Flight where
  pkt : Packet
  place : Place
  waited : Nat
  /-- R257: branches already sent or held, bit q for port q. -/
  done : Nat
  deriving DecidableEq, Repr

/-- Where a generator's data goes once read. -/
inductive GenInto where
  /-- Elements of `e` bytes, each at an offset of the bytes read, to an engine address, directly or by a WRITE or RACC. -/
  | write (e : Nat) (moves : List (Nat × Nat))
  /-- Elements of `e` bytes at these offsets into the descriptor's packing buffer. -/
  | buf (e : Nat) (offs : List Nat)
  deriving DecidableEq, Repr

/-- R141: a cacheable read that missed: line, the bytes it wants, who wants them, and the parts of the line fetched. -/
structure Miss where
  line : Nat
  lo : Nat
  n : Nat
  tile : Nat
  gen : Nat
  handle : Nat
  into : GenInto
  parts : List (Nat × BitVec 256)
  failed : Nat
  deriving DecidableEq, Repr

/-- The state of one pond's memory side: cache, commands, split change, bank map. -/
structure PondMem where
  sets : Tab CSet
  cmd : Option CCmd
  held : Option CCmd
  /-- Write-backs not yet acknowledged. -/
  wbOut : Nat
  /-- The cache share in force until SPLIT_DONE. -/
  oldC : Nat
  split : Bool
  /-- R131: physical banks failed when the mapping was fixed. -/
  mapFailed : Nat
  /-- R139: corrections of each bank in the hour, and banks awaiting retirement. -/
  corr : Tab Nat
  retire : Nat
  /-- Cacheable reads waiting for their line. -/
  misses : List Miss
  deriving DecidableEq, Repr

/-- A pond's memory side after reset. -/
def PondMem.init : PondMem := ⟨[], none, none, 0, 0, false, 0, [], 0, []⟩

/-- Who acts on the answer to a request. -/
inductive Purpose where
  /-- S-core load into rd. -/
  | sload (rd : Nat) (size : Nat) (sign : Bool)
  /-- S-core posted store, token or signal. -/
  | spost
  | ssig
  /-- A generator's read, its write, its completion signal. -/
  | gread (handle : Nat) (into : GenInto)
  | gwrite (handle : Nat)
  | gsig (handle : Nat)
  /-- An output queue's QENTRY. -/
  | oq
  /-- A unit's own signal (weight ring, cache command). -/
  | unitSig
  | release
  /-- Cache write-back of a pond, cache fill of a line for a generator request. -/
  | writeback
  | fill (line part : Nat)
  /-- The hub's request on behalf of a host access, DMA engine or command slot. -/
  | hubDma (slot pos : Nat)
  | hubSig (slot : Nat)
  | hubAcc
  /-- A collective context's write or accumulate for buffer p, and its read of a chunk. -/
  | coll (p : Nat)
  | collRead (p pos : Nat)
  /-- R304: a contributing queue's accumulate. -/
  | cq (q : Nat)
  deriving DecidableEq, Repr

/-- R238: an unanswered request: its sender (SRC of R239), TAG, DEST, purpose, answers still due. -/
structure Outst where
  src : Nat
  tag : Nat
  dest : Nat
  purpose : Purpose
  due : Nat
  /-- TYPE of the request. -/
  typ : Nat
  /-- Counted in OUT of the sender's table. -/
  tab : Bool
  deriving DecidableEq, Repr

/-- R261: a collection slot. -/
structure RSlot where
  tag : Nat
  dest : Nat
  op : Nat
  fmt : Nat
  num : Bool
  cnt : Nat
  expect : Nat
  data : BitVec 256
  deriving DecidableEq, Repr

/-- R257: a copy in an output's hold slot. -/
structure HoldSlot where
  tile : Nat
  port : Nat
  pkt : Packet
  deriving DecidableEq, Repr

/-- R259: an MCAST delivery still owed at a target pond: its packet, the tiles left, whether one was refused. -/
structure McDeliver where
  pond : Nat
  pkt : Packet
  left : List Nat
  bad : Bool
  deriving DecidableEq, Repr

/-- R194: the context of a pond as scan takes it: register fields of its tiles (keyed within the pond), queues with
their spill positions, steering units, cores, generators, springs. -/
structure PondCtx where
  regs : Tab Nat
  queues : Tab TQueue
  steers : Tab Steer
  mcores : Tab MCore
  vcores : Tab VCore
  score : SCore
  gens : Tab Gen
  springs : Tab Spring
  /-- Who waits on the springs, with the count of evaluations their ages are taken from. -/
  waiters : List Waiter
  evals : Nat
  /-- Tile positions whose RUN was set when the pond was stopped. -/
  ran : List Nat
  /-- The wafer pond it was saved from, which the addresses in its queued descriptors name (R215). -/
  site : Nat
  deriving DecidableEq, Repr

/-- R400: an error record. -/
structure ErrRec where
  time : Nat
  rank : Nat
  field : Nat
  pond : Nat
  tile : Nat
  sub : Nat
  kind : Nat
  op : Nat
  part : Nat
  temp : Nat
  rail : Nat
  point : Nat
  flags : Nat
  seq : Nat
  detail : Nat
  /-- R54, R407: the last committed step of its partition when it was formed; no part of the 32 bytes. -/
  step : Nat
  deriving DecidableEq, Repr

/-- R392–R396: what the supervisor keeps of a unit's Opal tests: steps since the last pass, SCORE_STEP then, segments
passed, whether a test runs, is forced, or is due after 24 hours. -/
structure OpalT where
  age : Nat
  passStep : Nat
  seg : Nat
  active : Bool
  forced : Bool
  due : Bool
  /-- Global time of the last pass, and of the first of the segments passed since. -/
  passTime : Nat
  since : Nat
  deriving DecidableEq, Repr

/-- A unit never tested since bring-up. -/
def OpalT.init : OpalT := ⟨0, 0, 0, false, false, false, 0, 0⟩

end Sys2Proof.Machine
end

