-- ==== Sys2Proof/Machine/Types2.lean ====
section
/-! DEFINITION. The parts of the machine's state outside the ponds: defect maps, partitions, logs, network tables
(chapters 01, 08, 09, 16, 17). -/

namespace Sys2Proof.Machine

/-- R22: a defect map: its words, sparse, and its header. -/
structure DMap where
  tile : Tab Nat
  pond : Tab Nat
  lake : Tab Nat
  field : Tab Nat
  /-- Sequence number, grade byte. -/
  seq : Nat
  grade : Nat
  magic : Nat
  version : Nat
  /-- Bit 0: 0 factory map, 1 overlay. -/
  flags : Nat
  serial : List Byte
  /-- Good M-cores, good ponds, usable DRAM in GiB. -/
  mcores : Nat
  ponds : Nat
  gib : Nat
  bodyLen : Nat
  /-- ECDSA P-256 signature over the header and the body. -/
  sig : List Byte
  deriving DecidableEq, Repr

/-- R298: one collective of the running image set. -/
structure CollRec where
  part : Nat
  ctx : Nat
  kind : Nat
  /-- Memory mode. -/
  mem : Bool
  op : Nat
  num : Bool
  fmt : Nat
  pace : Nat
  paceSpring : Nat
  doneSpring : Nat
  timeout : Nat
  contrib : Nat
  shards : Nat
  chunks : Nat
  dst : Nat
  bcast : Nat
  stage : Nat
  deriving DecidableEq, Repr

/-- R304: where a chunk that was read goes. -/
inductive CollTo where
  | write (base : Nat)
  | racc (base : Nat)
  /-- As ROLE 3 data to a rank. -/
  | rank (r : Nat)
  deriving DecidableEq, Repr

/-- R304: a pass over the chunks of a shard. -/
structure CPass where
  src : Nat
  dst : List CollTo
  deriving DecidableEq, Repr

/-- R297, R303, R304: one shard buffer of a context. -/
structure CBuf where
  shard : Nat
  /-- Link mode: contributions combined per chunk and their value; L and R as (1, value). -/
  o : Tab (Nat × Nat)
  l : Tab (Nat × Nat)
  r : Tab (Nat × Nat)
  /-- Chunks whose partial has been formed, and chunks of the downward phase done. -/
  up : Tab Nat
  down : Tab Nat
  /-- Requests not yet answered, and answers of the downward phase still due. -/
  outst : Nat
  /-- Marker counts by role. -/
  m0 : Nat
  m1 : Nat
  m2 : Nat
  m3 : Nat
  /-- A start marker has arrived (R306). -/
  started : Bool
  /-- Memory mode: the phase reached, the passes left in it, the next chunk. -/
  phase : Nat
  passes : List CPass
  pos : Nat
  /-- DONE_SPRING has been signalled. -/
  done : Bool
  deriving DecidableEq, Repr

/-- R297: a collective context: the shard buffers that hold a shard. -/
structure Coll where
  b0 : Option CBuf
  b1 : Option CBuf
  deriving DecidableEq, Repr

/-- The state of the on-wafer network beyond router registers. -/
structure NetSt where
  /-- Packets in flight, in order of arrival at their places. -/
  flights : List Flight
  outst : List Outst
  /-- R261: collection slots: key 16·tile + slot. -/
  rslots : Tab RSlot
  /-- R304: contributing queues in memory mode by queue key: accumulates not answered, and shard + 1 whose marker is
  owed. -/
  cq : Tab (Nat × Nat)
  /-- R235: consecutive failed replays of the packet at a link's head: key 8·tile + port. -/
  links : Tab Nat
  holds : List HoldSlot
  /-- R259: deliveries still owed at target ponds. -/
  mcast : List McDeliver
  /-- R171: the output queue each tile's port took last. -/
  oqLast : Tab Nat
  /-- R237: the channel (0–2) each output port served last: key 8·tile + port. -/
  vcLast : Tab Nat
  /-- R418: ponds cut out for a cold reset, R383: lakes shut or being shut. -/
  cutPonds : List Nat
  cutLakes : List Nat
  /-- R253: what the tables in force were computed from: tile words, cut ponds and lakes. -/
  tabTile : Tab Nat
  tabPonds : List Nat
  tabLakes : List Nat
  /-- R253: what the tables of the update under way are computed from, fixed when step 3 begins. -/
  newTile : Tab Nat
  newPonds : List Nat
  newLakes : List Nat
  /-- R235: the last 8 packets sent on each link with their link CRC, oldest first: key 8·tile + port of the sender. -/
  replay : Tab (List (Packet × Nat))
  /-- R253: the step an update has reached (0 none), and whether another waits. -/
  update : Nat
  again : Bool
  epoch : Nat
  /-- R282: ports to each rank in ascending deal index, and relay ranks. -/
  egress : Tab (List Nat)
  relay : Tab Nat
  /-- R283: ranks whose packets wait at the ports. -/
  egressHold : List Nat
  deriving DecidableEq, Repr

/-- The network of an unpowered wafer, with the requests of the hub that wait for answers. -/
def NetSt.init (outst : List Outst) : NetSt :=
  { flights := [], outst := outst, rslots := [], cq := [], links := [], holds := [], mcast := [], oqLast := [], vcLast := [],
    cutPonds := [], cutLakes := [], tabTile := [], tabPonds := [], tabLakes := [], newTile := [], newPonds := [],
    newLakes := [], replay := [], update := 0, again := false, epoch := 0,
    egress := [], relay := [], egressHold := [] }

/-- R221: a grant. -/
structure Grant where
  rank : Nat
  spart : Nat
  tpart : Nat
  rights : Nat
  first : Nat
  n : Nat
  deriving DecidableEq, Repr

/-- R218: a route overlay of a partition. -/
structure Overlay where
  part : Nat
  x0 : Nat
  y0 : Nat
  x1 : Nat
  y1 : Nat
  /-- Penalty in hops; 0 marks a closed rectangle. -/
  pen : Nat
  deriving DecidableEq, Repr

/-- R219: a member of a multicast group, by logical pond. -/
structure GMember where
  part : Nat
  pos : Nat
  q : Nat
  lpond : Nat
  deriving DecidableEq, Repr

/-- R219: a multicast group and the partition that defines it. -/
structure MGrp where
  part : Nat
  members : List GMember
  deriving DecidableEq, Repr

/-- R225: a weight reference of the running set. -/
structure WRef where
  index : Nat
  flags : Nat
  base : Nat
  len : Nat
  digest : Nat
  /-- IMAGE_ID of the image that holds it. -/
  image : Nat
  deriving DecidableEq, Repr

/-- R226: a sealed range of a field: window offset, length, SHA-256, and whether its record check passed. -/
structure Seal where
  off : Nat
  len : Nat
  digest : Nat
  recOk : Bool
  deriving DecidableEq, Repr

/-- R199: an image kept in DRAM: its engine address (offset bits), length and identity. -/
structure Staged where
  base : Nat
  len : Nat
  image : Nat
  /-- SHA-256 of its bytes 0 to L − 129 (R440). -/
  digest : Nat
  deriving DecidableEq, Repr

/-- R216: the site of a logical pond of an exporting partition of another rank. -/
structure PeerSite where
  rank : Nat
  part : Nat
  lpond : Nat
  site : Nat
  deriving DecidableEq, Repr

/-- The running image set beyond its partitions. -/
structure ImgSt where
  grants : List Grant
  overlays : List Overlay
  groups : Tab MGrp
  refs : List WRef
  /-- R298: the collectives of the running image set. -/
  colls : List CollRec
  /-- Seals by field. -/
  seals : Tab (List Seal)
  staged : List Staged
  peers : List PeerSite
  /-- IMAGE_ID last applied. -/
  baseId : Nat
  /-- R209: the placement of the load in progress: partition, logical pond, site. -/
  placed : List (Nat × Nat × Nat)
  /-- R216: the sites of EXPORT partitions of this rank as last published over the service ring. -/
  published : List PeerSite
  deriving DecidableEq, Repr

/-- No image. -/
def ImgSt.init : ImgSt := ⟨[], [], [], [], [], [], [], [], 0, [], []⟩

/-- R158, R162: a field's DRAM controllers: channels in the interleave since bring-up, channels failed since, requests
held in order of arrival, and whether the hold limit of a stop has passed. -/
structure DramSt where
  chans : Nat
  dead : Nat
  queue : List Packet
  expired : Bool
  deriving DecidableEq, Repr

/-- All 32 channels good and nothing held. -/
def DramSt.init : DramSt := ⟨2 ^ 32 - 1, 0, [], false⟩

/-- R403–R405: the logs. -/
structure ErrSt where
  /-- Records on their way to a supervisor, oldest first. -/
  queue : List ErrRec
  /-- Per-field logs, newest first. -/
  elog : Tab (List ErrRec)
  /-- Records that wait to be appended to the module log, oldest first. -/
  mlogWait : List ErrRec
  /-- The module log, newest first. -/
  mlog : List ErrRec
  /-- R17: fields whose supervisor failed. -/
  supvFailed : List Nat
  deriving DecidableEq, Repr

/-- One partition of the running image set (R205). -/
structure Part where
  /-- The state shown by SVC_PART_STAT (R436): 0 absent, 1 loaded, 2 resetting, 3 running, 4 stopping, 5 stopped,
  6 recovering, 7 tearing down, 8 killing. -/
  state : Nat
  /-- Logical ponds and the wafer ponds they sit on. -/
  sites : List (Nat × Nat)
  prio : Nat
  flags : Nat
  maxN : Nat
  saveBase : Nat
  saveSize : Nat
  /-- Engine address offset of the image that defines it, and its IMAGE_ID. -/
  image : Nat
  imageId : Nat
  /-- R436: SPE and COLD_PATH. -/
  spe : Bool
  coldPath : Bool
  /-- R411: faults since the last committed step, and that step. -/
  faults : Nat
  faultStep : Nat
  /-- Handle, vector and slot of the run report owed (R328). -/
  handle : Nat
  vec : Nat
  /-- R407: field and TIME of the record that faulted it, its code (0 none), and the step recovery has reached. -/
  faultField : Nat
  faultTime : Nat
  faultCode : Nat
  recStep : Nat
  /-- R407 step 6: logical ponds that have new sites and have not moved yet: logical pond, old site, new site. -/
  moves : List (Nat × Nat × Nat)
  /-- R410: the recovery follows another at once and posts no run report of its own fault. -/
  again : Bool
  /-- R322, R425: SCORE_STEP of each pond when a stop was asked for; its S-core halts once it has passed it. -/
  stopAt : List (Nat × Nat)
  /-- Tiles (index 16·pond + tile) whose RUN was set when the partition was stopped. -/
  ran : List Nat
  /-- R415: RUN has been cleared and the drain runs; the drain has ended. -/
  draining : Bool
  drained : Bool
  /-- R299: the collectives of the load have been agreed. -/
  collOk : Bool
  /-- R383: logical ponds whose context was scanned out when their lake was shut. -/
  kept : List Nat
  /-- R54, R402: the last committed step when the fault it recovers from arose. -/
  hold : Option Nat
  /-- R211: tiles whose function is Off: 16·logical pond + tile. -/
  off : List Nat
  deriving DecidableEq, Repr

/-- A partition number in no use. -/
def Part.none : Part :=
  ⟨0, [], 0, 0, 16, 0, 0, 0, 0, false, false, 0, 0, 0, 0, 0, 0, 0, 0, [], false, [], [], false, false, false, [],
   .none, []⟩

/-- R420: a pond's last passed self-test (time + 1; 0 none since AUX power-up), and whether a fault is attributed to it
since. -/
structure PTest where
  passed : Nat
  attr : Bool
  deriving DecidableEq, Repr

/-- R417: what a pond self-test finds failed: cores and routers by tile, links (bit 4·t + port), arrays (bit 4·t + a), pond
memory banks. -/
structure TestFail where
  cores : BitVec 16
  routers : BitVec 16
  links : BitVec 64
  arrays : BitVec 64
  banks : BitVec 34
  deriving DecidableEq, Repr

/-- A self-test that finds nothing. -/
def TestFail.clean : TestFail := ⟨0, 0, 0, 0, 0⟩

/-- What a drain or a reset closes over: a tile, a pond, a partition. -/
inductive Boundary where
  | tile (pond : PondIx) (tile : Fin 16)
  | pond (pond : PondIx)
  | part (part : PartIx)
  deriving DecidableEq, Repr

/-- R327: a completion-log record before its PHASE is known, with the vector of its MSI-X message. -/
structure CRec where
  handle : Nat
  status : Nat
  opcode : Nat
  event : Bool
  run : Bool
  part : Nat
  aux : Nat
  time : Nat
  detail : Nat
  vec : Nat
  deriving DecidableEq, Repr

/-- R318–R324: an accepted command: its slot, handle and header fields, the descriptor, and how far it has got. -/
structure HCmd where
  slot : Nat
  handle : Nat
  op : Nat
  fence : Bool
  vec : Nat
  part : Nat
  /-- DMA engine chosen. -/
  engine : Nat
  raw : BitVec 2048
  launched : Bool
  /-- The hub-spring wait has passed (R325). -/
  passed : Bool
  /-- Its completion has been formed. -/
  done : Bool
  /-- R323: 32-byte units issued and moved, requests not answered, kind of the first failure, 1 signalling and 2
  signalled. -/
  issued : Nat
  moved : Nat
  outst : Nat
  kind : Nat
  stage : Nat
  /-- Global time of its acceptance. -/
  time : Nat
  deriving DecidableEq, Repr

/-- What the last access from outside returned: 0 data, 1 Unsupported Request or not answered, 2 poisoned data; and its
bytes. -/
structure Reply where
  status : Nat
  data : List Byte
  deriving DecidableEq, Repr

/-- The hub beyond its registers. -/
structure HubSt where
  /-- Records not written yet, in the order they were formed (R329). -/
  held : List CRec
  /-- Events dropped since the last EVENTS_LOST. -/
  lost : Nat
  /-- MSI-X messages sent, by vector. -/
  msix : Tab Nat
  /-- R315: the bytes of the MSI-X table; what they hold decides nothing in this model (DESIGN CHOICE, log entry 20). -/
  msixTable : Tab Byte
  /-- Bus Master Enable (R314). -/
  busMaster : Bool
  /-- R318: the bytes of the command slots: key 256·slot + offset. -/
  slots : Tab Byte
  /-- Accepted commands whose record has not been written, in order of acceptance. -/
  cmds : List HCmd
  /-- R319: commands accepted since AUX power came up. -/
  gen : Nat
  /-- R431: a warm bring-up has been accepted. -/
  warm : Bool
  /-- R278: rank and system size stored by SYSTEM. -/
  sysRank : Nat
  sysSize : Nat
  reply : Reply
  deriving DecidableEq, Repr

/-- Time beyond the beat boundary value T (R350–R352). -/
structure ClkSt where
  /-- Length L of the beat in progress, in ns. -/
  beatL : Nat
  /-- The second service cycle of the beat is running. -/
  half : Bool
  /-- R350: beats since the last long or short one (at most 49). -/
  since : Nat
  /-- R352: the part of E still to be corrected, in ns. -/
  slew : Int
  /-- R351: beats since the hub last sent its time (at most 1,024). -/
  beats : Nat
  /-- How far each lake's copy of T differs from the hub's. -/
  lakeOff : Tab Int
  deriving DecidableEq, Repr

end Sys2Proof.Machine
end

