-- ==== Sys2Proof/Machine/Types3.lean ====
section
/-! DEFINITION. The parts of the machine's state in the hub's service controller, the ports, the ring, the lake sequencers and
the power controller (chapters 10, 13–15, 18–20). -/

namespace Sys2Proof.Machine

/-- R442, R443: what the module keeps of a flash slot: whether its bundle is valid, its SVN and the digests of its three
components. -/
structure FwSlot where
  valid : Bool
  svn : Nat
  hub : Nat
  geper : Nat
  sup : Nat
  deriving DecidableEq, Repr

/-- An empty slot. -/
def FwSlot.empty : FwSlot := ⟨false, 0, 0, 0, 0⟩

/-- R437–R451: fuses, flash, the SPDM connection and the IDE stream. -/
structure TrustSt where
  /-- Hash of the configuration key as a little-endian number; 0 before enrolment. -/
  configKey : Nat
  /-- Anti-rollback counter C. -/
  c : Nat
  slotA : FwSlot
  slotB : FwSlot
  /-- ACTIVE, TRIAL (slot + 1, 0 none), the running slot: 0 A, 1 B. -/
  active : Nat
  trial : Nat
  running : Nat
  /-- Slot + 1 whose trial failed and is not posted yet. -/
  failed : Nat
  /-- Installed licence blobs by slot. -/
  lics : Tab (List Byte)
  /-- R443: the hub is in recovery. -/
  recovery : Bool
  /-- R439: how far the SPDM connection has got (1 version, 2 capabilities, 3 algorithms), a key exchange without its
  FINISH, and whether a session is open. -/
  conn : Nat
  exchange : Bool
  session : Bool
  /-- R451: IDE keys + 1 by 16·set + 8·direction + sub-stream, and the set in use + 1 by 8·direction + sub-stream. -/
  keys : Tab Nat
  sets : Tab Nat
  /-- AER holds an integrity failure. -/
  aer : Bool
  deriving DecidableEq, Repr

/-- R267: an optical frame as received: whether FEC decoding succeeds, and the 5,140 bits it gives. -/
structure Frame where
  fec : Bool
  bits : BitVec 5140
  deriving DecidableEq, Repr

/-- R271: what the far end of a port sends of itself: rank, system size, port set (FABRIC-192) and deal index. -/
structure Ident where
  rank : Nat
  size : Nat
  fab : Bool
  deal : Nat
  deriving DecidableEq, Repr

/-- R268, R270, R284: a port beyond its registers. -/
structure PortSt where
  /-- SEQ of the next frame sent, SEQ expected next. -/
  tx : Nat
  rx : Nat
  /-- Frames sent and not acknowledged. -/
  replay : List (Nat × List Packet)
  /-- Consecutive failures of the frame at the head; of the frames in `replay`, the last so many are still to be resent. -/
  bad : Nat
  again : Nat
  /-- A frame was discarded and its NAK has not been sent. -/
  nak : Bool
  /-- The frame last put on the fibre. -/
  last : BitVec 5140
  /-- The port has come up since bring-up. -/
  was : Bool
  /-- R283: the port has gone out of service, and its change of the egress table is not over. -/
  leaving : Bool
  /-- R427: EN set, and HOLD_DOWN cleared, while the port goes dark. -/
  wantEn : Bool
  wantFree : Bool
  deriving DecidableEq, Repr

/-- A port since bring-up. -/
def PortSt.init : PortSt := ⟨0, 0, [], 0, 0, false, 0, false, false, false, false⟩

/-- R288: a management message: the peers a rank has working ports to, or its digest of a collective (R285, R299); exports
are EXPORT_RECEIVED. -/
inductive RingMsg where
  | links (rank : Nat) (peers : List Nat)
  | digest (rank ctx digest : Nat)
  deriving DecidableEq, Repr

/-- R288: a ring frame as received: its 1,250 bytes, and the management messages that bytes 24–1,245 spell. -/
structure RingFrame where
  bits : BitVec 10000
  msgs : List RingMsg
  deriving DecidableEq, Repr

/-- R288–R291: the ring as this module sees it. -/
structure RingSt where
  /-- HOPS of the last frame accepted by port A and by port B. -/
  hopsA : Option Nat
  hopsB : Option Nat
  /-- The frame last sent on, or started as the master: key 0 the direction that enters at port A, 1 at port B. -/
  sent : Tab (BitVec 10000)
  /-- The first alignment since AUX power-up has been made (R352); marks the oscillator has counted (R334). -/
  aligned : Bool
  marks : Nat
  /-- R285: link-state maps published on the ring: pairs of rank and peer that have a working port. -/
  maps : List (Nat × Nat)
  /-- R285: the link-state map this module publishes: the ranks it has working ports to. -/
  links : List Nat
  /-- R299: collective digests published by ranks: rank, CTX, digest. -/
  digests : List (Nat × Nat × Nat)
  deriving DecidableEq, Repr

/-- A module that has seen no ring frame. -/
def RingSt.init : RingSt := ⟨none, none, [], false, 0, [], [], []⟩

/-- R333–R338: the reference monitor and the oscillator. -/
structure RefSt where
  /-- Deviations of the last windows from 1,000 edges, newest first (at most 100). -/
  devs : List Int
  /-- Good windows in a row (at most 100), and windows qualified (at most 100,000, which is 1 s). -/
  windows : Nat
  held : Nat
  /-- What the monitor found wrong while the module clock is REFIN and no switch has followed: bit 0 missing edge, bit 1
  deviation. -/
  fail : Nat
  /-- The oscillator is phase-locked to REFIN (R336 step 3). -/
  locked : Bool
  /-- A switch to REFIN waits for the phase lock: at AUX power-up, or once RETURN has been written. -/
  wanted : Bool
  /-- The module clock has been REFIN since AUX power-up. -/
  was : Bool
  /-- Windows of trimmed running since the last store, and the stored trim (R333). -/
  trimmed : Nat
  stored : Nat
  deriving DecidableEq, Repr

/-- The monitor at AUX power-up with a stored trim. -/
def RefSt.init (stored : Nat) : RefSt := ⟨[], 0, 0, 0, false, true, false, 0, stored⟩

/-- R341–R349, R368, R374, R379–R384: a lake sequencer beyond its registers. -/
structure LakeSt where
  /-- Ratio of the raise in progress, 0 none; its settle wait runs. -/
  raise : Nat
  settling : Bool
  /-- Announcement in force, 0 none; beats since it; the target without droop at it and at the previous switch. -/
  ann : Nat
  beats : Nat
  annBase : Nat
  lastBase : Nat
  /-- Ratio the slope budget has been drawn for. -/
  drawn : Nat
  /-- Beats idle in a row; beats warm asleep; beats since the grant of a wake; the wake is from cold. -/
  idle : Nat
  warm : Nat
  waking : Nat
  cold : Bool
  /-- Beats droop has gone without a low sample. -/
  clear : Nat
  /-- Borders whose transfers are halved, bit b for border b; beats each has stayed within ±25 ps. -/
  halved : Nat
  calm : Tab Nat
  /-- Temperature of the sample before (R380); samples in a row below 85 °C while Shut (10 s is 500,000). -/
  prev : Nat
  cool : Nat
  /-- R368, R383: the step reached in going Off (0 none) and samples since it began. -/
  off : Nat
  age : Nat
  /-- Times of the lake alerts of the last hour, newest first (R368). -/
  alerts : List Nat
  /-- Rail power in the last 100 µs of running, 0.25 W (R374). -/
  ran : Nat
  /-- R382: the lake has been Hot and has not been Normal since. -/
  wasHot : Bool
  deriving DecidableEq, Repr

/-- A lake after its rail has come up. -/
def LakeSt.init : LakeSt := ⟨0, false, 0, 0, 4, 4, 4, 0, 0, 0, false, 0, 0, [], 0, 0, 0, 0, [], 0, false⟩

/-- R377: a request for a power step: a lake, the ratio it goes to, whether it is a wake. -/
structure SlopeReq where
  lake : Nat
  n : Nat
  wake : Bool
  deriving DecidableEq, Repr

/-- R364: a source of a regulator alert. -/
inductive AlertSrc where
  | ext
  | lake (w : LakeIx)
  | field (f : FieldIx)
  | mainUv
  deriving DecidableEq, Repr

/-- R356–R378, R472–R481: the supplies, the alert episode, the slope budget, pins. -/
structure PowerSt where
  /-- R21: the factory map verifies. -/
  mapOk : Bool
  /-- Step of R362 reached in state 5; the cause an orderly power-down will record. -/
  step : Nat
  cause : Nat
  /-- R360: a rail fault: only a BRINGUP command powers the wafer again. -/
  faulted : Bool
  /-- Global time at which the bring-up in progress began (R436). -/
  upAt : Nat
  /-- MOD_RESET_N is held low. -/
  modReset : Bool
  /-- R480: conditions an alert response has answered: bit 0 alert, 1 COOL_WARN, 2 state 6. -/
  smbSeen : Nat
  /-- R364: alert sources in force, with the time each appeared; an episode is open; its first external and first internal
  source have been posted; time + 1 at which its last source cleared, 0 none (R367). -/
  sources : List (AlertSrc × Nat)
  episode : Bool
  postedExt : Bool
  postedInt : Bool
  ended : Nat
  /-- R372: time + 1 of the last command that changed the cap; trim in quarters of a watt. -/
  capTime : Nat
  trim : Int
  /-- R377: the budget in W; waiting requests, oldest first. -/
  budget : Rat
  reqs : List SlopeReq
  /-- R352: a partition has started since AUX power-up. -/
  started : Bool
  /-- R385, R472: hottest stack sensor of the sample before by field; coolant conditions of the sample before, and samples
  without any. -/
  stackPrev : Tab Nat
  coolPrev : Nat
  coolClear : Nat
  /-- R481: the boundary-scan cells preloaded; the JTAG instruction last selected: 0 BYPASS, 1 IDCODE, 2 SAMPLE/PRELOAD,
  3 EXTEST. -/
  boundary : List Bool
  jtag : Nat
  deriving DecidableEq, Repr

/-- R464: what Geper keeps of a counter: last raw value, total, time of the last sample, INEXACT, SATURATED, wraps. -/
structure Telem where
  raw : Nat
  total : Nat
  last : Nat
  inexact : Bool
  sat : Bool
  wraps : Nat
  deriving DecidableEq, Repr

/-- A counter never sampled. -/
def Telem.init : Telem := ⟨0, 0, 0, false, false, 0⟩

end Sys2Proof.Machine
end

