-- ==== Sys2Proof/Machine/Operands.lean ====
section
/-! DEFINITION. The operands of commands that are more than numbers: what happened or what was measured when the command came
(DESIGN CHOICE, log entry 2). -/

namespace Sys2Proof.Machine

/-- What the ECC of a word or burst finds when it is read. -/
inductive Ecc where
  | good | corrected | uncorrectable
  deriving DecidableEq, Repr

/-- The core cycles that a row of an M-core waited, and what the check bits of the activation table show it. -/
structure RowSeen where
  dt : Nat
  ecc : Ecc
  deriving DecidableEq, Repr

/-- The core cycles that a generator waited, and those of them in which a request of its pond lost a bank (R134). -/
structure GenWait where
  dt : Nat
  conf : Nat
  deriving DecidableEq, Repr

/-- An accumulate in flight, and what the check symbols of its burst show (R157). -/
structure RaccSeen where
  n : Nat
  ecc : Ecc
  deriving DecidableEq, Repr

/-- What a spare port finds when it is lit: what its far end sends of itself, none in silence, and the lanes that train. -/
structure SpareSeen where
  peer : Option Ident
  ok : BitVec 16
  deriving DecidableEq, Repr

/-- What REDUCE does: a packet in flight combines or arrives, or a full slot tries its queue again. -/
inductive ReduceAct where
  | flight (n : Nat) (dt : Nat)
  | slot (router : Fin 221184) (n : Fin 16)
  deriving DecidableEq, Repr

/-- A BAR2 access. -/
inductive Bar2 where
  | read (o : BitVec 36) (n : Nat)
  | write (o : BitVec 36) (bs : List Byte)
  deriving DecidableEq, Repr

/-- A read or write of 4 or 8 bytes of a register. -/
inductive RegOp where
  | read (o n : Nat)
  | write (o n v : Nat)
  deriving DecidableEq, Repr

/-- A frame that a port sends, or one it receives with the symbols its FEC corrected. -/
inductive FrameEv where
  | sent
  | received (f : Frame) (corrected : Nat)
  deriving DecidableEq, Repr

/-- How the training of a port goes on (R270). -/
inductive TrainEv where
  /-- Supply light as measured: wavelengths below +14 dBm. -/
  | light (low : BitVec 16)
  /-- Step 2. -/
  | locked
  /-- No peer has answered within 100 ms of step 2. -/
  | silent
  /-- Step 3: what the peer sends of itself. -/
  | identity (x : Ident)
  /-- Step 4: the lanes good in both directions. -/
  | lanes (ok : BitVec 16)
  deriving DecidableEq, Repr

/-- What the regulators of a lake measure: rail power over the last 100 µs (0.25 W), voltage (mV), current (10 mA), phase group
temperature (0.25 °C). -/
structure LakeMeas where
  lake : LakeIx
  power : Nat
  volt : Nat
  amps : Nat
  temp : Nat
  deriving DecidableEq, Repr

/-- What a field converter measures: bus voltage (mV), current (10 mA), temperature (0.25 °C). -/
structure FieldMeas where
  field : FieldIx
  volt : Nat
  amps : Nat
  temp : Nat
  deriving DecidableEq, Repr

/-- What the service controller measures: MAIN_W averaged over 1 ms, the class draws averaged over 100 µs in W, the DRAM part of
the memory class, the regulators. -/
structure PowerMeas where
  mainW : Nat
  links : Nat
  mem : Nat
  dram : Nat
  compute : Nat
  loss : Nat
  lakes : List LakeMeas
  fields : List FieldMeas
  deriving DecidableEq, Repr

/-- What a bring-up's tests find: supervisors whose image does not verify, generators that do not lock, DRAM channels of a
field that fail, ponds with failed units. -/
structure BringFind where
  supervisors : List FieldIx
  generators : List LakeIx
  channels : List (FieldIx × BitVec 32)
  tests : List (PondIx × TestFail)
  deriving DecidableEq, Repr

/-- R119: the fields of an S-core instruction word; rs2 lies inside imm. -/
structure SWord where
  op : Nat
  rd : Nat
  rs1 : Nat
  rs2 : Nat
  imm : BitVec 16
  deriving DecidableEq, Repr

end Sys2Proof.Machine
end

