-- ==== Sys2Proof/Syntax.lean ====
section
/-! DEFINITION. The commands of the block: one constructor per row of the table, those without operands last (DESIGN CHOICE, log entry 2). -/

namespace Sys2Proof

open Sys2Proof.Machine

/-- A command. -/
inductive Instr where
  /-- CSR_WRITE. R61: a write of `n` bytes of the register at offset `o` of unit `u`, over the service plane or by a core. -/
  | csrWrite (u : UnitId) (o n v : Nat) (svc : Bool)
  /-- SUPERVISOR_FAIL. R17: the supervisor of a field fails. -/
  | supervisorFail (f : FieldIx)
  /-- GATE_BUFFER_WRITE. R33, R36: an entry of queue 0 enters the gate buffer. -/
  | gateBufferWrite (g : PondIx) (m : Fin 8) (dt : Nat)
  /-- GATE_DEADLINE. R36: the gate deadline expires. -/
  | gateDeadline (g : PondIx) (m : Fin 8) (dt : Nat)
  /-- MCORE_CTRL_RUN. R40: a write of MCORE_CTRL.RUN. -/
  | mcoreCtrlRun (g : PondIx) (m : Fin 8) (v : Bool)
  /-- MCORE_DRAIN. R37: a write of DRAIN. -/
  | mcoreDrain (g : PondIx) (m : Fin 8)
  /-- MCORE_DRAIN_DONE. R37: the drain has ended. -/
  | mcoreDrainDone (g : PondIx) (m : Fin 8)
  /-- GATE_RELEASE. R37: a write of GATE_RELEASE. -/
  | gateRelease (g : PondIx) (m : Fin 8)
  /-- MCORE_GATE_WRITE. R39, R40: a write of MCORE_GATE. -/
  | mcoreGateWrite (g : PondIx) (m : Fin 8) (v : DWord)
  /-- MCORE_MODE. R47: a write of MODE. -/
  | mcoreMode (g : PondIx) (m : Fin 8) (v : Bool)
  /-- MODE_CHANGE_APPLY. R47: the latched MODE takes effect. -/
  | modeChangeApply (g : PondIx) (m : Fin 8)
  /-- SEGMENT_CHECK. R49–R52: a check segment of array `a` ends, with the upsets that struck it. -/
  | segmentCheck (g : PondIx) (m : Fin 8) (a : Fin 4) (ups : List Upset) (dt : Nat) (c : Fin 20)
  /-- ROTATED_RECOMPUTE_DONE. R53: the recompute of array `a` ends, with the upsets that struck it. -/
  | rotatedRecomputeDone (g : PondIx) (m : Fin 8) (a : Fin 4) (ups : List Upset)
  /-- QUARTER_FINAL. R41: a final quarter moves into the block buffer. -/
  | quarterFinal (g : PondIx) (m : Fin 8) (a : Fin 4) (dt : Nat)
  /-- EPILOGUE_ROW. R43: one row of the epilogue. -/
  | epilogueRow (g : PondIx) (m : Fin 8) (seen : RowSeen)
  /-- ELEMENT_WISE_ENTRY. R46: one entry in element-wise mode. -/
  | elementWiseEntry (g : PondIx) (m : Fin 8) (seen : RowSeen)
  /-- SPARSE_RECORD_LOAD. R92: array `a` loads a quarter record. -/
  | sparseRecordLoad (g : PondIx) (m : Fin 8) (a : Fin 4)
  /-- NEURON_MASK_PAIR. R103: a neuron mask is paired with its row. -/
  | neuronMaskPair (g : PondIx) (m : Fin 8) (dt : Nat)
  /-- TOKEN_AT_HEAD. R177: a token other than WAIT is at the head of input queue `q`. -/
  | tokenAtHead (g : PondIx) (t : Fin 16) (q : Fin 8)
  /-- VCORE_ENTRY. R109: a V-core takes an entry; `dt` cycles it waited, `gw` cycles its accesses waited. -/
  | vcoreEntry (g : PondIx) (v : Fin 4) (dt gw : Nat)
  /-- VCORE_SET_WRITE. R117: a write of VCORE_CTRL.SET. -/
  | vcoreSetWrite (g : PondIx) (v : Fin 4) (n : Fin 4)
  /-- VCORE_DRAIN. R126: a write of DRAIN. -/
  | vcoreDrain (g : PondIx) (v : Fin 4)
  /-- SELECTION_ROW. R118: a row in selection mode. -/
  | selectionRow (g : PondIx) (v : Fin 4) (dt : Nat)
  /-- ADD. R120: rd := rs1 + rs2. -/
  | add (g : PondIx) (dt : Nat)
  /-- SUB. R120: rd := rs1 − rs2. -/
  | sub (g : PondIx) (dt : Nat)
  /-- ADDI. R120: rd := rs1 + imm. -/
  | addi (g : PondIx) (dt : Nat)
  /-- AND. R120: rd := rs1 AND rs2. -/
  | and (g : PondIx) (dt : Nat)
  /-- OR. R120: rd := rs1 OR rs2. -/
  | or (g : PondIx) (dt : Nat)
  /-- XOR. R120: rd := rs1 XOR rs2. -/
  | xor (g : PondIx) (dt : Nat)
  /-- ANDI. R120: rd := rs1 AND imm, zero-extended. -/
  | andi (g : PondIx) (dt : Nat)
  /-- ORI. R120: rd := rs1 OR imm, zero-extended. -/
  | ori (g : PondIx) (dt : Nat)
  /-- SHLI. R120: left shift by imm[4:0]. -/
  | shli (g : PondIx) (dt : Nat)
  /-- SHRI. R120: logical right shift by imm[4:0]. -/
  | shri (g : PondIx) (dt : Nat)
  /-- SHAI. R120: arithmetic right shift by imm[4:0]. -/
  | shai (g : PondIx) (dt : Nat)
  /-- SLT. R120: signed comparison. -/
  | slt (g : PondIx) (dt : Nat)
  /-- SLTU. R120: unsigned comparison. -/
  | sltu (g : PondIx) (dt : Nat)
  /-- MUL. R120: low 32 bits of the product. -/
  | mul (g : PondIx) (dt : Nat)
  /-- LUI. R120: rd := imm shifted left by 16. -/
  | lui (g : PondIx) (dt : Nat)
  /-- LW. R120: a 32-bit load; `ecc` is what the check of the words read finds. -/
  | lw (g : PondIx) (dt : Nat) (ecc : Ecc)
  /-- LH. R120: a sign-extended 16-bit load. -/
  | lh (g : PondIx) (dt : Nat) (ecc : Ecc)
  /-- LBU. R120: a zero-extended byte load. -/
  | lbu (g : PondIx) (dt : Nat) (ecc : Ecc)
  /-- SW. R120: a word store. -/
  | sw (g : PondIx) (dt : Nat)
  /-- SB. R120: a byte store. -/
  | sb (g : PondIx) (dt : Nat)
  /-- AMOADD. R120: atomic fetch-and-add. -/
  | amoadd (g : PondIx) (dt : Nat)
  /-- BEQ. R120: branch when rd = rs1. -/
  | beq (g : PondIx) (dt : Nat)
  /-- BNE. R120: branch when rd ≠ rs1. -/
  | bne (g : PondIx) (dt : Nat)
  /-- BLT. R120: branch when rd < rs1, signed. -/
  | blt (g : PondIx) (dt : Nat)
  /-- BGE. R120: branch when rd ≥ rs1, signed. -/
  | bge (g : PondIx) (dt : Nat)
  /-- BLTU. R120: branch when rd < rs1, unsigned. -/
  | bltu (g : PondIx) (dt : Nat)
  /-- JAL. R120: jump and link. -/
  | jal (g : PondIx) (dt : Nat)
  /-- JALR. R120: jump to rs1 + imm and link. -/
  | jalr (g : PondIx) (dt : Nat)
  /-- HALT. R120: stop until an event of cause 2, 6 or 9. -/
  | halt (g : PondIx) (dt : Nat)
  /-- CSRR. R120: read a register of the own pond. -/
  | csrr (g : PondIx) (dt : Nat)
  /-- CSRW. R120: write a register of the own pond. -/
  | csrw (g : PondIx) (dt : Nat)
  /-- SIG. R120: signal a spring. -/
  | sig (g : PondIx) (dt : Nat)
  /-- WAITS. R120: wait on a spring. -/
  | waits (g : PondIx) (dt : Nat)
  /-- POLLS. R120: read a spring. -/
  | polls (g : PondIx) (dt : Nat)
  /-- TOKW. R120: eight registers to an output queue. -/
  | tokw (g : PondIx) (dt : Nat)
  /-- TOKR. R120: an input-queue entry to eight registers. -/
  | tokr (g : PondIx) (dt : Nat)
  /-- TOKQ. R120: entries waiting in an input queue. -/
  | tokq (g : PondIx) (dt : Nat)
  /-- AGGO. R120: queue a descriptor on a generator. -/
  | aggo (g : PondIx) (dt : Nat)
  /-- AGST. R152: status of a descriptor handle. -/
  | agst (g : PondIx) (dt : Nat)
  /-- EVT. R120: an error record of severity I. -/
  | evt (g : PondIx) (dt : Nat)
  /-- FENCE. R120: wait until every earlier write, signal and token is accepted. -/
  | fence (g : PondIx) (dt : Nat)
  /-- TIMEL. R120: global time [31:0] at core cycle `c` of the beat. -/
  | timel (g : PondIx) (dt : Nat) (c : Fin 20)
  /-- TIMEH. R120: the latched global time [63:32]. -/
  | timeh (g : PondIx) (dt : Nat)
  /-- IDLE. R120: wait for the next event. -/
  | idle (g : PondIx) (dt : Nat)
  /-- OPAL. R120: an Opal hint. -/
  | opal (g : PondIx) (dt : Nat)
  /-- RETI. R120: return from the event handler. -/
  | reti (g : PondIx) (dt : Nat)
  /-- EVEN. R120: the maskable event enables. -/
  | even (g : PondIx) (dt : Nat)
  /-- STEP. R124: a step boundary. -/
  | step (g : PondIx) (dt : Nat)
  /-- EVENT_ENQUEUE. R122: the first `k` events raised arrive in one core cycle. -/
  | eventEnqueue (g : PondIx) (k : Nat)
  /-- EVENT_TAKE. R122: the S-core takes the head event. -/
  | eventTake (g : PondIx)
  /-- SCORE_DEAD. R123: the FIFO head has waited `us` µs more. -/
  | scoreDead (g : PondIx) (us : Nat)
  /-- PATROL_SCRUB. R139: a bank reads and corrects one line; `corr` words were corrected; `hour` ends an hour of counting. -/
  | patrolScrub (g : PondIx) (unit : Fin 17) (bank : Fin 34) (corr : Nat) (hour : Bool)
  /-- CACHE_MIB. R140: a write of the cache share. -/
  | cacheMib (g : PondIx) (c : Fin 8)
  /-- SPLIT_DONE. R140: the change of the split ends. -/
  | splitDone (g : PondIx)
  /-- CACHE_FILL. R141: the fill of line `l` returns. -/
  | cacheFill (g : PondIx) (l : Nat)
  /-- FLUSH. R144: a cache command over the range or the whole cache, with an optional spring. -/
  | flush (g : PondIx) (range : Bool) (spring : Fin 64) (sig : Bool)
  /-- INVAL. R144: a cache command over the range or the whole cache, with an optional spring. -/
  | inval (g : PondIx) (range : Bool) (spring : Fin 64) (sig : Bool)
  /-- FLINV. R144: a cache command over the range or the whole cache, with an optional spring. -/
  | flinv (g : PondIx) (range : Bool) (spring : Fin 64) (sig : Bool)
  /-- CACHE_CMD_DONE. R144: a cache command completes. -/
  | cacheCmdDone (g : PondIx)
  /-- DESCRIPTOR_START. R151: generator `n` starts its next descriptor. -/
  | descriptorStart (g : PondIx) (a : Fin 3) (n : Fin 4)
  /-- DESCRIPTOR_REQUEST. R150: generator `n` issues one request. -/
  | descriptorRequest (g : PondIx) (a : Fin 3) (n : Fin 4) (wait : GenWait)
  /-- DESCRIPTOR_COMPLETE. R151: a descriptor completes. -/
  | descriptorComplete (g : PondIx) (a : Fin 3) (n : Fin 4)
  /-- ABORT. R153: a write to AU_CTRL.ABORT. -/
  | abort (g : PondIx) (a : Fin 3) (n : Fin 4)
  /-- AU_DRAIN. R167: DRAIN is written, or the generators have become idle. -/
  | auDrain (g : PondIx) (a : Fin 3) (write : Bool)
  /-- AU_ERR_CLEAR. R153: 1s are written to AU_STATUS.ERR. -/
  | auErrClear (g : PondIx) (a : Fin 3) (mask : BitVec 4)
  /-- DRAM_REQUEST. R155: a channel controller serves the n-th held request. -/
  | dramRequest (f : FieldIx) (n dt : Nat) (ecc : Ecc)
  /-- DRAM_PATROL. R157: the patrol reads the burst at offset `o`. -/
  | dramPatrol (f : FieldIx) (o : BitVec 37) (ecc : Ecc) (pass : Bool)
  /-- DRAM_STATE. R158: the hottest stack sensor reads `temp`. -/
  | dramState (f : FieldIx) (temp : Nat)
  /-- DRAM_STOPPED. R158: the hold time of a stopped stack expires. -/
  | dramStopped (f : FieldIx)
  /-- CHANNEL_FAIL. R162: a channel fails in service. -/
  | channelFail (f : FieldIx) (ch : Fin 32)
  /-- READ. R240: the READ in flight `n` reaches its target. -/
  | read (n : Nat) (ecc : Ecc)
  /-- WRITE. R240: the WRITE in flight `n` reaches its target. -/
  | write (n : Nat)
  /-- QENTRY. R173: the queue entry in flight `n` arrives. -/
  | qentry (n : Nat)
  /-- SIGNAL. R192: the signal in flight `n` reaches its pond. -/
  | signal (n : Nat)
  /-- HELD_SIGNAL_APPLY. R192: held signals of the pond are applied. -/
  | heldSignalApply (g : PondIx) (dt : Nat)
  /-- RACC. R160: the RACC in flight `n` reaches its controller. -/
  | racc (seen : RaccSeen)
  /-- RELEASE. R189: the RELEASE in flight `n` arrives. -/
  | release (n : Nat)
  /-- RDATA. R238: the read response in flight `n` arrives. -/
  | rdata (n : Nat)
  /-- ACK. R238: the acknowledgement in flight `n` arrives. -/
  | ack (n : Nat)
  /-- NACK. R238: the negative acknowledgement in flight `n` arrives. -/
  | nack (n : Nat)
  /-- SIGACK. R191: the signal acknowledgement in flight `n` arrives. -/
  | sigack (n : Nat)
  /-- RESPONSE_TIMEOUT. R238: the `n`-th unanswered request times out. -/
  | responseTimeout (n : Nat)
  /-- SPILL_REFILL. R173: a freed slot refills. -/
  | spillRefill (g : PondIx) (t : Fin 16) (isOut : Bool) (q : Fin 8)
  /-- OQ_SEND. R171: the router takes an output-queue head. -/
  | oqSend (g : PondIx) (t : Fin 16)
  /-- WAIT. R178: a WAIT is at the head of a queue. -/
  | wait (g : PondIx) (t : Fin 16) (isOut : Bool) (q : Fin 8) (dt : Nat)
  /-- WAIT_TIMEOUT. R179: a WAIT is held beyond WAIT_LIMIT. -/
  | waitTimeout (g : PondIx) (t : Fin 16) (isOut : Bool) (q : Fin 8)
  /-- WAITER_PASS. R187: one spring evaluation. -/
  | waiterPass (g : PondIx)
  /-- SPRING_WRITE. R186: bytes of a spring are written. -/
  | springWrite (g : PondIx) (o : BitVec 10) (bs : List Byte)
  /-- SWITCH. R180: one core cycle of a switch unit. -/
  | switchUnit (g : PondIx) (t : Fin 16) (n : Fin 4) (dt : Nat)
  /-- MERGE. R180: one core cycle of a merge unit. -/
  | mergeUnit (g : PondIx) (t : Fin 16) (n : Fin 4) (dt : Nat)
  /-- GATE. R180: one core cycle of a gate unit. -/
  | gateUnit (g : PondIx) (t : Fin 16) (n : Fin 4) (dt : Nat)
  /-- BATCH_DEADLINE. R184: the deadline of a batch unit expires. -/
  | batchDeadline (g : PondIx) (t : Fin 16) (n : Fin 4)
  /-- SCAN_OUT. R194: the contexts of a partition are scanned out. -/
  | scanOut (p : PartIx)
  /-- SCAN_IN. R194: the contexts of a partition are scanned in. -/
  | scanIn (p : PartIx)
  /-- NOP. R322: the accepted command in `slot` is NOP. -/
  | nop (slot : Fin 1024)
  /-- SYSTEM. R322: SYSTEM. -/
  | system (slot : Fin 1024)
  /-- LOAD. R229: LOAD goes on; `bad`: words that do not scrub; `failed`: receivers that fail. -/
  | load (slot : Fin 1024) (bad : List (PondIx × TestFail)) (failed : List PondIx)
  /-- START. R422: START without RESTORE; `tests`: what self-tests find. -/
  | start (slot : Fin 1024) (tests : List (PondIx × TestFail))
  /-- START_RESTORE. R422: START with RESTORE. -/
  | startRestore (slot : Fin 1024) (tests : List (PondIx × TestFail))
  /-- PEER_UNPLACED. R216: remote fix-ups have stayed unpublished for 1 s. -/
  | peerUnplaced (slot : Fin 1024)
  /-- STOP. R322: STOP. -/
  | stop (slot : Fin 1024)
  /-- TEARDOWN. R425: TEARDOWN. -/
  | teardown (slot : Fin 1024) (bad : List (PondIx × TestFail))
  /-- TEARDOWN_SAVE. R425: TEARDOWN with SAVE. -/
  | teardownSave (slot : Fin 1024) (bad : List (PondIx × TestFail))
  /-- KILL. R424: KILL. -/
  | kill (slot : Fin 1024) (bad : List (PondIx × TestFail))
  /-- KILL_RETAIN. R426: KILL with RETAIN. -/
  | killRetain (slot : Fin 1024) (bad : List (PondIx × TestFail))
  /-- DMA_IN. R323: a transfer from host memory goes on. -/
  | dmaIn (slot : Fin 1024)
  /-- DMA_OUT. R323: a transfer to host memory goes on. -/
  | dmaOut (slot : Fin 1024)
  /-- DMA_DONE. R323: a transfer ends. -/
  | dmaDone (slot : Fin 1024)
  /-- WAIT_HUB. R325: a wait on a hub spring. -/
  | waitHub (slot : Fin 1024)
  /-- HOST_SIGNAL. R322: the SIGNAL command. -/
  | hostSignal (slot : Fin 1024)
  /-- SEAL. R226: SEAL. -/
  | seal (slot : Fin 1024)
  /-- POWER. R375: POWER; `avg`: the average of the draw over 10 ms in W. -/
  | power (slot : Fin 1024) (avg : Nat)
  /-- BRINGUP. R433: a warm bring-up goes on; `x`: what its tests find. -/
  | bringup (slot : Fin 1024) (x : BringFind)
  /-- BRINGUP_COLD. R432: a cold bring-up goes on; `x`: what its tests find. -/
  | bringupCold (x : BringFind)
  /-- FW_STAGE. R444: FW_STAGE; `flash`: the flash took the bundle. -/
  | fwStage (slot : Fin 1024) (flash : Bool)
  /-- FW_ACTIVATE. R444: FW_ACTIVATE with COMMIT = 0. -/
  | fwActivate (slot : Fin 1024)
  /-- FW_ACTIVATE_COMMIT. R445: FW_ACTIVATE with COMMIT = 1. -/
  | fwActivateCommit (slot : Fin 1024)
  /-- LICENCE_INSTALL. R448: LICENCE_INSTALL; `flash`: the flash took the blob. -/
  | licenceInstall (slot : Fin 1024) (flash : Bool)
  /-- ENROLL_KEY. R446: ENROLL_KEY. -/
  | enrollKey (slot : Fin 1024)
  /-- SUBMIT. R318: a read of SUBMIT. -/
  | submit (slot : Fin 1024)
  /-- SLOT_WRITE. R318: bytes are written to a slot. -/
  | slotWrite (slot : Fin 1024) (o : BitVec 8) (bs : List Byte)
  /-- HOST_INTERFACE_RESET. R314: a Function Level or hot reset, or link-down. -/
  | hostInterfaceReset (down : Bool)
  /-- HUB_CSR_WIN. R316: the pond of the tile window. -/
  | hubCsrWin (f : BitVec 6) (p : BitVec 9)
  /-- TILE_WINDOW_ACCESS. R316: an access through the tile window. -/
  | tileWindowAccess (a : RegOp)
  /-- BAR2_ACCESS. R317: an access through the aperture. -/
  | bar2Access (a : Bar2)
  /-- HUB_BAR2_BASE. R317: the aperture moves. -/
  | hubBar2Base (v : BitVec 7)
  /-- HOST_WINDOW_REQUEST. R325: the request in flight `n` goes to host memory. -/
  | hostWindowRequest (n : Nat)
  /-- NOTIFY_WRITE. R325: the write in flight `n` goes to the notify window. -/
  | notifyWrite (n : Nat)
  /-- HUB_HSPR. R325: the host replaces a hub spring. -/
  | hubHspr (m : Fin 64) (v : BitVec 32)
  /-- CLOG_EN. R326: a write of CLOG_EN. -/
  | clogEn (v : Bool)
  /-- CLOG_HEAD. R326: a write of HEAD. -/
  | clogHead (v : BitVec 32)
  /-- REFIN_WINDOW. R335: a monitor window of 10 µs ends. -/
  | refinWindow (edges : Nat) (missing : Bool)
  /-- CLOCK_FAIL. R337: REFIN fails. -/
  | clockFail (missing : Bool)
  /-- BEAT. R350: a beat boundary; `edges`: lakes that miscount, `slips`: errors of their copies of T. -/
  | beat (edges : List (LakeIx × Nat)) (slips : List (LakeIx × Int))
  /-- DROOP_ONSET. R342: the rail reads `mv`. -/
  | droopOnset (w : LakeIx) (mv : Nat)
  /-- DROOP_CLEAR. R342: 64 clean beats have passed. -/
  | droopClear (w : LakeIx)
  /-- SETTLE_WAIT_END. R344: the settle wait of a raise ends. -/
  | settleWaitEnd (w : LakeIx) (mv : Nat)
  /-- DIVIDER_SWITCH. R343: the dividers switch. -/
  | dividerSwitch (w : LakeIx)
  /-- PHASE_TRIM. R341: the generators step their trims; `skews`: border skews measured. -/
  | phaseTrim (skews : List (LakeIx × Fin 4 × Int))
  /-- WARM_SLEEP. R348: the lake goes warm asleep. -/
  | warmSleep (w : LakeIx)
  /-- COLD_SLEEP. R348: the lake goes cold asleep. -/
  | coldSleep (w : LakeIx)
  /-- WAKE_TRIGGER. R349: a wake trigger. -/
  | wakeTrigger (w : LakeIx)
  /-- WAKE_DONE. R349: the lake is awake. -/
  | wakeDone (w : LakeIx) (mv : Nat)
  /-- AUX_QUALIFIED. R356: AUX has been in range for 1 ms. -/
  | auxQualified (mv : Nat) (addr : Fin 8) (seated : Bool)
  /-- AUX_LOSS. R356: AUX is at `mv` for `us` µs. -/
  | auxLoss (mv us : Nat)
  /-- MAIN_QUALIFIED. R356: MAIN is at `mv`, in range, for `us` µs. -/
  | mainQualified (mv us : Nat)
  /-- MAIN_UNDERVOLTAGE. R356: MAIN is at `mv`, below 38 V, for `us` µs. -/
  | mainUndervoltage (mv us : Nat)
  /-- MAIN_LOSS. R356: MAIN is at `mv`, below 35 V or 33 V, for `us` µs. -/
  | mainLoss (mv us : Nat)
  /-- MAIN_OVERVOLTAGE. R356: MAIN is at `mv`, above 50 V, for `us` µs. -/
  | mainOvervoltage (mv us : Nat)
  /-- MOD_RESET_N. R358: the pin has been low for `ns` ns. -/
  | modResetN (ns : Nat)
  /-- WAFER_OFF. R362: an orderly power-down begins or goes on. -/
  | waferOff (late : Bool)
  /-- VR_ALERT_N. R365: the pin has been low for `ns` ns, or is high. -/
  | vrAlertN (low : Bool) (ns : Nat)
  /-- INTERNAL_ALERT. R365: an internal alert source appears or clears. -/
  | internalAlert (a : AlertSrc) (on : Bool)
  /-- CAP_COMPUTATION. R372: 100 µs have passed; `m`: what is measured. -/
  | capComputation (m : PowerMeas)
  /-- SLOPE_GRANT. R377: `us` µs of budget, and the oldest request. -/
  | slopeGrant (us : Nat)
  /-- SLEW_HOLD. R378: the draw rises by `rise` µW per µs. -/
  | slewHold (w : LakeIx) (rise cycles : Nat)
  /-- SENSOR_SAMPLE. R379: the lake sensors in steps of 0.25 °C. -/
  | sensorSample (w : LakeIx) (r0 r1 r2 r3 : Int)
  /-- THERM_STEP. R381: one ms has passed. -/
  | thermStep (w : LakeIx)
  /-- SHUT_RETURN. R384: a Shut lake returns; `tests`: what its self-tests find. -/
  | shutReturn (w : LakeIx) (tests : List (PondIx × TestFail))
  /-- OPAL_OFFER. R393: a test is offered; `idle`: tiles idle for 2,000 core cycles. -/
  | opalOffer (f : FieldIx) (idle : List (Fin 288 × BitVec 16))
  /-- OPAL_SEGMENT. R394: a segment ends with a signature. -/
  | opalSegment (g : PondIx) (t : Fin 16) (sig : BitVec 64)
  /-- OPAL_DUE. R392: the last pass is 24 hours old. -/
  | opalDue (g : PondIx) (t : Fin 16)
  /-- ERROR_RECORD_LOG. R403: the oldest record on its way is logged. -/
  | errorRecordLog (f : FieldIx)
  /-- RECOVERY. R407: recovery of a partition goes on. -/
  | recovery (p : PartIx)
  /-- TILE. R493: a tile reset; `bad`: a word does not read back as zero. -/
  | tile (g : PondIx) (t : Fin 16) (bad : Bool)
  /-- COLD. R418: a pond cold reset; `x`: what its self-test finds. -/
  | cold (g : PondIx) (x : TestFail)
  /-- DRAIN_END. R415: a drain ends or times out. -/
  | drainEnd (b : Boundary)
  /-- BROADCAST_CHUNK. R428: a chunk arrives at a receiver. -/
  | broadcastChunk (g : PondIx) (object chunk : Nat) (crc : BitVec 32) (len : Nat) (bs : List Byte)
  /-- BROADCAST_REPAIR. R429: the sender repairs what a receiver misses. -/
  | broadcastRepair (g : PondIx) (bs : List Byte) (rounds : Nat) (again : Bool)
  /-- LINK_CRC_ERROR. R235: a bad link CRC at port `q` of a router. -/
  | linkCrcError (router : Fin 221184) (q : Fin 4)
  /-- PACKET_HOP. R243: one cycle of an output port or a crossbar. -/
  | packetHop (x : HopAt)
  /-- ESCAPE_ENTRY. R244: the packet in flight `n` enters the escape channel. -/
  | escapeEntry (n : Nat)
  /-- TABLE_UPDATE. R253: the next step of a table update; `late`: its drain is 100 µs old. -/
  | tableUpdate (late : Bool)
  /-- MCAST. R255: a multicast is issued or served. -/
  | mcast (a : McastAct)
  /-- HOLD_SLOT_SEND. R257: a copy leaves its hold slot. -/
  | holdSlotSend (router : Fin 221184) (q : Fin 6) (dt : Nat)
  /-- REDUCE. R260: a REDUCE combines. -/
  | reduce (a : ReduceAct)
  /-- DATA_FRAME. R267: an optical frame is sent or received. -/
  | dataFrame (p : PortIx) (e : FrameEv)
  /-- NAK. R268: a NAK frame names SEQ. -/
  | nak (p : PortIx) (seq : BitVec 16)
  /-- PORT_TRAINING. R270: training goes on. -/
  | portTraining (p : PortIx) (e : TrainEv)
  /-- TRAINING_RETRY. R270: a down port tries again. -/
  | trainingRetry (p : PortIx)
  /-- LANE_DROP. R273: lanes fail. -/
  | laneDrop (p : PortIx) (lost : BitVec 16)
  /-- LASER_LOW. R276: wavelength `j` of supply `k` is low. -/
  | laserLow (k : Fin 12) (j : Fin 16)
  /-- LASER_LOST. R276: supply `k` has been dark for 10 µs. -/
  | laserLost (k : Fin 12)
  /-- PORT_DOWN. R283: a port fails. -/
  | portDown (p : PortIx)
  /-- SPARE_LIGHT. R284: a spare serves the pair. -/
  | spareLight (p : PortIx) (seen : SpareSeen)
  /-- RETRAIN. R270: a write of RETRAIN. -/
  | retrain (p : PortIx)
  /-- HOLD_DOWN. R283: a write of HOLD_DOWN. -/
  | holdDown (p : PortIx) (v : Bool)
  /-- PORT_EN. R292: a write of OPT_PCTRL.EN. -/
  | portEn (p : PortIx) (v : Bool)
  /-- RING_FRAME. R288: a ring frame arrives; `hop`, `regen`: delays in ps; `ppm`: the frequency error measured. -/
  | ringFrame (portB : Bool) (f : RingFrame) (hop regen : Nat) (ppm : BitVec 16)
  /-- RING_STATE. R291: the topology and the light found. -/
  | ringState (topo : Fin 4) (lightA lightB cut : Bool)
  /-- RING_EN. R290: a write of SVC_RING_CTRL.EN. -/
  | ringEn (v locked : Bool)
  /-- CONTRIBUTING_QUEUE_ENTRY. R300: a contributing queue sends its entry. -/
  | contributingQueueEntry (g : PondIx) (t : Fin 16) (q : Fin 8)
  /-- START_MARKER. R306: the start marker in flight `n` arrives. -/
  | startMarker (n dt : Nat)
  /-- MEMORY_MODE_COMBINE. R304: a context in memory mode combines. -/
  | memoryModeCombine (f : FieldIx) (c : Fin 16) (p : Fin 2)
  /-- COLL_TIMEOUT. R308: a context times out. -/
  | collTimeout (f : FieldIx) (c : Fin 16)
  /-- EXPORT_RECEIVED. R216: rank `r` publishes the ponds of a partition. -/
  | exportReceived (r : BitVec 6) (part : PartIx) (sites : List (Nat × PondIx))
  /-- HUB_BOOT. R443: the boot ROM boots; `a`, `b`: whether slots A and B reach state 1 in 2 s. -/
  | hubBoot (a b : Bool)
  /-- FW_TRIAL_FAILED. R443: the hub restarts after a failed trial. -/
  | fwTrialFailed (a b : Bool)
  /-- NEGOTIATE_ALGORITHMS. R439; `ok`: the requester offers the algorithms. -/
  | negotiateAlgorithms (ok : Bool)
  /-- GET_CERTIFICATE. R439. -/
  | getCertificate (slot : Fin 8) (o n : BitVec 16)
  /-- CHALLENGE. R439. -/
  | challenge (slot : Fin 8) (nonce : Entry)
  /-- GET_MEASUREMENTS. R441. -/
  | getMeasurements (idx : BitVec 8) (nonce : Entry)
  /-- KEY_EXCHANGE. R439. -/
  | keyExchange (slot : Fin 8) (nonce : Entry)
  /-- FINISH. R439; `ok`: the verify data is right. -/
  | finish (ok : Bool)
  /-- KEY_PROG. R451: a key for a set, a direction and a sub-stream. -/
  | keyProg (set dir : Fin 2) (sub : Fin 3) (key : Entry)
  /-- K_SET_GO. R451: a direction and sub-stream switch sets. -/
  | kSetGo (set dir : Fin 2) (sub : Fin 3)
  /-- SVC_TELEM_SEL. R466: a counter is selected. -/
  | svcTelemSel (addr : DWord)
  /-- WRAP_WRITE_IGNORED. R465: a wrap register is written. -/
  | wrapWriteIgnored (u : UnitId) (o v : Nat)
  /-- COUNTER_READ_LOW. R456: half of a counter is read. -/
  | counterReadLow (u : UnitId) (o : Nat) (high : Bool) (who : Fin 4)
  /-- COOLANT_SAMPLE. R472: the coolant temperatures in steps of 0.25 °C. -/
  | coolantSample (inlet outlet : Int)
  /-- LASER_PERMIT_N. R484: the supply connector is seated or unseated. -/
  | laserPermitN (seated : Bool)
  /-- SMB_WAFER_OFF. R480: an SMBus write to WAFER_OFF. -/
  | smbWaferOff (v : Byte) (pec : Bool)
  /-- SAMPLE_PRELOAD. R481. -/
  | samplePreload (cells : List Bool)
  /-- ALERT_LASTS_100_MS. R368: an alert has lasted 100 ms. -/
  | alertLasts (a : AlertSrc)
  /-- OSCILLATOR_PHASE_LOCKED. R336: the oscillator is locked to REFIN. -/
  | oscillatorLocked (ppm : BitVec 16)
  /-- LOWERING_RAIL_SETTLED. R345: the rail is within 10 mV of the new voltage. -/
  | loweringSettled (w : LakeIx) (mv : Nat)
  /-- BUS_MASTER_ENABLE. R314: Bus Master Enable over a link of `width` and `rate`. -/
  | busMasterEnable (v : Bool) (width : BitVec 5) (rate : BitVec 3)
  /-- PTM_EXCHANGE. R313: a Precision Time Measurement exchange. -/
  | ptmExchange (host : DWord)
  /-- PERST. R482: PERST# is asserted. -/
  | perst
  /-- RETURN. R338: a write of RETURN. -/
  | refinReturn
  /-- AUTO_RETURN. R338: the clock returns by itself. -/
  | autoReturn
  /-- TRIM_STORE. R333: the trim is stored. -/
  | trimStore
  /-- TIME_RELOAD. R351: the hub sends its time. -/
  | timeReload
  /-- MOD_RESET_N_RELEASE. R358: the pin is released. -/
  | modResetRelease
  /-- POWER_UP. R360: the rails come up. -/
  | powerUp
  /-- RAIL_FAULT. R360: a rail is not in regulation in time. -/
  | railFault
  /-- ALERT_EPISODE_END. R367: every source has cleared. -/
  | alertEpisodeEnd
  /-- FLOOR_LIFT. R367: the hold expires. -/
  | floorLift
  /-- MODULE_LOG_APPEND. R404: the records that wait enter the module log. -/
  | moduleLogAppend
  /-- GET_VERSION. R439. -/
  | getVersion
  /-- GET_CAPABILITIES. R439. -/
  | getCapabilities
  /-- GET_DIGESTS. R439. -/
  | getDigests
  /-- END_SESSION. R439. -/
  | endSession
  /-- IDE_INTEGRITY_FAIL. R451: an integrity check fails. -/
  | ideIntegrityFail
  /-- TELEM_SWEEP. R462: Geper sweeps the counters. -/
  | telemSweep
  /-- PWR_STAT. R480: an SMBus read. -/
  | smbPwrStat
  /-- MAIN_V. R480: an SMBus read. -/
  | smbMainV
  /-- MAIN_W. R480: an SMBus read. -/
  | smbMainW
  /-- AUX_V. R480: an SMBus read. -/
  | smbAuxV
  /-- WAFER_TEMP. R480: an SMBus read. -/
  | smbWaferTemp
  /-- COOL_IN. R480: an SMBus read. -/
  | smbCoolIn
  /-- COOL_OUT. R480: an SMBus read. -/
  | smbCoolOut
  /-- CAP_W. R480: an SMBus read. -/
  | smbCapW
  /-- FLAGS. R480: an SMBus read. -/
  | smbFlags
  /-- SERIAL. R480: an SMBus read. -/
  | smbSerial
  /-- LAST_OFF. R480: an SMBus read. -/
  | smbLastOff
  /-- ALERT_RESPONSE. R480: a read of the Alert Response Address. -/
  | alertResponse
  /-- BYPASS. R481. -/
  | jtagBypass
  /-- IDCODE. R481. -/
  | jtagIdcode
  /-- EXTEST. R481. -/
  | extest
  deriving DecidableEq, Repr

end Sys2Proof
end

