-- ==== Sys2Proof/Machine/State.lean ====
section
/-! DEFINITION. The machine's state as plain data, its faults and refusals, and the state after reset. -/

namespace Sys2Proof.Machine

/-- Everything the spec gives the machine, and the queue of waiting commands. -/
structure State where
  /-- Register fields (R6): keyed by `Fld.key`; unlisted fields hold their reset value. -/
  regs : Tab Nat
  /-- Core local memory, pond memory and DRAM: keyed by engine address bits [51:0] (R18); unlisted bytes read 0. -/
  mem : Tab Byte
  /-- SRAM words (8-byte aligned) and DRAM bursts (64-byte aligned) with an uncorrectable error (R137, R157). -/
  bad : Tab Bool
  /-- Host memory as the hub reads and writes it. -/
  hostMem : Tab Byte
  /-- Tile queues: key 16·tile + q, output queues at +8. -/
  queues : Tab TQueue
  /-- Steering units: key 4·tile + unit. -/
  steers : Tab Steer
  /-- Springs: key 64·pond + n. -/
  springs : Tab Spring
  waiters : List Waiter
  /-- Spring evaluations of each pond so far (orders waiters, R187). -/
  evals : Tab Nat
  /-- Sender tables: key 8·tile + sub (R189). -/
  senders : Tab (List SendEnt)
  /-- Arrival tables by pond (R190). -/
  arrivals : Tab (List ArrEnt)
  mcores : Tab MCore
  vcores : Tab VCore
  scores : Tab SCore
  /-- Generators: key 4·tile + g. -/
  gens : Tab Gen
  pmem : Tab PondMem
  /-- Opal tests: key 16·pond + tile. -/
  opal : Tab OpalT
  /-- R456: the high half each requester has latched: key 4·unit index + requester; register offset + 1 and value. -/
  latches : Tab (Nat × Nat)
  /-- R194: saved contexts: key 16384·partition + logical pond (DESIGN CHOICE, log entry 18). -/
  saved : Tab PondCtx
  /-- Events raised and not yet entered in an event FIFO (R122): pond and event, oldest first. -/
  events : List (Nat × SEvent)
  net : NetSt
  err : ErrSt
  /-- Factory and overlay defect maps (R21, R24). -/
  factory : DMap
  overlay : DMap
  parts : Tab Part
  img : ImgSt
  /-- DRAM controllers by field. -/
  drams : Tab DramSt
  /-- Collective contexts: key 16·field + context (R297). -/
  colls : Tab Coll
  /-- R416: tiles (index 16·pond + tile) whose reset boundary is closed. -/
  closed : List Nat
  /-- R415: those of them whose drain has ended. -/
  drainDone : List Nat
  /-- R420: self-tests of the ponds. -/
  tests : Tab PTest
  /-- Global time T of the current beat boundary (R350). -/
  time : Nat
  clk : ClkSt
  hub : HubSt
  trust : TrustSt
  /-- Optical ports (R265–R285). -/
  ports : Tab PortSt
  ring : RingSt
  ref : RefSt
  /-- Lake sequencers (R339–R349, R379–R384). -/
  lakes : Tab LakeSt
  pwr : PowerSt
  /-- R464: Geper's totals: key 2·counter + field-independent number of the counter. -/
  telem : Tab Telem
  /-- Free values drawn so far. -/
  free : Nat
  pending : List Instr
  deriving DecidableEq, Repr

/-- R21, R25: the factory map of a module without failed units, of the first grade (DESIGN CHOICE, log entry 10). -/
def DMap.good : DMap :=
  { tile := [], pond := [], lake := [], field := (List.range 48).map (fun f => (f, 2 * 96)), seq := 0, grade := 0x0A,
    magic := 0x444D4150, version := 1, flags := 0, serial := Config.moduleSerial, mcores := 110592, ponds := 13824, gib := 4608,
    bodyLen := 553920, sig := Config.factorySig }

/-- R21, R24: an overlay that nothing has been written to. -/
def DMap.empty : DMap :=
  { tile := [], pond := [], lake := [], field := [], seq := 0, grade := 0, magic := 0x444D4150, version := 1, flags := 1,
    serial := Config.moduleSerial, mcores := 110592, ponds := 13824, gib := 4608, bodyLen := 553920, sig := [] }

/-- R437–R451: slot A runs, no key is enrolled, C is 0, no licence is installed (DESIGN CHOICE, log entry 10). -/
def TrustSt.init : TrustSt :=
  { configKey := 0, c := 0, slotA := ⟨true, 0, 0, 0, 0⟩, slotB := FwSlot.empty, active := 0, trial := 0, running := 0,
    failed := 0, lics := [], recovery := false, conn := 0, exchange := false, session := false, keys := [], sets := [],
    aer := false }

/-- R356–R360: AUX qualified, MAIN not yet, the wafer without power (DESIGN CHOICE, log entry 10). -/
def PowerSt.init : PowerSt :=
  { mapOk := true, step := 0, cause := 0, faulted := false, upAt := 0, modReset := false, smbSeen := 0, sources := [],
    episode := false, postedExt := false, postedInt := false, ended := 0, capTime := 0, trim := 0, budget := 0, reqs := [],
    started := false, stackPrev := [], coolPrev := 0, coolClear := 0, boundary := [], jtag := 1 }

/-- The hub once its firmware runs: nothing accepted, nothing held. -/
def HubSt.init : HubSt :=
  { held := [], lost := 0, msix := [], msixTable := [], busMaster := false, slots := [], cmds := [], gen := 0, warm := false, sysRank := 0,
    sysSize := 1, reply := ⟨0, []⟩ }

/-- R360, R361: the module after AUX has come up and its firmware has started: power state 1, every register at its reset
value, the wafer without power, every memory zero, nothing in flight, no command waiting (DESIGN CHOICE, log entry 10). -/
def State.reset : State :=
  { regs := [], mem := [], bad := [], hostMem := [], queues := [], steers := [], springs := [], waiters := [], evals := [],
    senders := [], arrivals := [], mcores := [], vcores := [], scores := [], gens := [], pmem := [], opal := [], latches := [],
    saved := [], events := [], net := NetSt.init [], err := ⟨[], [], [], [], []⟩, factory := DMap.good, overlay := DMap.empty,
    parts := [], img := ImgSt.init, drams := [], colls := [], closed := [], drainDone := [], tests := [], time := 0,
    clk := ⟨20, false, 49, 0, 0, []⟩, hub := HubSt.init, trust := TrustSt.init, ports := [], ring := RingSt.init,
    ref := RefSt.init 0, lakes := [], pwr := PowerSt.init, telem := [], free := 0, pending := [] }

/-- Reasons a step faults: none, every command of this block runs (DESIGN CHOICE, log entry 1). -/
inductive Fault where
  /-- Never raised: kept so that the type is inhabited; safe. -/
  | none
  deriving DecidableEq, Repr

/-- Reasons a step is refused. -/
inductive Refusal where
  /-- Raised by `exec` for a command that has no meaning yet; safe. -/
  | notModelled (mnemonic : String)
  deriving DecidableEq, Repr

end Sys2Proof.Machine
end

