-- ==== Sys2Proof/Machine/Ops.lean ====
section
/-! DEFINITION. The named operations every meaning is built from: registers and counters, memory, defect maps,
partitions, time, error records, S-core events and host records. -/

namespace Sys2Proof.Machine

/-! Registers (R6). -/

/-- Reset value of a field in a unit: the spec's constant, or one that follows from the unit's place (R61, R292,
R354). -/
def Fld.rstIn (u : UnitId) (f : Fld) (i : Nat) : Nat :=
  match u with
  | .tile _ t => if f = Reg.mcoreIdPos ∨ f = Reg.rtrIdPos then t else f.rst
  | .lake w => if f = Reg.lakeIdLake then w
      else if f = Reg.lakeVfOffset then Config.lakeOffset w % 256
      else if f = Reg.lakePwrLeak then Config.lakeLeak w % 4096
      else f.rst
  | .opt fl => if f = Reg.optLaserSupply then fl / 4
      else if f = Reg.optPstatSpare then (if 4 * fl + i = 61 ∨ 4 * fl + i = 125 ∨ 4 * fl + i = 189 then 1 else 0)
      else f.rst
  | _ => f.rst

/-- Field `f` of the `i`-th register of its kind in unit `u`. -/
def State.rdi (s : State) (u : UnitId) (f : Fld) (i : Nat) : Nat :=
  s.regs.get (f.key u i) (f.rstIn u i)

/-- Field `f` of unit `u`. -/
def State.rd (s : State) (u : UnitId) (f : Fld) : Nat := s.rdi u f 0

/-- Set a field to a value cut to the field's width. -/
def State.wri (s : State) (u : UnitId) (f : Fld) (i v : Nat) : State :=
  { s with regs := s.regs.set (f.key u i) (f.rstIn u i) (v % 2 ^ f.width) }

/-- Set a field of unit `u`. -/
def State.wr (s : State) (u : UnitId) (f : Fld) (v : Nat) : State := s.wri u f 0 v

/-- A one-bit field as a Bool. -/
def State.flag (s : State) (u : UnitId) (f : Fld) : Bool := decide (s.rd u f = 1)

/-- Set one bit of a field to 1. -/
def State.setBiti (s : State) (u : UnitId) (f : Fld) (i b : Nat) : State :=
  if (s.rdi u f i).testBit b then s else s.wri u f i (s.rdi u f i + 2 ^ b)

/-- Clear one bit of a field. -/
def State.clrBiti (s : State) (u : UnitId) (f : Fld) (i b : Nat) : State :=
  if (s.rdi u f i).testBit b then s.wri u f i (s.rdi u f i - 2 ^ b) else s

/-- A 48-bit counter counts `n` and sets its sticky wrap bit when it wraps (R457). -/
def State.counti (s : State) (u : UnitId) (f : Fld) (i : Nat) (w : Fld) (wi bit n : Nat) : State :=
  let v := s.rdi u f i + n
  let s := s.wri u f i (v % 2 ^ 48)
  if v < 2 ^ 48 then s else s.setBiti u w wi bit

/-- `counti` for a counter and a wrap register that are one of a kind. -/
def State.count (s : State) (u : UnitId) (f w : Fld) (bit n : Nat) : State := s.counti u f 0 w 0 bit n

/-- A 32-bit counter that saturates at 0xFFFF_FFFF. -/
def State.sati (s : State) (u : UnitId) (f : Fld) (i n : Nat) : State :=
  s.wri u f i (min (s.rdi u f i + n) 0xFFFFFFFF)

/-- `sati` for a counter that is one of a kind. -/
def State.sat (s : State) (u : UnitId) (f : Fld) (n : Nat) : State := s.sati u f 0 n

/-- Drop every register of the units `p` selects back to its reset value. -/
def State.resetRegs (s : State) (p : Nat → Nat → Bool) : State :=
  { s with regs := s.regs.clear (fun k => p (k / 64 / 2 ^ 23) (k / 64 % 2 ^ 23)) }

/-! Free values. -/

/-- The next value the spec leaves open (DESIGN CHOICE, log entry 5). -/
def State.freeNat (s : State) : Nat := Config.freeValue s.free

/-- The state after a free value has been drawn. -/
def State.drawn (s : State) : State := { s with free := s.free + 1 }

/-! Places (R9–R11, R18). -/

/-- Field of wafer pond g. -/
def fieldOf (g : Nat) : Nat := g / 288
/-- Index of wafer pond g in its field. -/
def pondIn (g : Nat) : Nat := g % 288
/-- R11: the wafer lake of wafer pond g. -/
def lakeOf (g : Nat) : Nat :=
  let p := g % 288
  12 * (g / 288) + 4 * (p / 16 / 6) + p % 16 / 4

/-- R10: the tile types. -/
inductive TileType where
  | m | v | a | s
  deriving DecidableEq, Repr

/-- R10: the type at a position. -/
def tileType (t : Nat) : TileType :=
  match t with
  | 1 => .v | 7 => .v | 8 => .v | 14 => .v
  | 3 => .a | 10 => .a | 12 => .a
  | 5 => .s
  | _ => .m

/-- Position of the n-th M-core of a pond. -/
def mPos (n : Nat) : Nat := [0, 2, 4, 6, 9, 11, 13, 15].getD n 0
/-- Position of the n-th V-core of a pond. -/
def vPos (n : Nat) : Nat := [1, 7, 8, 14].getD n 1
/-- Position of the n-th A-unit of a pond. -/
def aPos (n : Nat) : Nat := [3, 10, 12].getD n 3

/-- R9: global tile coordinates. -/
def tileX (g t : Nat) : Nat := 64 * (g / 288 % 8) + 4 * (g % 288 % 16) + t % 4
/-- R9: global tile coordinates. -/
def tileY (g t : Nat) : Nat := 72 * (g / 288 / 8) + 4 * (g % 288 / 16) + t / 4
/-- The tile index 16·g + t of global coordinates. -/
def tileAt (x y : Nat) : Nat :=
  let f := 8 * (y / 72) + x / 64
  let p := 16 * (y % 72 / 4) + x % 64 / 4
  16 * (288 * f + p) + 4 * (y % 4) + x % 4

/-! Memory (R18, R128). -/

/-- Memory key of an offset in a space: engine address bits [51:0]. -/
def memKey (space off : Nat) : Nat := space * 2 ^ 48 + off
/-- R18: offset of core local byte o of tile t in wafer pond g. -/
def coreOff (g t o : Nat) : Nat := (g / 288) * 2 ^ 37 + (g % 288) * 2 ^ 28 + t * 2 ^ 23 + o
/-- R18: memory key of a core local byte. -/
def coreKey (g t o : Nat) : Nat := memKey 2 (coreOff g t o)
/-- R18: memory key of a pond memory byte. -/
def pondKey (g o : Nat) : Nat := memKey 1 (coreOff g 16 o)
/-- R18: memory key of a DRAM byte of field f. -/
def dramKey (f o : Nat) : Nat := memKey 0 (f * 2 ^ 37 + o)

/-- Little-endian value of bytes. -/
def leNat : List Byte → Nat
  | [] => 0
  | b :: r => b.toNat + 256 * leNat r

/-- The n low bytes of a number, little-endian. -/
def leBytes : Nat → Nat → List Byte
  | 0, _ => []
  | n + 1, v => BitVec.ofNat 8 v :: leBytes n (v / 256)

/-- Read one byte. -/
def Tab.byte (m : Tab Byte) (k : Nat) : Byte := Tab.get m k 0
/-- Read n bytes. -/
def Tab.bytes (m : Tab Byte) (k n : Nat) : List Byte := (List.range n).map (fun i => Tab.byte m (k + i))
/-- Write bytes. -/
def Tab.putBytes (m : Tab Byte) (k : Nat) : List Byte → Tab Byte
  | [] => m
  | b :: r => Tab.putBytes (Tab.set m k 0 b) (k + 1) r

/-- The canonical form of a memory: addresses strictly rising, no entry that reads 0. -/
def Memory.wf (m : Tab Byte) : Bool := Tab.wf m (fun _ => 0)

/-- Little-endian number of n bytes of wafer memory. -/
def State.memNat (s : State) (k n : Nat) : Nat := leNat (s.mem.bytes k n)
/-- Write bytes of wafer memory. -/
def State.putMem (s : State) (k : Nat) (bs : List Byte) : State := { s with mem := s.mem.putBytes k bs }
/-- Zero a range of wafer memory. -/
def State.zeroMem (s : State) (lo n : Nat) : State :=
  { s with mem := s.mem.clear (fun k => decide (lo ≤ k) && decide (k < lo + n)) }

/-- Bytes of a bit vector, little-endian. -/
def bvBytes {n : Nat} (k : Nat) (v : BitVec n) : List Byte := leBytes k v.toNat
/-- An entry from bytes. -/
def entryOf (bs : List Byte) : Entry := BitVec.ofNat 256 (leNat bs)

/-- R136, R137: does a range of SRAM touch a word with an uncorrectable error? -/
def State.sramBad (s : State) (k n : Nat) : Bool :=
  s.bad.any (fun e => decide (e.1 < k + n) && decide (k < e.1 + 8) && decide (2 ^ 48 ≤ e.1))

/-- R157: does a DRAM range touch a burst with an uncorrectable error? -/
def State.dramBad (s : State) (k n : Nat) : Bool :=
  s.bad.any (fun e => decide (e.1 < k + n) && decide (k < e.1 + 64) && decide (e.1 < 2 ^ 48))

/-- R137: a full 8-byte write clears a word's error: the words wholly inside a written range. -/
def State.healSram (s : State) (k n : Nat) : State :=
  { s with bad := s.bad.filter (fun e => !(decide (k ≤ e.1) && decide (e.1 + 8 ≤ k + n) && decide (2 ^ 48 ≤ e.1))) }

/-- R137: would a write of this range change only part of a bad word? -/
def State.partialBad (s : State) (k n : Nat) : Bool :=
  s.bad.any (fun e => decide (2 ^ 48 ≤ e.1) && decide (e.1 < k + n) && decide (k < e.1 + 8)
    && !(decide (k ≤ e.1) && decide (e.1 + 8 ≤ k + n)))

/-! Defect maps (R21–R26). -/

/-- Working tile word (R22). -/
def State.tileW (s : State) (g t : Nat) : Nat :=
  s.factory.tile.get (16 * g + t) 0 ||| s.overlay.tile.get (16 * g + t) 0
/-- R23, R263: the unit that answers at register offset o of a tile is failed: the router for the RTR_ registers (from 0x400), which
work on where only the core is failed; else the core (DEDUCED, log entry 31). -/
def State.csrFailed (s : State) (g t o : Nat) : Bool := (s.tileW g t).testBit (if 0x400 ≤ o then 1 else 0)
/-- Working pond word. -/
def State.pondW (s : State) (g : Nat) : Nat := s.factory.pond.get g 0 ||| s.overlay.pond.get g 0
/-- Working lake byte. -/
def State.lakeW (s : State) (w : Nat) : Nat := s.factory.lake.get w 0 ||| s.overlay.lake.get w 0
/-- Number of set bits among the low n. -/
def bitCount (n v : Nat) : Nat := ((List.range n).filter (fun i => v.testBit i)).length

/-- The failure bits of a working field word, its usable-DRAM value left out. -/
def State.fieldMarks (s : State) (f : Nat) : Nat :=
  let w := s.factory.field.get f 0 ||| s.overlay.field.get f 0
  w % 2 + w / 2 ^ 8 * 2 ^ 8
/-- R155: good DRAM channels of a field in the working map. -/
def State.goodChans (s : State) (f : Nat) : Nat := 32 - bitCount 32 (s.fieldMarks f / 256)
/-- R155: usable DRAM of a field in GiB, 3 for each good channel. -/
def State.usableGib (s : State) (f : Nat) : Nat := 3 * s.goodChans f
/-- R22, R155: the working field word: what either map marks failed, and in bits [7:1] the usable DRAM that it records. -/
def State.fieldW (s : State) (f : Nat) : Nat := s.fieldMarks f + 2 * s.usableGib f

/-- R17, R22: the field is supervised, by its own supervisor or by its pair's. -/
def State.supervised (s : State) (f : Nat) : Bool :=
  let failed (x : Nat) : Bool := (s.fieldW x).testBit 0 || s.err.supvFailed.contains x
  let pair := 8 * (f / 8) + ((f % 8) ^^^ 1)
  !failed f || !failed pair

/-- Whether the field's own supervisor works. -/
def State.supvWorks (s : State) (f : Nat) : Bool := !((s.fieldW f).testBit 0 || s.err.supvFailed.contains f)

/-- R23: the pond is good. -/
def State.goodPond (s : State) (g : Nat) : Bool :=
  !(s.tileW g 5).testBit 0 && decide (bitCount 34 (s.pondW g) ≤ 2)
    && [3, 10, 12].any (fun t => !(s.tileW g t).testBit 0)
    && !(s.lakeW (lakeOf g)).testBit 0 && !(s.lakeW (lakeOf g)).testBit 1 && s.supervised (fieldOf g)

/-- R23: the M-core is good. -/
def State.goodMcore (s : State) (g t : Nat) : Bool :=
  s.goodPond g && !(s.tileW g t).testBit 0 && decide (s.tileW g t / 64 % 16 ≠ 15)

/-- R26: the working counts of good M-cores, good ponds and usable GiB. -/
def State.goodCounts (s : State) : Nat × Nat × Nat :=
  let ponds := (List.range numPonds).filter s.goodPond
  ((ponds.map (fun g => ((List.range 8).filter (fun n => s.goodMcore g (mPos n))).length)).sum, ponds.length,
    ((List.range 48).map s.usableGib).sum)

/-- R2: the counts a grade byte guarantees. -/
def gradeCounts (grade : Nat) : Nat × Nat × Nat :=
  if grade = 0x0A then (107520, 13440, 4416) else if grade = 0x0B then (103680, 12960, 4416) else (96768, 12096, 4416)

/-! Partitions. -/

/-- The partition whose placement holds wafer pond g. -/
def State.partOf (s : State) (g : Nat) : Option Nat :=
  (s.parts.find? (fun e => e.2.sites.any (fun x => x.2 = g))).map (fun e => e.1)

/-- PART byte of a record about wafer pond g (R400). -/
def State.partByte (s : State) (g : Nat) : Nat := (s.partOf g).getD 0xFF

/-! Time (R350, R351). -/

/-- The stamp of the hub, the service controller and the supervisors. -/
def State.now (s : State) : Nat := (s.time + (if s.clk.half then s.clk.beatL / 2 else 0)) % 2 ^ 64

/-- Global time read in lake w at core cycle c of a beat of n edges. -/
def State.lakeNow (s : State) (w c n : Nat) : Nat :=
  ((s.time : Int) + s.clk.lakeOff.get w 0 + (s.clk.beatL * c / Max.max n 1 : Nat)).toNat % 2 ^ 64

/-! The completion log (R326–R330). -/

/-- R326: the log is full. -/
def State.logFull (s : State) : Bool :=
  decide ((s.rd .hub Reg.hubClogHeadHead + 4096) % 2 ^ 32 = s.rd .hub Reg.hubClogTailTail)

/-- R327: the bytes of record n. -/
def CRec.bytes (r : CRec) (n : Nat) : List Byte :=
  leBytes 8 r.handle ++ leBytes 2 r.status ++ leBytes 1 r.opcode
    ++ leBytes 1 ((n / 4096) % 2 + (if r.event then 2 else 0) + (if r.run then 4 else 0))
    ++ leBytes 1 r.part ++ leBytes 1 0 ++ leBytes 2 r.aux ++ leBytes 8 r.time ++ leBytes 8 r.detail

/-- One MSI-X message on a vector. -/
def State.sendMsix (s : State) (v : Nat) : State :=
  { s with hub := { s.hub with msix := s.hub.msix.set v 0 (s.hub.msix.get v 0 + 1) } }

/-- R318: the slot of a command whose record has been written is zeroed and freed. -/
def State.freeSlot (s : State) (n : Nat) : State :=
  { s with hub := { s.hub with
    slots := s.hub.slots.clear (fun k => decide (k / 256 = n))
    cmds := s.hub.cmds.filter (fun c => decide (c.slot ≠ n)) } }

/-- R326, R327: write one record at TAIL and send its message. -/
def State.writeRec (s : State) (r : CRec) : State :=
  let s := if r.event || r.run then s else s.freeSlot (r.handle % 1024)
  let n := s.rd .hub Reg.hubClogTailTail
  let at_ := s.rd .hub Reg.hubClogBaseBase * 2 ^ 12 + 32 * (n % 4096)
  let s := { s with hostMem := s.hostMem.putBytes at_ (r.bytes n) }
  let s := s.wr .hub Reg.hubClogTailTail (n + 1)
  -- R321: VEC 0 asks for no message
  let v := if r.event then s.rd .hub Reg.hubEvtCfgVec else r.vec
  if v = 0 then s else s.sendMsix v

/-- R329: write held records while the log is enabled, has room and the hub is bus master. -/
def State.flushLog : Nat → State → State
  | 0, s => s
  | n + 1, s =>
    match s.hub.held with
    | [] => s
    | r :: rest =>
      if s.flag .hub Reg.hubCtrlClogEn && s.hub.busMaster && !s.logFull then
        State.flushLog n (({ s with hub := { s.hub with held := rest } } : State).writeRec r)
      else s

/-- Events held. -/
def State.heldEvents (s : State) : Nat := (s.hub.held.filter (fun r => r.event)).length

/-- R329: flush, post EVENTS_LOST once the buffer has room, and show back-pressure. -/
def State.settleLog (s : State) : State :=
  let s := State.flushLog s.hub.held.length s
  let s := if s.hub.lost ≠ 0 ∧ s.heldEvents < 256 then
      State.flushLog (s.hub.held.length + 1)
        { s with hub := { s.hub with lost := 0, held := s.hub.held ++
          [(⟨0, 0, 0x18, true, false, 0xFF, 0, s.now, s.hub.lost, 0⟩ : CRec)] } }
    else s
  s.wr .hub Reg.hubStatusCompletionBackpressure
    (if s.logFull && s.hub.held.any (fun r => !r.event) then 1 else 0)

/-- R327–R329: form a completion or run report. -/
def State.postCompletion (s : State) (handle cls code opcode part aux detail vec : Nat) (run : Bool) : State :=
  ({ s with hub := { s.hub with held := s.hub.held ++
      [(⟨handle, cls + 256 * code, opcode, false, run, part, aux, s.now, detail, vec⟩ : CRec)] } } : State).settleLog

/-- R329, R330: post an event; a full event buffer drops it, except an event of NMI class, which is also latched and
raises vector 0. -/
def State.postEvent (s : State) (code status aux detail part : Nat) : State :=
  let nmi := code = 1 ∨ code = 2 ∨ code = 3
  let s := if nmi then (s.setBiti .hub Reg.hubNmiStatNmi 0 (code - 1)).sendMsix 0 else s
  if s.heldEvents < 256 ∨ nmi then
    ({ s with hub := { s.hub with held := s.hub.held ++
        [(⟨0, status, code, true, false, part, aux, s.now, detail, 0⟩ : CRec)] } } : State).settleLog
  else ({ s with hub := { s.hub with lost := s.hub.lost + 1 } } : State).sat .hub Reg.hubEvtLost 1

/-! Overlay (R24, R26). -/

/-- R22: the bytes 0x0–0x8_73FF of a map, its header and body, over which it is signed. -/
def DMap.bytes (m : DMap) : List Byte :=
  leBytes 4 m.magic ++ leBytes 2 m.version ++ leBytes 2 m.flags ++ ((m.serial ++ List.replicate 16 0).take 16) ++ leBytes 1 m.grade
    ++ leBytes 3 0 ++ leBytes 4 m.mcores ++ leBytes 4 m.ponds ++ leBytes 4 m.gib ++ leBytes 4 m.bodyLen ++ leBytes 4 m.seq
    ++ leBytes 16 0
    ++ (List.range 221184).flatMap (fun i => leBytes 2 (m.tile.get i 0)) ++ (List.range 13824).flatMap (fun i => leBytes 8 (m.pond.get i 0))
    ++ (List.range 576).flatMap (fun i => leBytes 1 (m.lake.get i 0)) ++ (List.range 48).flatMap (fun i => leBytes 8 (m.field.get i 0))

/-- R26: post GRADE_SHORTFALL when a count of the working map, `old` before, has fallen below that of the module's grade. -/
def State.gradeCheck (s : State) (old : Nat × Nat × Nat) : State :=
  let c := s.goodCounts
  let need := gradeCounts s.factory.grade
  let falls (was now least : Nat) : Bool := decide (least ≤ was) && decide (now < least)
  if falls old.1 c.1 need.1 || falls old.2.1 c.2.1 need.2.1 || falls old.2.2 c.2.2 need.2.2 then
    s.postEvent 0x11 0 0 (c.1 + c.2.1 * 2 ^ 17 + c.2.2 * 2 ^ 31) 0xFF
  else s

/-- R21, R22: the overlay as the service controller signs it, with the counts of the working map in its header (DESIGN CHOICE, log
entry 8). -/
def State.signOverlay (s : State) : State :=
  let c := s.goodCounts
  let m := { s.overlay with
    mcores := c.1
    ponds := c.2.1
    gib := c.2.2 }
  { s with overlay := { m with sig := Config.deviceSign m.bytes } }

/-- R24: one overlay write: sequence number + 1, signed (R21), then the grade is judged (R26). -/
def State.overlayWrite (s : State) (m : DMap) : State :=
  (({ s with overlay := { m with seq := s.overlay.seq + 1 } } : State).signOverlay).gradeCheck s.goodCounts

/-- How many bits differ between two tables of words. -/
def diffBits (t u : Tab Nat) : Nat :=
  (((t ++ u).map (fun e => e.1)).eraseDups.map (fun k => bitCount 64 (t.get k 0 ^^^ u.get k 0))).sum

/-- How many entries differ between two overlays; the usable-DRAM value of a field word is none. -/
def DMap.changes (m n : DMap) : Nat :=
  let marks (t : Tab Nat) : Tab Nat := t.map (fun e => (e.1, e.2 % 2 + e.2 / 2 ^ 8 * 2 ^ 8))
  diffBits m.tile n.tile + diffBits m.pond n.pond + diffBits m.lake n.lake + diffBits (marks m.field) (marks n.field)

/-- R24: several entries change together: one sequence number for each. -/
def State.overlayBatch (s : State) (m : DMap) : State :=
  let n := m.changes s.overlay
  if n = 0 then s
  else (({ s with overlay := { m with seq := s.overlay.seq + n } } : State).signOverlay).gradeCheck s.goodCounts

/-- A pond never tested since AUX power-up. -/
def PTest.none : PTest := ⟨0, false⟩
/-- R420: a fault is attributed to pond g. -/
def State.attribute (s : State) (g : Nat) : State :=
  { s with tests := s.tests.set g PTest.none { s.tests.get g PTest.none with attr := true } }

/-- R254: the packets inside a router that fails are lost, its hold slots and collection slots with them. -/
def State.loseRouter (s : State) (i : Nat) : State :=
  { s with net := { s.net with
    flights := s.net.flights.filter (fun x => match x.place with | .router j _ => decide (j ≠ i) | _ => true)
    holds := s.net.holds.filter (fun h => decide (h.tile ≠ i))
    rslots := s.net.rslots.clear (fun k => decide (k / 16 = i)) } }

/-- R211: the core of a tile is Off: its pond's partition gives it no function. -/
def State.tileOff (s : State) (g t : Nat) : Bool :=
  match s.partOf g with
  | none => false
  | some n =>
    let p := s.parts.get n Part.none
    p.sites.any (fun x => decide (x.2 = g) && p.off.contains (16 * x.1 + t))

/-- R24: mark bit b of a tile word in the overlay. R254: a router that fails (bit 1) loses its packets. -/
def State.overTile (s : State) (g t b : Nat) : State :=
  let s := if b = 1 then s.loseRouter (16 * g + t) else s
  (s.attribute g).overlayWrite { s.overlay with
    tile := s.overlay.tile.set (16 * g + t) 0 (s.overlay.tile.get (16 * g + t) 0 ||| 2 ^ b) }
/-- R24: mark bit b of a pond word in the overlay. -/
def State.overPond (s : State) (g b : Nat) : State :=
  (s.attribute g).overlayWrite { s.overlay with pond := s.overlay.pond.set g 0 (s.overlay.pond.get g 0 ||| 2 ^ b) }
/-- R24: mark bit b of a lake byte in the overlay. -/
def State.overLake (s : State) (w b : Nat) : State :=
  s.overlayWrite { s.overlay with lake := s.overlay.lake.set w 0 (s.overlay.lake.get w 0 ||| 2 ^ b) }
/-- R24: mark bit b of a field word in the overlay; R155: with a channel the word records the usable DRAM that is left. -/
def State.overField (s : State) (f b : Nat) : State :=
  let w := s.overlay.field.get f 0 ||| 2 ^ b
  let left := 3 * (32 - bitCount 32 ((s.fieldMarks f ||| 2 ^ b) / 256))
  s.overlayWrite { s.overlay with
    field := s.overlay.field.set f 0 (if 8 ≤ b ∧ b < 40 then w % 2 + 2 * left + w / 2 ^ 8 * 2 ^ 8 else w) }

/-! Error records (R400–R402). -/

/-- R402: severity of a kind: 0 I, 1 C, 2 P, 3 F. -/
def sevOf (kind : Nat) : Nat :=
  match kind with
  | 1 => 1 | 2 => 1
  | 3 => 2 | 4 => 2 | 6 => 2 | 7 => 2 | 0xC => 2 | 0x11 => 2 | 0x14 => 2
  | 8 => 3 | 9 => 3 | 0xE => 3 | 0x18 => 3 | 0x1A => 3 | 0x1B => 3
  | _ => 0

/-- FLAGS bits 1 and 2 of a kind (R400). -/
def sevFlags (kind : Nat) : Nat := if sevOf kind = 3 then 2 else if sevOf kind = 2 then 4 else 0

/-- R400: POINT of a lake. -/
def State.point (s : State) (w : Nat) : Nat :=
  let st := s.rd (.lake w) Reg.lakeClkStatState
  s.rd (.lake w) Reg.lakeClkStatN + 32 * s.rd (.lake w) Reg.lakeThermState
    + (if st = 1 ∨ st = 2 then 128 else 0)

/-- The module's rank (R278). -/
def State.rank (s : State) : Nat := s.rd (.opt 0) Reg.optSysRank

/-- Wafer ponds of a partition. -/
def State.pondsOf (s : State) (n : Nat) : List Nat := (s.parts.get n Part.none).sites.map (fun x => x.2)

/-- Of two step counts (modulo 2^32), the earlier. -/
def earlierStep (a b : Nat) : Nat := if (b + 2 ^ 32 - a) % 2 ^ 32 < 2 ^ 31 then a else b

/-- R124, R467: a partition's last committed step: the smallest SCORE_STEP of its S-cores, or, while a fault waits for the return to
it, the one when the fault arose: a STEP after that commits nothing (R54, R402). -/
def State.committed (s : State) (n : Nat) : Nat :=
  match (s.parts.get n Part.none).hold with
  | some x => x
  | none =>
    match (s.pondsOf n).map (fun g => s.rd (.tile g 5) Reg.scoreStepStep) with
    | [] => 0
    | a :: l => l.foldl earlierStep a

/-- R407 step 1: the committed step that a record of a kind takes down with its PART. -/
def State.stepAt (s : State) (kind part : Nat) : Nat := if sevOf kind < 2 then 0 else s.committed part

/-- A record formed now is sent to its supervisor (R403). -/
def State.sendRec (s : State) (r : ErrRec) : State := { s with err := { s.err with queue := s.err.queue ++ [r] } }

/-- R400, R401: send a record of a unit inside a pond. -/
def State.recTile (s : State) (g t sub kind op detail : Nat) : State :=
  let w := lakeOf g
  s.sendRec ⟨s.now, s.rank, fieldOf g, pondIn g, t, sub, kind, op, s.partByte g, s.rd (.lake w) Reg.lakeThermTemp,
    s.rd (.lake w) Reg.lakeVfRail, s.point w, sevFlags kind, 0, detail % 2 ^ 64, s.stepAt kind (s.partByte g)⟩

/-- The hottest lake of a field. -/
def State.hottest (s : State) (f : Nat) : Nat :=
  (List.range 12).foldl (fun b l =>
    if s.rd (.lake b) Reg.lakeThermTemp < s.rd (.lake (12 * f + l)) Reg.lakeThermTemp then 12 * f + l else b) (12 * f)

/-- R400, R401: send a record of a strip unit (SUB is its unit code) with the PART given. -/
def State.recStrip (s : State) (f sub kind op part detail : Nat) : State :=
  let w := s.hottest f
  s.sendRec ⟨s.now, s.rank, f, 511, 0, sub, kind, op, part, s.rd (.lake w) Reg.lakeThermTemp,
    (if s.rd (.pwr f) Reg.pwrRailsStrip = 1 then 750 else 0), s.point w, sevFlags kind, 0,
    detail % 2 ^ 64, s.stepAt kind part⟩

/-- R400, R401: send a record of a lake. -/
def State.recLake (s : State) (w sub kind part detail : Nat) : State :=
  s.sendRec ⟨s.now, s.rank, w / 12, 510, w % 12, sub, kind, 0, part, s.rd (.lake w) Reg.lakeThermTemp,
    s.rd (.lake w) Reg.lakeVfRail, s.point w, sevFlags kind, 0, detail % 2 ^ 64, s.stepAt kind part⟩

/-- R401: send a record of the hub or service controller, which only the module log takes. -/
def State.recHub (s : State) (kind op part detail : Nat) : State :=
  s.sendRec ⟨s.now, s.rank, 63, 511, 15, 80, kind, op, part, 0, 0, 0, sevFlags kind, 0, detail % 2 ^ 64,
    s.stepAt kind part⟩

/-- R19, R402: the detail of a REFUSED record. -/
def refusedDetail (addr kind : Nat) : Nat := addr % 2 ^ 58 + (kind % 64) * 2 ^ 58

/-! S-core events (R122). -/

/-- A unit raises an event at its pond's S-core; it waits to enter the FIFO. -/
def State.raise (s : State) (g cause src : Nat) : State := { s with events := s.events ++ [(g, ⟨cause, src⟩)] }

/-! Per-unit state. -/

/-- Tile queue q (input) of tile t of pond g. -/
def queueKey (g t : Nat) (isOut : Bool) (q : Nat) : Nat := 16 * (16 * g + t) + (if isOut then 8 else 0) + q
/-- An empty queue. -/
def TQueue.empty : TQueue := ⟨[], 0, 0, 0, 0, []⟩
/-- Read a queue. -/
def State.queue (s : State) (k : Nat) : TQueue := s.queues.get k TQueue.empty
/-- Write a queue. -/
def State.setQueue (s : State) (k : Nat) (q : TQueue) : State := { s with queues := s.queues.set k TQueue.empty q }
/-- Read an M-core. -/
def State.mcore (s : State) (g t : Nat) : MCore := s.mcores.get (16 * g + t) MCore.init
/-- Write an M-core. -/
def State.setMcore (s : State) (g t : Nat) (m : MCore) : State :=
  { s with mcores := s.mcores.set (16 * g + t) MCore.init m }
/-- Read a V-core. -/
def State.vcore (s : State) (g t : Nat) : VCore := s.vcores.get (16 * g + t) VCore.init
/-- Write a V-core. -/
def State.setVcore (s : State) (g t : Nat) (v : VCore) : State :=
  { s with vcores := s.vcores.set (16 * g + t) VCore.init v }
/-- Read an S-core. -/
def State.score (s : State) (g : Nat) : SCore := s.scores.get g SCore.init
/-- Write an S-core. -/
def State.setScore (s : State) (g : Nat) (c : SCore) : State := { s with scores := s.scores.set g SCore.init c }
/-- Read generator n of tile t. -/
def State.gen (s : State) (g t n : Nat) : Gen := s.gens.get (4 * (16 * g + t) + n) Gen.init
/-- Write generator n of tile t. -/
def State.setGen (s : State) (g t n : Nat) (x : Gen) : State :=
  { s with gens := s.gens.set (4 * (16 * g + t) + n) Gen.init x }
/-- Read a pond's memory side. -/
def State.pmemOf (s : State) (g : Nat) : PondMem := s.pmem.get g PondMem.init
/-- Write a pond's memory side. -/
def State.setPmem (s : State) (g : Nat) (x : PondMem) : State := { s with pmem := s.pmem.set g PondMem.init x }
/-- Read a unit's Opal state. -/
def State.opalOf (s : State) (g t : Nat) : OpalT := s.opal.get (16 * g + t) OpalT.init
/-- Write a unit's Opal state. -/
def State.setOpal (s : State) (g t : Nat) (x : OpalT) : State := { s with opal := s.opal.set (16 * g + t) OpalT.init x }
/-- R395: work arrives for a unit: a test in progress abandons its segment, unless the test is forced. -/
def State.opalAbort (s : State) (g t : Nat) : State :=
  let x := s.opalOf g t
  if x.active && !x.forced then
    (s.setOpal g t { x with active := false }).count (.fld (fieldOf g)) Reg.fldOpalAbort Reg.fldOpalWrap 1 1
  else s
/-- R396: a forced test withholds the unit's inputs. -/
def State.withheld (s : State) (g t : Nat) : Bool := (s.opalOf g t).active && (s.opalOf g t).forced
/-- R140, R436: pond g belongs to a partition that runs (SVC_PART_STAT.STATE 3 or 6). -/
def State.inRunning (s : State) (g : Nat) : Bool :=
  match s.partOf g with
  | some n => let st := (s.parts.get n Part.none).state
              decide (st = 3) || decide (st = 6)
  | none => false
/-- An idle steering unit. -/
def Steer.idle : Steer :=
  { left := 0
    token := 0
    stopped := false
    held := []
    run := []
    runItems := 0
    owed := false
    byDeadline := false
    due := false }
/-- Read a steering unit. -/
def State.steer (s : State) (g t n : Nat) : Steer := s.steers.get (4 * (16 * g + t) + n) Steer.idle
/-- Write a steering unit. -/
def State.setSteer (s : State) (g t n : Nat) (x : Steer) : State :=
  { s with steers := s.steers.set (4 * (16 * g + t) + n) Steer.idle x }
/-- R185: a spring that no image has set. -/
def Spring.zero : Spring := ⟨0, 0, false, 0, none⟩
/-- Read spring n of pond g. -/
def State.spring (s : State) (g n : Nat) : Spring := s.springs.get (64 * g + n) Spring.zero
/-- Write spring n of pond g. -/
def State.setSpring (s : State) (g n : Nat) (x : Spring) : State :=
  { s with springs := s.springs.set (64 * g + n) Spring.zero x }

/-- R185: a signal of `amt` is applied to spring n of pond g. -/
def State.applySignal (s : State) (g n amt : Nat) : State :=
  let x := s.spring g n
  let v := x.count + amt
  let s := s.setSpring g n { x with count := min v 0xFFFFFFFF, ovf := x.ovf || decide (0xFFFFFFFF < v),
                                    applied := min (x.applied + 1) 0xFFFFFFFF }
  let s := s.count (.pond g) Reg.pondSigApplied Reg.pondSprWrap 1 1
  if v ≤ 0xFFFFFFFF then s else s.recTile g 5 34 0x0D 0 n

/-- R137: what an uncorrectable SRAM word causes for any reader: the record, the counter, the pond's UNC bit and the
overlay mark of the core or bank. `o` is the offset in the memory of tile `unit`, or of pond memory when `unit` is 16. -/
def State.sramLoss (s : State) (g unit o op : Nat) : State :=
  let s := s.recTile g (if unit = 16 then 5 else unit) 0 6 op (o % 2 ^ 23 + (if unit = 16 then 2 ^ 23 else 0))
  let s := s.sat (.pond g) Reg.pondEccUnc 1
  let s := s.wr (.pond g) Reg.pondMemStatUnc 1
  if unit = 16 then
    let phys := ((List.range 34).filter (fun b => !(s.pmemOf g).mapFailed.testBit b)).getD (o / 64 % 32) 0
    s.overPond g phys
  else s.overTile g unit 0

/-- R137: a reader inside the pond, at tile t, also raises POISON at the S-core. -/
def State.sramPoison (s : State) (g t unit o op : Nat) : State := (s.raise g 2 t).sramLoss g unit o op

/-! Ranges of DRAM that are protected or sealed (R199, R226, R227). -/

/-- Two ranges meet. -/
def meets (a n b m : Nat) : Bool := decide (a < b + m) && decide (b < a + n)

/-- R199, R227: writes and accumulates to this DRAM range are refused with ACCESS_DENIED. -/
def State.dramReadOnly (s : State) (f o n : Nat) : Bool :=
  let a := f * 2 ^ 37 + o
  s.img.refs.any (fun r => (r.flags / 2 % 2 == 1) && meets a n (r.base % 2 ^ 48) r.len)
    || s.img.staged.any (fun x => meets a n x.base x.len)

/-- R226: a write into a sealed range unseals it; ranges referenced with TBM post no event. -/
def State.breakSeals (s : State) (f o n : Nat) : State :=
  let l := s.img.seals.get f []
  let hit := l.filter (fun x => meets o n x.off x.len)
  if hit = [] then s
  else
    let s : State := { s with img := { s.img with
      seals := s.img.seals.set f [] (l.filter (fun x => !meets o n x.off x.len)) } }
    hit.foldl (fun s x =>
      if s.img.refs.any (fun r => (r.flags / 4 % 2 == 1) && decide (r.base % 2 ^ 48 = f * 2 ^ 37 + x.off)) then s
      else s.postEvent 0x12 0 f x.off 0xFF) s

/-- Write DRAM bytes. -/
def State.dramPut (s : State) (f o : Nat) (bs : List Byte) : State :=
  (s.putMem (dramKey f o) bs).breakSeals f o bs.length

end Sys2Proof.Machine
end

