-- ==== Sys2Proof/Machine/Queues.lean ====
section
/-! DEFINITION. Tile queues with their spill windows (R169–R177): the operations every reader and writer of a queue
uses. -/

namespace Sys2Proof.Machine

/-- R176: token types. -/
def tokType (e : Entry) : Nat := e.toNat % 256
/-- R175: FLAGS. -/
def tokFlags (e : Entry) : Nat := e.toNat / 2 ^ 8 % 256
/-- R175: the reserved bytes. -/
def tokReserved (e : Entry) : Nat := e.toNat / 2 ^ 16 % 65536
/-- R175: COUNT. -/
def tokCount (e : Entry) : Nat := e.toNat / 2 ^ 32 % 2 ^ 32
/-- R175: ARG. -/
def tokArg (e : Entry) : Nat := e.toNat / 2 ^ 64 % 2 ^ 64
/-- R175: USER. -/
def tokUser (e : Entry) : Nat := e.toNat / 2 ^ 128

/-- R175: a token's entry. -/
def mkToken (typ flags count arg user : Nat) : Entry :=
  BitVec.ofNat 256 (typ + flags * 2 ^ 8 + count * 2 ^ 32 + arg * 2 ^ 64 + user * 2 ^ 128)

/-- Is the entry a WAIT token? -/
def QEnt.isWait (e : QEnt) : Bool := e.tok && decide (tokType e.data = 1)

/-- R173: capacity in entries of a window of n KiB. -/
def windowCap (kib : Nat) : Nat := 31 * kib
/-- R173: byte offset of ring place r in a window. -/
def windowOff (r : Nat) : Nat := 1024 * (r / 31) + 32 * (r % 31)
/-- R173: byte offset of the flag entry that covers ring place r. -/
def windowFlag (r : Nat) : Nat := 1024 * (r / 31) + 992

/-- R174, R197: sizes in KiB of a queue's level-1 and level-2 windows; A-unit tiles have none. -/
def State.spillSizes (s : State) (g t : Nat) (isOut : Bool) (q : Nat) : Nat × Nat :=
  if tileType t = .a then (0, 0)
  else if isOut then (s.rdi (.tile g t) Reg.rtrQspillOL1Size q, 4 * s.rdi (.tile g t) Reg.rtrQspillOL2Size q)
  else (s.rdi (.tile g t) Reg.rtrQspillIL1Size q, 4 * s.rdi (.tile g t) Reg.rtrQspillIL2Size q)

/-- Memory key of the start of a queue's level-1 window. -/
def State.l1Key (s : State) (g t : Nat) (isOut : Bool) (q : Nat) : Nat :=
  coreKey g t (1024 * s.rdi (.tile g t) (if isOut then Reg.rtrQspillOL1Base else Reg.rtrQspillIL1Base) q)
/-- Memory key of the start of a queue's level-2 window. -/
def State.l2Key (s : State) (g t : Nat) (isOut : Bool) (q : Nat) : Nat :=
  pondKey g (4096 * s.rdi (.tile g t) (if isOut then Reg.rtrQspillOL2Base else Reg.rtrQspillIL2Base) q)

/-- R173: the bits of KiB k's flag entry whose slots hold an entry, for a ring of `cap` places with `n` entries from place rd on. -/
def heldSlots (rd n cap k : Nat) : Nat :=
  ((List.range 31).map (fun i =>
    if 31 * k + i < cap ∧ (31 * k + i + cap - rd) % cap < n then 2 ^ i else 0)).sum

/-- R173: write an entry at the next place of a window's ring, which holds `n` entries from place rd on, with its kind in the flag
entry. The kinds of an unreadable flag entry are lost: its entries are data (R137). -/
def State.putSpill (s : State) (base rd n cap : Nat) (e : QEnt) : State :=
  let r := (rd + n) % cap
  let fk := base + windowFlag r
  let old := if s.sramBad fk 32 then 0 else s.memNat fk 4 &&& heldSlots rd n cap (r / 31)
  let s := (s.putMem (base + windowOff r) (bvBytes 32 e.data)).healSram (base + windowOff r) 32
  (s.putMem fk (leBytes 32 (old + e.tok.toNat * 2 ^ (r % 31)))).healSram fk 32

/-- Entries of a queue, spill included. -/
def TQueue.count (x : TQueue) : Nat := x.hw.length + x.l1n + x.l2n

/-- R197: keep the high-water mark of RTR_QOCC. -/
def State.noteHigh (s : State) (g t : Nat) (isOut : Bool) (q : Nat) : State :=
  let n := (s.queue (queueKey g t isOut q)).count
  let f := if isOut then Reg.rtrQoccOHigh else Reg.rtrQoccIHigh
  if s.rdi (.tile g t) f q < n then s.wri (.tile g t) f q (min n 65535) else s

/-- R173: where an arriving entry goes; none when the queue refuses it. -/
def State.push (s : State) (g t : Nat) (isOut : Bool) (q : Nat) (e : QEnt) : Option State :=
  let k := queueKey g t isOut q
  let x := s.queue k
  let sz := s.spillSizes g t isOut q
  if x.hw.length < 8 ∧ x.l1n = 0 ∧ x.l2n = 0 then
    some ((s.setQueue k { x with hw := x.hw ++ [e] }).noteHigh g t isOut q)
  else if x.l1n < windowCap sz.1 ∧ x.l2n = 0 then
    some (((s.putSpill (s.l1Key g t isOut q) x.l1rd x.l1n (windowCap sz.1) e).setQueue k { x with l1n := x.l1n + 1 }).noteHigh g t isOut q)
  else if x.l2n < windowCap sz.2 then
    some (((s.putSpill (s.l2Key g t isOut q) x.l2rd x.l2n (windowCap sz.2) e).setQueue k { x with l2n := x.l2n + 1 }).noteHigh g t isOut q)
  else none

/-- Push several entries; none when one of them is refused. -/
def State.pushAll (s : State) (g t : Nat) (isOut : Bool) (q : Nat) : List QEnt → Option State
  | [] => some s
  | e :: r =>
    match s.push g t isOut q e with
    | some s' => State.pushAll s' g t isOut q r
    | none => none

/-- The entry at a queue's head that a core, router or steering unit may take: a WAIT is never one (R178). -/
def State.headOf (s : State) (g t : Nat) (isOut : Bool) (q : Nat) : Option QEnt :=
  match (s.queue (queueKey g t isOut q)).hw with
  | [] => none
  | e :: _ => if e.isWait then none else some e

/-- The data entry at a queue's head. -/
def State.headData (s : State) (g t q : Nat) : Option Entry :=
  match s.headOf g t false q with
  | some e => if e.tok then none else some e.data
  | none => none

/-- Remove a queue's head. -/
def State.pop (s : State) (g t : Nat) (isOut : Bool) (q : Nat) : State :=
  let k := queueKey g t isOut q
  let x := s.queue k
  let runs := match x.runs with
    | [] => []
    | (n, d) :: r => if n ≤ 1 then r else (n - 1, d) :: r
  s.setQueue k { x with hw := x.hw.drop 1, runs := runs }

/-- R137, R173: the entry read back from ring place r of a window: zeros for an unreadable entry, data when the flag
entry is unreadable. -/
def State.getSpill (s : State) (base r : Nat) : QEnt :=
  let ek := base + windowOff r
  let fk := base + windowFlag r
  if s.sramBad ek 32 then ⟨false, 0⟩
  else ⟨!s.sramBad fk 32 && (s.memNat fk 4).testBit (r % 31), entryOf (s.mem.bytes ek 32)⟩

/-- R173: ring place r of a window is empty again: its bit in the flag entry is 0. -/
def State.clearKind (s : State) (base r : Nat) : State :=
  let fk := base + windowFlag r
  if !s.sramBad fk 32 && (s.memNat fk 4).testBit (r % 31) then s.putMem fk (leBytes 4 (s.memNat fk 4 - 2 ^ (r % 31))) else s

/-- R173, R137: a freed hardware slot refills with the oldest spilled entry; an unreadable window word is handled as
poison. -/
def State.refill (s : State) (g t : Nat) (isOut : Bool) (q : Nat) : State :=
  let k := queueKey g t isOut q
  let x := s.queue k
  let sz := s.spillSizes g t isOut q
  if 8 ≤ x.hw.length then s
  else if x.l1n ≠ 0 then
    let b := s.l1Key g t isOut q
    let s' := (s.clearKind b x.l1rd).setQueue k { x with
      hw := x.hw ++ [s.getSpill b x.l1rd]
      l1rd := (x.l1rd + 1) % windowCap sz.1
      l1n := x.l1n - 1 }
    if s.sramBad (b + windowOff x.l1rd) 32 || s.sramBad (b + windowFlag x.l1rd) 32 then
      s'.sramPoison g t t (b + windowOff x.l1rd) 0
    else s'
  else if x.l2n ≠ 0 then
    let b := s.l2Key g t isOut q
    let s' := (s.clearKind b x.l2rd).setQueue k { x with
      hw := x.hw ++ [s.getSpill b x.l2rd]
      l2rd := (x.l2rd + 1) % windowCap sz.2
      l2n := x.l2n - 1 }
    if s.sramBad (b + windowOff x.l2rd) 32 || s.sramBad (b + windowFlag x.l2rd) 32 then
      s'.sramPoison g t 16 (b + windowOff x.l2rd) 0
    else s'
  else s

/-- R196: a queue's stall counter counts `n` core cycles. -/
def State.queueStall (s : State) (g t : Nat) (isOut : Bool) (q n : Nat) : State :=
  if isOut then s.counti (.tile g t) Reg.rtrQstallO q Reg.rtrQwrap 0 (8 + q) n
  else s.counti (.tile g t) Reg.rtrQstallI q Reg.rtrQwrap 0 q n

/-! What every unit of a tile shares (R37, R180). -/

/-- RUN of the core or A-unit of a tile. -/
def State.tileRun (s : State) (g t : Nat) : Bool :=
  let u := UnitId.tile g t
  match tileType t with
  | .m => s.flag u Reg.mcoreCtrlRun
  | .v => s.flag u Reg.vcoreCtrlRun
  | .a => s.flag u Reg.auCtrlRun
  | .s => s.flag u Reg.scoreCtrlRun

/-- A drain of the core or A-unit of a tile is under way; an S-core has none. -/
def State.tileDrain (s : State) (g t : Nat) : Bool :=
  let u := UnitId.tile g t
  match tileType t with
  | .m => s.flag u Reg.mcoreCtrlDrain
  | .v => s.flag u Reg.vcoreCtrlDrain
  | .a => s.flag u Reg.auCtrlDrain
  | .s => false

/-- R180: SU3 of an M-core tile is the batch gate. -/
def isGateUnit (t n : Nat) : Bool := decide (tileType t = .m) && decide (n = 3)

/-- R180: the input queue that merge index i selects. -/
def State.mergeIn (s : State) (g t n i : Nat) : Nat :=
  match i with
  | 0 => s.rdi (.tile g t) Reg.rtrSteerDin n
  | 1 => s.rdi (.tile g t) Reg.rtrSteerM1 n
  | 2 => s.rdi (.tile g t) Reg.rtrSteerM2 n
  | _ => s.rdi (.tile g t) Reg.rtrSteerM3 n

/-- R180: the data inputs of steering unit n with function f. -/
def State.steerInputs (s : State) (g t n f : Nat) : List Nat :=
  if f = 2 then (List.range (s.rdi (.tile g t) Reg.rtrSteerMcnt n + 1)).map (fun i => s.mergeIn g t n i)
  else [s.rdi (.tile g t) Reg.rtrSteerDin n]

/-- R180: the input queues (0–7) steering unit n reads. -/
def State.steerReads (s : State) (g t n : Nat) : List Nat :=
  let f := s.rdi (.tile g t) Reg.rtrSteerFunc n
  let cin := s.rdi (.tile g t) Reg.rtrSteerCin n
  match f with
  | 1 | 2 | 3 => cin :: s.steerInputs g t n f
  | 4 => s.steerInputs g t n f
  | _ => []

/-- R169: a steering unit of the tile reads input queue q. -/
def State.steered (s : State) (g t q : Nat) : Bool :=
  (List.range 4).any (fun n => !isGateUnit t n && (s.steerReads g t n).contains q)

end Sys2Proof.Machine
end

