-- ==== Sys2Proof/Machine/Net.lean ====
section
/-! DEFINITION. Packets, addresses, sender tables and the requests and responses built from them (R18–R20, R188–R193,
R238–R242, R252). -/

namespace Sys2Proof.Machine

/-! Packets (R239). -/

/-- `w` header bits from bit `lo`. -/
def Packet.bits (p : Packet) (lo w : Nat) : Nat := p.header.toNat / 2 ^ lo % 2 ^ w
/-- R240: TYPE. -/
def Packet.typ (p : Packet) : Nat := p.bits 0 4
/-- VC. -/
def Packet.vc (p : Packet) : Nat := p.bits 4 2
/-- ORDERED. -/
def Packet.ordered (p : Packet) : Bool := decide (p.bits 6 1 = 1)
/-- COUNTED. -/
def Packet.counted (p : Packet) : Bool := decide (p.bits 7 1 = 1)
/-- PARITY. -/
def Packet.parity (p : Packet) : Bool := decide (p.bits 8 1 = 1)
/-- LEN. -/
def Packet.len (p : Packet) : Nat := p.bits 9 5
/-- TAG. -/
def Packet.tag (p : Packet) : Nat := p.bits 14 10
/-- SRC. -/
def Packet.src (p : Packet) : Nat := p.bits 24 28
/-- DEST. -/
def Packet.dest (p : Packet) : Nat := p.bits 52 58
/-- DOWN. -/
def Packet.down (p : Packet) : Bool := decide (p.bits 110 1 = 1)
/-- EGRESS. -/
def Packet.egress (p : Packet) : Nat := p.bits 112 8

/-- One byte into the CRC-8 of R239 (polynomial 0x07). -/
def crc8Step (c b : Nat) : Nat :=
  (List.range 8).foldl (fun x _ => if x.testBit 7 then ((2 * x) ^^^ 0x07) % 256 else 2 * x % 256) ((c ^^^ b) % 256)

/-- R239: CRC-8 over bytes. -/
def crc8 (bs : List Byte) : Nat := bs.foldl (fun c b => crc8Step c b.toNat) 0

/-- R239: close a header with its HCHK. -/
def sealHeader (h : Nat) : BitVec 128 := BitVec.ofNat 128 (h % 2 ^ 120 + crc8 (leBytes 15 h) * 2 ^ 120)

/-- A packet with one header field replaced and HCHK formed again (DESIGN CHOICE, log entry 12). -/
def Packet.put (p : Packet) (lo w v : Nat) : Packet :=
  { p with header := sealHeader (p.header.toNat % 2 ^ 120 - p.bits lo w * 2 ^ lo + v % 2 ^ w * 2 ^ lo) }

/-- R236, R248: the channel a packet starts on. -/
def startVc (typ : Nat) (ordered : Bool) : Nat :=
  if ordered then 3 else if 8 ≤ typ then 1 else if typ = 5 then 2 else 0

/-- R239: form a packet. -/
def mkPacket (typ : Nat) (ordered counted parity : Bool) (len tag src dest egress : Nat) (payload : BitVec 256) : Packet :=
  ⟨sealHeader (typ + startVc typ ordered * 2 ^ 4 + ordered.toNat * 2 ^ 6 + counted.toNat * 2 ^ 7 + parity.toNat * 2 ^ 8
    + len % 32 * 2 ^ 9 + tag % 1024 * 2 ^ 14 + src % 2 ^ 28 * 2 ^ 24 + dest % 2 ^ 58 * 2 ^ 52 + egress % 256 * 2 ^ 112),
    payload⟩

/-- R239: HCHK matches. -/
def Packet.hchkOk (p : Packet) : Bool := decide (p.bits 120 8 = crc8 (leBytes 15 p.header.toNat))

/-! Identities (R188, R239). -/

/-- SRC of a tile or generator. -/
def srcTile (rank g t sub : Nat) : Nat :=
  rank * 2 ^ 22 + g / 288 * 2 ^ 16 + g % 288 * 2 ^ 7 + t * 2 ^ 3 + sub
/-- SRC of a strip unit. -/
def srcStrip (rank f unit : Nat) : Nat := rank * 2 ^ 22 + f * 2 ^ 16 + 511 * 2 ^ 7 + unit % 128
/-- Rank of an identity. -/
def srcRank (x : Nat) : Nat := x / 2 ^ 22 % 64
/-- Field of an identity. -/
def srcField (x : Nat) : Nat := x / 2 ^ 16 % 64
/-- The identity is a strip unit. -/
def srcIsStrip (x : Nat) : Bool := decide (x / 2 ^ 7 % 512 = 511)
/-- Wafer pond of a tile's identity. -/
def srcPond (x : Nat) : Nat := 288 * srcField x + x / 2 ^ 7 % 512
/-- Tile position. -/
def srcTileN (x : Nat) : Nat := x / 2 ^ 3 % 16
/-- Sub. -/
def srcSub (x : Nat) : Nat := x % 8
/-- Unit code of a strip unit. -/
def srcUnit (x : Nat) : Nat := x % 128

/-- R241: DEST of a response to an identity. -/
def destOfSrc (x : Nat) : Nat :=
  if srcIsStrip x then srcRank x * 2 ^ 52 + 0xC * 2 ^ 48 + srcField x * 2 ^ 37 + srcUnit x
  else srcRank x * 2 ^ 52 + 0xD * 2 ^ 48 + srcField x * 2 ^ 37 + x / 2 ^ 7 % 512 * 2 ^ 28 + srcTileN x * 2 ^ 24
    + srcSub x * 2 ^ 21

/-! Destinations (R18, R241). -/

/-- Rank of an address. -/
def dRank (d : Nat) : Nat := d / 2 ^ 52 % 64
/-- Space or header code. -/
def dSpace (d : Nat) : Nat := d / 2 ^ 48 % 16
/-- Field. -/
def dField (d : Nat) : Nat := d / 2 ^ 37 % 64
/-- Pond in its field. -/
def dPondIn (d : Nat) : Nat := d / 2 ^ 28 % 512
/-- Wafer pond. -/
def dPond (d : Nat) : Nat := 288 * dField d + dPondIn d
/-- Unit code of spaces 1–4. -/
def dUnit (d : Nat) : Nat := d / 2 ^ 23 % 32
/-- Offset within a unit. -/
def dOff (d : Nat) : Nat := d % 2 ^ 23
/-- Tile of a queue or response destination. -/
def dTile (d : Nat) : Nat := d / 2 ^ 24 % 16
/-- Queue or sub of a queue or response destination. -/
def dQueue (d : Nat) : Nat := d / 2 ^ 21 % 8
/-- KIND of a queue destination. -/
def dKind (d : Nat) : Bool := (d / 2 ^ 20).testBit 0

/-- R18: an engine address. -/
def mkAddr (rank space off : Nat) : Nat := rank * 2 ^ 52 + space * 2 ^ 48 + off
/-- R241: a queue destination. -/
def queueDest (rank g t q : Nat) (tok : Bool) : Nat :=
  mkAddr rank 0xE (g / 288 * 2 ^ 37 + g % 288 * 2 ^ 28 + t * 2 ^ 24 + q * 2 ^ 21 + tok.toNat * 2 ^ 20)
/-- R18: the address of spring n of pond g. -/
def springAddr (rank g n : Nat) : Nat := mkAddr rank 4 (coreOff g 16 (16 * n))

/-- Field and pond in range, bits [47:43] zero. -/
def placeOk (d : Nat) : Bool :=
  decide (d / 2 ^ 43 % 32 = 0) && decide (dField d < 48) && decide (dPondIn d < 288)

/-- R255: the multicast rectangle and mask of a mask-mode DEST. -/
def maskOk (d : Nat) : Bool :=
  let px0 := d / 2 ^ 33 % 16
  let py0 := d / 2 ^ 28 % 32
  let px1 := d / 2 ^ 24 % 16
  let py1 := d / 2 ^ 19 % 32
  let tm := d / 2 ^ 3 % 65536
  decide (dField d < 48) && decide (px0 ≤ px1) && decide (py0 ≤ py1) && decide (py1 < 18)
    && decide ((px1 - px0 + 1) * (py1 - py0 + 1) ≤ 16) && decide (tm ≠ 0)
    && !(tm.testBit 3) && !(tm.testBit 10) && !(tm.testBit 12)

/-- R19: the refusal an address shows by itself to a core or generator request of a TYPE; 0 for none. -/
def addrKind (typ d : Nat) : Nat :=
  let bad := 1
  match dSpace d with
  | 0 => if d / 2 ^ 43 % 32 = 0 ∧ dField d < 48 then 0 else bad
  | 1 => if placeOk d && decide (dUnit d = 16) then 0 else bad
  | 2 => if placeOk d && decide (dUnit d < 16) && decide (tileType (dUnit d) ≠ .a) && decide (dOff d < 2 ^ 18) then 0
      else bad
  | 3 =>
    if dUnit d = 24 then (if dField d = 0 ∧ dPondIn d = 0 ∧ d / 2 ^ 43 % 32 = 0 then 4 else bad)
    else if 18 ≤ dUnit d ∧ dUnit d ≤ 21 then (if placeOk d && decide (dPondIn d = 0) then 4 else bad)
    else if dUnit d ≤ 17 && placeOk d then 0 else bad
  | 4 => if placeOk d && decide (dUnit d = 16) && decide (dOff d < 1024)
          && (decide (typ ≠ 3) || decide (dOff d % 16 = 0)) then 0 else bad
  | 8 => 0
  | 0xE => if typ = 2 && placeOk d && decide (tileType (dTile d) ≠ .a) && decide (d % 2 ^ 20 = 0) then 0 else bad
  | 0xF => if typ = 6 && ((d / 2 ^ 47).testBit 0 = false || maskOk d) then 0 else bad
  | _ => bad

/-- R19, R278: the rank is a member of the running system. -/
def State.rankMember (s : State) (r : Nat) : Bool :=
  decide (r = s.rank) || decide (r < s.rd (.opt 0) Reg.optSysSize)

/-! EGRESS (R252, R282). -/

/-- |Δrow| + |Δcolumn| over the field grid. -/
def fieldDist (a b : Nat) : Nat := (a / 8 - b / 8) + (b / 8 - a / 8) + (a % 8 - b % 8) + (b % 8 - a % 8)
/-- R252: the host bridge nearest a field. -/
def nearBridge (f : Nat) : Nat :=
  [20, 27, 28].foldl (fun b x => if fieldDist f x < fieldDist f b then x else b) 19

/-- R282: the port to a rank for packets of sender `src` to `dest`; none when no port and no relay serve it. -/
def State.egressPort (s : State) (src dest b : Nat) : Option Nat :=
  let direct := s.net.egress.get b []
  let ports := if direct = [] then (match s.net.relay.get b 0 with | 0 => [] | t + 1 => s.net.egress.get t []) else direct
  let skey := 8 * (4608 * srcField src + 16 * (src / 2 ^ 7 % 512) + srcTileN src) + srcSub src
  let dpond := if dSpace dest = 0 then dest / 2 ^ 8 % 512 % 288 else if dSpace dest = 0xC then dest % 128 else dPondIn dest
  if ports = [] then none else ports[(skey + (288 * dField dest + dpond)) % ports.length]?

/-- R252: EGRESS of a packet; none when its rank is unreachable (R286). -/
def State.egressOf (s : State) (src dest : Nat) : Option Nat :=
  if dRank dest ≠ s.rank then (s.egressPort src dest (dRank dest)).map (fun p => p / 4 + 64 * (p % 4))
  else if dSpace dest = 8 then some (nearBridge (srcField src))
  else some 0

/-! Input buffers (R236, R264). -/

/-- R236: entries per input port, on escape per class. -/
def vcRoom (vc : Nat) : Nat := if vc = 3 then 2 else 4

/-- Occupancy of the input buffer that a packet of channel `vc` and class `resp` meets at router m by port q. At the local
port, packets beyond the entries of the buffer wait in the tile's units, in order. -/
def State.occupancy (s : State) (m q vc : Nat) (resp : Bool) : Nat :=
  Min.min (vcRoom vc) (s.net.flights.filter (fun x => decide (x.place = .router m q) && decide (x.pkt.vc = vc)
    && (decide (vc ≠ 3) || decide (decide (8 ≤ x.pkt.typ) = resp)))).length

/-- R236: the buffer at router m by port q has an entry for a packet of channel `vc` and TYPE `typ`. -/
def State.roomAt (s : State) (m q vc typ : Nat) : Bool := decide (s.occupancy m q vc (decide (8 ≤ typ)) < vcRoom vc)

/-- High-water marks of RTR_DEPTH after an arrival at router m by port q. -/
def State.noteDepth (s : State) (m q : Nat) (p : Packet) : State :=
  let u := UnitId.tile (m / 16) (m % 16)
  let occ := s.occupancy m q p.vc false + (if p.vc = 3 then s.occupancy m q 3 true else 0)
  let high (f : Fld) (sh : Nat) (s : State) : State :=
    if s.rdi u f q / 2 ^ sh % 16 < occ then s.wri u f q (s.rdi u f q % 2 ^ sh + Min.min occ 15 * 2 ^ sh) else s
  match p.vc with
  | 0 => high Reg.rtrDepthVc0Hw 0 s
  | 1 => high Reg.rtrDepthVc1 4 s
  | 2 => high Reg.rtrDepthVc2 4 s
  | _ => high Reg.rtrDepthVc3 4 s

/-- A packet arrives at a router by a port: RTR_PKT_IN, RTR_DEPTH. -/
def State.arrive (s : State) (m q : Nat) (p : Packet) : State :=
  let s : State := { s with net := { s.net with flights := s.net.flights ++ [(⟨p, .router m q, 0, 0⟩ : Flight)] } }
  (s.counti (.tile (m / 16) (m % 16)) Reg.rtrPktIn q Reg.rtrPwrap q 0 1).noteDepth m q p

/-! Sending. -/

/-- Where a sender's packets enter the network. -/
def srcPlace (src : Nat) : Place :=
  if srcIsStrip src then .strip (srcField src) else .router (16 * srcPond src + srcTileN src) 4

/-- A packet enters the network at a place. -/
def State.launch (s : State) (p : Packet) (at_ : Place) : State :=
  match at_ with
  | .router i q => s.arrive i q p
  | _ => { s with net := { s.net with flights := s.net.flights ++ [(⟨p, at_, 0, 0⟩ : Flight)] } }

/-- R196, R236: the local port of the sender's tile has a buffer entry for a packet; a strip's crossbar takes every packet. -/
def State.portRoom (s : State) (src typ : Nat) (ordered : Bool) : Bool :=
  match srcPlace src with
  | .router i q => s.roomAt i q (startVc typ ordered) typ
  | _ => true

/-- A tag that the sender has not in use (DESIGN CHOICE, log entry 12). -/
def State.freeTag (s : State) (src : Nat) : Nat :=
  ((List.range 1024).find? (fun n => s.net.outst.all (fun o => !(decide (o.src = src) && decide (o.tag = n))))).getD 0

/-- Remember a request that waits for `due` answers. -/
def State.await (s : State) (o : Outst) : State := { s with net := { s.net with outst := s.net.outst ++ [o] } }

/-- Payload of a NACK (R240). -/
def nackPayload (kind dest : Nat) : BitVec 256 := BitVec.ofNat 256 (kind % 256 + dest * 2 ^ 64)

/-- A response from `me` to the sender `dst`. -/
def State.respond (s : State) (me dst typ len tag : Nat) (ordered : Bool) (payload : BitVec 256) : State :=
  let d := destOfSrc dst
  match s.egressOf me d with
  | some e => s.launch (mkPacket typ ordered false false len tag me d e payload) (srcPlace me)
  | none =>
    -- R286: a response with no port and no relay is discarded
    if srcIsStrip me then s else s.sat (.tile (srcPond me) (srcTileN me)) Reg.rtrDiscard 1

/-- The record of a refusal made by the sender's own entry (R19). -/
def State.recRefusedAt (s : State) (src dest kind : Nat) : State :=
  if srcIsStrip src then
    (if srcUnit src = 37 then s.recHub 0x0A 9 0xFF (refusedDetail dest kind)
     else s.recStrip (srcField src) (srcUnit src) 0x0A 9 0xFF (refusedDetail dest kind))
  else s.recTile (srcPond src) (srcTileN src) (28 + 4) 0x0A 9 (refusedDetail dest kind)

/-- R19: the sender's entry answers a request with a NACK and does not send it on. -/
def State.refuseLocal (s : State) (src tag dest kind typ : Nat) (pur : Purpose) : State :=
  let s := s.recRefusedAt src dest kind
  let s := s.await ⟨src, tag, dest, pur, 1, typ, false⟩
  s.launch (mkPacket 0xA false false false 0 tag src (destOfSrc src) 0 (nackPayload kind dest)) (srcPlace src)

/-- The refusal a sender's own entry makes (R19, R20, R286); host and strip requests may address CSR units 18–24. -/
def State.entryKind (s : State) (src typ dest : Nat) : Nat :=
  let k := addrKind typ dest
  if k ≠ 0 ∧ !(k = 4 && srcIsStrip src) then k
  else if !s.rankMember (dRank dest) then 3
  else if (s.egressOf src dest).isNone then 14
  else 0

/-- R189: key of a destination pond in a sender table. -/
def pondDest (d : Nat) : Nat := dRank d * 16384 + dPond d

/-- Sender table key of an identity. -/
def senderKey (src : Nat) : Nat := 8 * (16 * srcPond src + srcTileN src) + srcSub src

/-- R188: packets that counted arrival counts. -/
def countedKind (typ d : Nat) : Bool :=
  (decide (typ = 1) && (decide (dSpace d = 1) || decide (dSpace d = 2))) || decide (typ = 2)

/-- Read a sender table. -/
def State.senderTab (s : State) (src : Nat) : List SendEnt := s.senders.get (senderKey src) []
/-- Write a sender table. -/
def State.setSenderTab (s : State) (src : Nat) (l : List SendEnt) : State :=
  { s with senders := s.senders.set (senderKey src) [] l }
/-- Change the entry of a pond. -/
def State.modSender (s : State) (src key : Nat) (f : SendEnt → SendEnt) : State :=
  s.setSenderTab src ((s.senderTab src).map (fun e => if e.dest = key then f e else e))

/-- R189: RTR_SEND_HELD counts a core cycle. -/
def State.sendHeld (s : State) (src : Nat) : State :=
  s.counti (.tile (srcPond src) (srcTileN src)) Reg.rtrSendHeld 0 Reg.rtrQwrap 0 25 1

/-- R189: send a RELEASE for an evicted grant. -/
def State.sendRelease (s : State) (src key : Nat) : State :=
  let d := springAddr (key / 16384) (key % 16384) 0
  let tag := s.freeTag src
  let s := s.await ⟨src, tag, d, .release, 1, 7, false⟩
  match s.egressOf src d with
  | some e => s.launch (mkPacket 7 true false false 0 tag src d e 0) (srcPlace src)
  | none => s.launch (mkPacket 0xA true false false 0 tag src (destOfSrc src) 0 (nackPayload 14 d)) (srcPlace src)

/-- R189: a new entry of a sender table. -/
def SendEnt.fresh (key stamp : Nat) : SendEnt :=
  { dest := key
    grant := false
    clean := true
    parity := false
    count := 0
    out := 0
    pend := false
    used := stamp
    rel := false }

/-- R189, R193: the sender's entry for a pond, allocated if absent; false when the packet or signal stalls. An entry with a grant is
evicted by a RELEASE and keeps its place until that is answered. -/
def State.senderEntry (s : State) (src key : Nat) : Bool × State :=
  let l := s.senderTab src
  let stamp := (l.map (fun e => e.used)).foldl Max.max 0 + 1
  match l.find? (fun e => decide (e.dest = key)) with
  | some e => if e.rel then (false, s.sendHeld src) else (true, s.modSender src key (fun e => { e with used := stamp }))
  | none =>
    if l.length < 8 then (true, s.setSenderTab src (l ++ [SendEnt.fresh key stamp]))
    else if l.any (fun e => e.rel) then (false, s.sendHeld src)
    else
      match l.filter (fun e => decide (e.out = 0) && !e.pend) with
      | [] => (false, s.sendHeld src)
      | e0 :: r =>
        let v := r.foldl (fun b e => if e.used < b.used then e else b) e0
        if v.grant && !s.portRoom src 7 true then (false, s.sendHeld src)
        else if v.grant then (false, ((s.modSender src v.dest (fun e => { e with rel := true })).sendRelease src v.dest).sendHeld src)
        else (true, s.setSenderTab src (l.filter (fun e => decide (e.dest ≠ v.dest)) ++ [SendEnt.fresh key stamp]))

/-- Hand a request to the network. False when it stalls for a sender entry (R189): nothing was sent. -/
def State.post (s : State) (src typ : Nat) (ordered : Bool) (len dest : Nat) (payload : BitVec 256) (due : Nat)
    (pur : Purpose) : Bool × State :=
  let k := s.entryKind src typ dest
  let tag := s.freeTag src
  if k ≠ 0 then (true, s.refuseLocal src tag dest k typ pur)
  else
    let e := (s.egressOf src dest).getD 0
    if countedKind typ dest && !srcIsStrip src then
      let r := s.senderEntry src (pondDest dest)
      if r.1 then
        let s := r.2
        match (s.senderTab src).find? (fun e => decide (e.dest = pondDest dest)) with
        | some x =>
          let cnt := x.grant && decide (x.count < 16777215)
          let s := s.modSender src x.dest (fun x => { x with
            count := if cnt then x.count + 1 else x.count, clean := x.clean && cnt, out := x.out + 1 })
          let tag := s.freeTag src
          let s := s.await ⟨src, tag, dest, pur, due, typ, true⟩
          (true, s.launch (mkPacket typ ordered cnt (cnt && x.parity) len tag src dest e payload) (srcPlace src))
        | none => (false, s)
      else r
    else
      let s := s.await ⟨src, tag, dest, pur, due, typ, false⟩
      (true, s.launch (mkPacket typ ordered false false len tag src dest e payload) (srcPlace src))

/-- Send a request. False when it stalls for a buffer entry of its port (R236) or for a sender entry (R189): nothing was
sent. -/
def State.sendReq (s : State) (src typ : Nat) (ordered : Bool) (len dest : Nat) (payload : BitVec 256) (due : Nat)
    (pur : Purpose) : Bool × State :=
  if s.portRoom src typ ordered then s.post src typ ordered len dest payload due pur else (false, s)

/-- R191: a sending unit signals spring `dest` by `amt`. False when it waits for its port, PEND, OUT or an entry. -/
def State.sendSignal (s : State) (src dest amt : Nat) (pur : Purpose) : Bool × State :=
  let k := s.entryKind src 3 dest
  let tag := s.freeTag src
  if !s.portRoom src 3 true then (false, s)
  else if k ≠ 0 then (true, s.refuseLocal src tag dest k 3 pur)
  else if srcIsStrip src then s.sendReq src 3 true 0 dest (BitVec.ofNat 256 (amt % 2 ^ 32)) 1 pur
  else
    let r := s.senderEntry src (pondDest dest)
    if !r.1 then r
    else
      let s := r.2
      match (s.senderTab src).find? (fun e => decide (e.dest = pondDest dest)) with
      | none => (false, s)
      | some x =>
        let tracked := x.grant && x.clean
        if x.pend ∨ (!tracked ∧ x.out ≠ 0) then (false, s)
        else
          let s := s.modSender src x.dest (fun x => { x with count := 0, parity := !x.parity, clean := true, pend := true })
          let tag := s.freeTag src
          let s := s.await ⟨src, tag, dest, pur, 1, 3, false⟩
          let n := if tracked then x.count else 0
          (true, s.launch (mkPacket 3 true tracked (tracked && x.parity) 0 tag src dest ((s.egressOf src dest).getD 0)
            (BitVec.ofNat 256 (amt % 2 ^ 32 + n * 2 ^ 32))) (srcPlace src))

/-! Arrival tables (R190–R192). -/

/-- Read an arrival table. -/
def State.arrTab (s : State) (g : Nat) : List ArrEnt := s.arrivals.get g []
/-- Write an arrival table, keeping its high-water mark. -/
def State.setArrTab (s : State) (g : Nat) (l : List ArrEnt) : State :=
  let s : State := { s with arrivals := s.arrivals.set g [] l }
  if s.rd (.pond g) Reg.pondArrStatHigh < l.length then s.wr (.pond g) Reg.pondArrStatHigh l.length else s
/-- CNT[parity] of an entry. -/
def ArrEnt.cnt (e : ArrEnt) (par : Bool) : Nat := if par then e.cnt1 else e.cnt0
/-- Set CNT[parity]. -/
def ArrEnt.setCnt (e : ArrEnt) (par : Bool) (v : Nat) : ArrEnt := if par then { e with cnt1 := v } else { e with cnt0 := v }

/-- R190: a counted packet has taken effect, been answered negatively or been absorbed. -/
def State.countArrival (s : State) (g : Nat) (p : Packet) : State :=
  if p.counted && countedKind p.typ p.dest then
    s.setArrTab g ((s.arrTab g).map (fun e =>
      if e.src = p.src then e.setCnt p.parity ((e.cnt p.parity + 1) % 2 ^ 24) else e))
  else s

/-! Access (R19–R21, R221). -/

/-- The partition of the sending unit: of this rank by its pond, of another rank by its published exports. -/
def State.srcPart (s : State) (src : Nat) : Option Nat :=
  if srcIsStrip src then none
  else if srcRank src = s.rank then s.partOf (srcPond src)
  else (s.img.peers.find? (fun x => decide (x.rank = srcRank src) && decide (x.site = srcPond src))).map (fun x => x.part)

/-- Logical pond index of a wafer pond in its partition. -/
def State.lpondOf (s : State) (g : Nat) : Nat :=
  match s.partOf g with
  | some n => (((s.parts.get n Part.none).sites.find? (fun x => decide (x.2 = g))).map (fun x => x.1)).getD 0
  | none => 0

/-- R221: the sender may use the right (0 read, 1 write, 2 queue, 3 spring) at pond g. Strip units, among them the hub,
need no grant (DEDUCED, log entry 13). -/
def State.granted (s : State) (src g right : Nat) : Bool :=
  if srcIsStrip src then true
  else
    match s.partOf g with
    | none => false
    | some tp =>
      if srcRank src = s.rank && decide (s.srcPart src = some tp) then true
      else s.img.grants.any (fun x =>
        (decide (x.rank = 0xFF) || decide (x.rank = srcRank src)) && decide (s.srcPart src = some x.spart)
          && decide (x.tpart = tp) && x.rights.testBit right && decide (x.first ≤ s.lpondOf g)
          && (decide (x.n = 0) || decide (s.lpondOf g < x.first + x.n)))

/-- R140: bytes of scratchpad in pond g. -/
def State.scratch (s : State) (g : Nat) : Nat := (8 - s.rd (.pond g) Reg.pondMemCfgCacheMib) * 2 ^ 20

/-- R20, R347, R383: the lake is failed, shut or Off. -/
def State.lakeGone (s : State) (w : Nat) : Bool :=
  (s.lakeW w).testBit 0 || (s.lakeW w).testBit 1 || decide (s.rd (.lake w) Reg.lakeClkStatState = 4)
    || decide (s.rd (.lake w) Reg.lakeThermState = 3)

/-- R19: the unit, pond or lake of a destination in the tile array is failed or shut. -/
def State.absent (s : State) (d : Nat) : Bool :=
  let g := dPond d
  let t := if dSpace d = 0xE then dTile d else dUnit d
  s.lakeGone (lakeOf g)
    || (match dSpace d with
        | 1 => !s.goodPond g
        | 2 => !s.goodPond g || (s.tileW g t).testBit 0
        | 4 => !s.goodPond g
        | 0xE => !s.goodPond g || (s.tileW g t).testBit 0
        | 3 => decide (t < 17) && !s.goodPond g || decide (t < 16) && s.csrFailed g t (dOff d)
        | _ => false)

/-- R416: the router of a tile absorbs arriving traffic. -/
def State.resetting (s : State) (g t : Nat) : Bool := s.closed.contains (16 * g + t)

/-- R241: the tile at which a packet for the tile array ejects. -/
def ejectTile (d : Nat) : Nat :=
  if dSpace d = 0xD ∨ dSpace d = 0xE then dTile d
  else if (dSpace d = 2 ∨ dSpace d = 3) ∧ dUnit d < 16 then dUnit d
  else 5

/-! Packets as they arrive (R242). -/

/-- R236, R248: the channel a packet may travel on. -/
def Packet.vcOk (p : Packet) : Bool :=
  decide (p.vc = 3) || (!p.ordered && (decide (p.vc = startVc p.typ false) || (decide (p.typ = 6) && decide (p.vc = 2))))

/-- R239, R241, R302: DEST with code 0xC names a strip unit (0–37) or a collective context (64–79), its other bits 0. -/
def stripOk (d : Nat) : Bool :=
  decide (dSpace d = 0xC) && decide (d / 2 ^ 43 % 32 = 0) && decide (dField d < 48) && decide (d / 2 ^ 7 % 2 ^ 30 = 0)
    && (decide (d % 128 < 38) || (decide (64 ≤ d % 128) && decide (d % 128 < 80)))

/-- R241: DEST with code 0xD names a sending unit, its other bits 0. -/
def sendUnitOk (d : Nat) : Bool := decide (dSpace d = 0xD) && placeOk d && decide (d % 2 ^ 21 = 0)

/-- R241, R255: DEST with code 0xF has the layout of its mode, bits of no field 0. -/
def mcastOk (d : Nat) : Bool :=
  decide (dSpace d = 0xF) && decide (d / 2 ^ 44 % 8 = 0)
    && (if (d / 2 ^ 47).testBit 0 then maskOk d else decide (d / 2 ^ 8 % 2 ^ 35 = 0))

/-- R239–R241: DEST has the layout its space or header code gives, for the TYPE. -/
def Packet.destOk (p : Packet) : Bool :=
  let d := p.dest
  match p.typ with
  | 2 => decide (dSpace d = 0xE) && decide (addrKind 2 d = 0)
  | 3 => decide (dSpace d = 4) && decide (addrKind 3 d = 0)
  | 4 => decide (dSpace d = 0) && decide (addrKind 4 d = 0) && decide (d % 32 = 0)
  | 5 => (decide (dSpace d = 0xE) && decide (addrKind 2 d = 0)) || (stripOk d && decide (64 ≤ d % 128))
  | 6 => mcastOk d
  | 7 => decide (dSpace d = 4) && decide (addrKind 7 d = 0)
  | 0 => (decide (dSpace d ≤ 4) || decide (dSpace d = 8)) && decide (addrKind 0 d ≠ 1)
  | 1 => (decide (dSpace d ≤ 4) || decide (dSpace d = 8)) && decide (addrKind 1 d ≠ 1) && decide (d % 32 + p.len < 32)
  | _ => stripOk d || sendUnitOk d

/-- R242: the packet breaks R239–R241. -/
def Packet.malformed (p : Packet) : Bool :=
  !p.hchkOk || decide (12 ≤ p.typ) || !p.vcOk || !p.destOk || (decide (p.typ = 4) && decide (2 < p.len))
    || (decide (p.typ = 5) && (decide (p.bits 24 2 = 3) || decide (p.bits 26 2 = 3) || decide (16 ≤ p.len)
      || (decide (dSpace p.dest = 0xE) && decide (2 ≤ p.len))))

/-- R242: header bytes 0–7. -/
def Packet.head8 (p : Packet) : Nat := p.header.toNat % 2 ^ 64

/-- R242: a destination tile discards a packet: counted and logged. -/
def State.discardTile (s : State) (g t kind : Nat) (p : Packet) : State :=
  (s.sat (.tile g t) Reg.rtrDiscard 1).recTile g t 32 kind 9 p.head8

/-- R242: a strip unit discards a packet; it has no RTR_DISCARD. -/
def State.discardStrip (s : State) (f unit kind : Nat) (p : Packet) : State := s.recStrip f unit kind 9 0xFF p.head8

end Sys2Proof.Machine
end

