-- ==== Sys2Proof/Machine/Counters.lean ====
section
/-! DEFINITION. The counters of the engine, their wrap bits and wrap times, and how Geper samples one (R457–R464). -/

namespace Sys2Proof.Machine

/-! Registers of a unit (R18). -/

/-- The register fields of a unit (R18). -/
def unitFields (u : UnitId) : List Fld :=
  match u with
  | .tile _ t => (match tileType t with
      | .m => Reg.mcoreFields | .v => Reg.vcoreFields | .a => Reg.auFields | .s => Reg.scoreFields) ++ Reg.rtrFields
  | .pond _ => Reg.pondFields
  | .lake _ => Reg.lakeFields
  | .fld _ => Reg.fldFields
  | .dram _ => Reg.dramFields
  | .opt _ => Reg.optFields
  | .pwr _ => Reg.pwrFields
  | .hub => Reg.hubFields ++ Reg.svcFields

/-- Which register of its kind offset `o` names in field `f`. -/
def Fld.index (f : Fld) (o : Nat) : Option Nat :=
  if o < f.off then none
  else if f.count ≤ 1 then (if o = f.off then some 0 else none)
  else if f.stride = 0 then none
  else if (o - f.off) % f.stride = 0 ∧ (o - f.off) / f.stride < f.count then some ((o - f.off) / f.stride)
  else none

/-- The fields of the register at an offset, with the index in their kind. -/
def fieldsAt (u : UnitId) (o : Nat) : List (Fld × Nat) :=
  (unitFields u).filterMap (fun f => (f.index o).map (fun i => (f, i)))

/-! The counters (R460, R461). -/

/-- A counter: its field, the wrap register (none for a saturating counter), the bit of the first counter of the kind, how far
the bits of the kind lie apart, and its least wrap time in ns (R460, at 1,000 MHz for core cycles). A wrap register of a kind
has one counter of the kind in each. -/
structure Ctr where
  fld : Fld
  wrap : Option Fld
  bit : Nat
  step : Nat
  wrapNs : Nat
  deriving DecidableEq, Repr

/-- R460: least wrap times of the classes in ns. -/
def wrapA : Nat := 2 ^ 48
/-- Class B: 4 per core cycle. -/
def wrapB : Nat := 2 ^ 46
/-- Class C: 16 per core cycle. -/
def wrapC : Nat := 2 ^ 44
/-- Class D: 4.0 × 10⁹ per s. -/
def wrapD : Nat := 2 ^ 46
/-- Class H: 7.03 × 10⁹ per s. -/
def wrapH : Nat := 2 ^ 48 * 100 / 703
/-- Class O: 6.23 × 10⁸ per s. -/
def wrapO : Nat := 2 ^ 48 * 1000 / 623
/-- Class F: 9.34 × 10⁹ per s. -/
def wrapF : Nat := 2 ^ 48 * 100 / 934
/-- Class P: 3.24 × 10¹⁰ per s. -/
def wrapP : Nat := 2 ^ 48 * 10 / 324
/-- Class S: 1 per service cycle. -/
def wrapS : Nat := 2 ^ 48 * 10
/-- Class T: 1 per beat. -/
def wrapT : Nat := 2 ^ 48 * 20
/-- Class U: 1 per µs. -/
def wrapU : Nat := 2 ^ 48 * 1000

/-- A saturating counter (R458). -/
def satCtr (f : Fld) : Ctr := ⟨f, none, 0, 0, 0⟩

/-- R61, R107: counters of an M-core. -/
def mcoreCtrs : List Ctr :=
  [⟨Reg.mcoreStallIn, some Reg.mcoreWrap, 0, 0, wrapB⟩, ⟨Reg.mcoreStallOut, some Reg.mcoreWrap, 1, 0, wrapB⟩,
   ⟨Reg.mcoreStallGate, some Reg.mcoreWrap, 2, 0, wrapB⟩, ⟨Reg.mcoreTiles, some Reg.mcoreWrap, 3, 0, wrapB⟩,
   ⟨Reg.mcoreMasked, some Reg.mcoreWrap, 4, 0, wrapB⟩, ⟨Reg.mcoreSpWin, some Reg.mcoreSpWrap, 0, 0, wrapB⟩,
   ⟨Reg.mcoreSpCyc, some Reg.mcoreSpWrap, 1, 0, wrapB⟩, ⟨Reg.mcoreSpSkip, some Reg.mcoreSpWrap, 2, 0, wrapB⟩,
   satCtr Reg.mcoreChkMismatch, satCtr Reg.mcoreChkSkip, satCtr Reg.mcoreMetaErr, satCtr Reg.mcorePredMiss]
/-- R126: counters of a V-core. -/
def vcoreCtrs : List Ctr :=
  [⟨Reg.vcoreElems, some Reg.vcoreWrap, 0, 0, wrapC⟩, ⟨Reg.vcoreStallIn, some Reg.vcoreWrap, 1, 0, wrapA⟩,
   ⟨Reg.vcoreStallOut, some Reg.vcoreWrap, 2, 0, wrapA⟩, ⟨Reg.vcoreStallGath, some Reg.vcoreWrap, 3, 0, wrapA⟩]
/-- R127: counters of an S-core. -/
def scoreCtrs : List Ctr :=
  [⟨Reg.scoreInstr, some Reg.scoreWrap, 0, 0, wrapA⟩, ⟨Reg.scoreStall, some Reg.scoreWrap, 1, 0, wrapA⟩,
   satCtr Reg.scoreEvents]
/-- R167: counters of an A-unit. -/
def auCtrs : List Ctr :=
  [⟨Reg.auReqs, some Reg.auWrap, 0, 1, wrapA⟩, ⟨Reg.auStall, some Reg.auWrap, 4, 1, wrapA⟩,
   ⟨Reg.auCmpTiles, some Reg.auWrap, 8, 0, wrapA⟩, ⟨Reg.auCmpDense, some Reg.auWrap, 9, 0, wrapA⟩]
/-- R197, R264: counters of a router. -/
def rtrCtrs : List Ctr :=
  [⟨Reg.rtrQstallI, some Reg.rtrQwrap, 0, 1, wrapA⟩, ⟨Reg.rtrQstallO, some Reg.rtrQwrap, 8, 1, wrapA⟩,
   ⟨Reg.rtrSteerWait, some Reg.rtrQwrap, 16, 1, wrapA⟩, ⟨Reg.rtrSteerBlk, some Reg.rtrQwrap, 20, 1, wrapA⟩,
   ⟨Reg.rtrSteerDrop, some Reg.rtrQwrap, 24, 0, wrapA⟩, ⟨Reg.rtrSendHeld, some Reg.rtrQwrap, 25, 0, wrapA⟩,
   ⟨Reg.rtrCombine, some Reg.rtrGwrap, 0, 0, wrapC⟩, ⟨Reg.rtrNack, some Reg.rtrGwrap, 1, 0, wrapC⟩,
   ⟨Reg.rtrEscEnter, some Reg.rtrGwrap, 2, 0, wrapC⟩, ⟨Reg.rtrPktIn, some Reg.rtrPwrap, 0, 0, wrapA⟩,
   ⟨Reg.rtrPktOut, some Reg.rtrPwrap, 1, 0, wrapA⟩, ⟨Reg.rtrStall, some Reg.rtrPwrap, 2, 0, wrapA⟩,
   ⟨Reg.rtrMcHold, some Reg.rtrPwrap, 3, 0, wrapA⟩, satCtr Reg.rtrTokDrop, satCtr Reg.rtrDiscard, satCtr Reg.rtrCrcErr]
/-- R166, R198, R435: counters of a pond. -/
def pondCtrs : List Ctr :=
  [⟨Reg.pondBankConf, some Reg.pondMemWrap, 0, 0, wrapA⟩, ⟨Reg.pondCacheHit, some Reg.pondMemWrap, 1, 0, wrapC⟩,
   ⟨Reg.pondCacheMiss, some Reg.pondMemWrap, 2, 0, wrapC⟩, ⟨Reg.pondCacheWb, some Reg.pondMemWrap, 3, 0, wrapC⟩,
   ⟨Reg.pondSigHeld, some Reg.pondSprWrap, 0, 0, wrapA⟩, ⟨Reg.pondSigApplied, some Reg.pondSprWrap, 1, 0, wrapC⟩,
   ⟨Reg.pondRstAbsorb, some Reg.pondRstWrap, 0, 0, wrapC⟩, satCtr Reg.pondEccCorr, satCtr Reg.pondEccUnc,
   satCtr Reg.pondArrDeny, satCtr Reg.pondRstDiscard]
/-- R354, R388: counters of a lake. -/
def lakeCtrs : List Ctr :=
  [⟨Reg.lakeWakeWarm, some Reg.lakeClkWrap, 0, 0, wrapT⟩, ⟨Reg.lakeWakeCold, some Reg.lakeClkWrap, 1, 0, wrapT⟩,
   ⟨Reg.lakeWakeWait, some Reg.lakeClkWrap, 2, 0, wrapT⟩, ⟨Reg.lakeSleepBeats, some Reg.lakeClkWrap, 3, 0, wrapT⟩,
   ⟨Reg.lakeSwitch, some Reg.lakeClkWrap, 4, 0, wrapT⟩, ⟨Reg.lakeWarmBeats, some Reg.lakePwrWrap, 0, 0, wrapT⟩,
   ⟨Reg.lakeHotBeats, some Reg.lakePwrWrap, 1, 0, wrapT⟩, ⟨Reg.lakeSlewHold, some Reg.lakePwrWrap, 2, 0, wrapA⟩,
   satCtr Reg.lakeDroop, satCtr Reg.lakeClkErr, satCtr Reg.lakeShuts]
/-- R412: counters of a field supervisor. -/
def fldCtrs : List Ctr :=
  [⟨Reg.fldOpalPass, some Reg.fldOpalWrap, 0, 0, wrapT⟩, ⟨Reg.fldOpalAbort, some Reg.fldOpalWrap, 1, 0, wrapT⟩,
   ⟨Reg.fldOpalForced, some Reg.fldOpalWrap, 2, 0, wrapT⟩, satCtr Reg.fldElogStatLost, satCtr Reg.fldElogSuppSuppressed,
   satCtr Reg.fldOpalFail]
/-- R168: counters of a field's DRAM controllers. -/
def dramCtrs : List Ctr :=
  [⟨Reg.dramChRd, some Reg.dramChWrap, 0, 0, wrapD⟩, ⟨Reg.dramChWr, some Reg.dramChWrap, 1, 0, wrapD⟩,
   ⟨Reg.dramChStall, some Reg.dramChWrap, 2, 0, wrapS⟩, satCtr Reg.dramPatrolPasses, satCtr Reg.dramEccCorr,
   satCtr Reg.dramEccUnc]
/-- R292, R311: counters of an optical engine. -/
def optCtrs : List Ctr :=
  [⟨Reg.optTxFrames, some Reg.optWrapPwrap, 0, 4, wrapO⟩, ⟨Reg.optRxFrames, some Reg.optWrapPwrap, 1, 4, wrapO⟩,
   ⟨Reg.optFecCorr, some Reg.optWrapPwrap, 2, 4, wrapF⟩, ⟨Reg.optReplay, some Reg.optWrapPwrap, 3, 4, wrapO⟩,
   ⟨Reg.optRelayed, some Reg.optWrapRwrap, 0, 0, wrapP⟩, ⟨Reg.optCwait, some Reg.optCwrap, 0, 0, wrapS⟩,
   satCtr Reg.optFrameErr, satCtr Reg.optCdrop]
/-- R389: counters of a field's regulators. -/
def pwrCtrs : List Ctr := [satCtr Reg.pwrAlertsField]
/-- R293, R331, R353, R369, R387, R413, R466, R490: counters of the hub and the service controller. -/
def hubCtrs : List Ctr :=
  [⟨Reg.hubCmds, some Reg.hubWrap, 0, 0, wrapT⟩, ⟨Reg.hubDmaIn, some Reg.hubWrap, 1, 0, wrapH⟩,
   ⟨Reg.hubDmaOut, some Reg.hubWrap, 2, 0, wrapH⟩, ⟨Reg.svcRingFrames, some Reg.svcRingWrap, 0, 0, wrapT⟩,
   ⟨Reg.svcSlewBeats, some Reg.svcClkWrap, 0, 0, wrapT⟩, ⟨Reg.svcAlertBeats, some Reg.svcPwrWrap, 0, 0, wrapT⟩,
   ⟨Reg.svcCappedUs, some Reg.svcCapWrap, 0, 0, wrapU⟩, ⟨Reg.svcSlopeWait, some Reg.svcCapWrap, 1, 0, wrapU⟩,
   satCtr Reg.hubRefused, satCtr Reg.hubEvtLost, satCtr Reg.hubSlotWrIgn, satCtr Reg.hubSlotWrIgnBar2Deny,
   satCtr Reg.svcRingErr, satCtr Reg.svcClkSwitchesToOsc, satCtr Reg.svcClkSwitchesToRef, satCtr Reg.svcAlerts,
   satCtr Reg.svcMlogStatLost, satCtr Reg.svcTelemStatSweeps, satCtr Reg.svcTelemStatInexact, satCtr Reg.svcTelemWrIgnCount,
   satCtr Reg.svcCoolWarns]

/-- The counters of a unit. -/
def unitCtrs (u : UnitId) : List Ctr :=
  match u with
  | .tile _ t => (match tileType t with
      | .m => mcoreCtrs | .v => vcoreCtrs | .a => auCtrs | .s => scoreCtrs) ++ rtrCtrs
  | .pond _ => pondCtrs
  | .lake _ => lakeCtrs
  | .fld _ => fldCtrs
  | .dram _ => dramCtrs
  | .opt _ => optCtrs
  | .pwr _ => pwrCtrs
  | .hub => hubCtrs

/-- The unit with a number (`UnitId.idx`). -/
def unitOf (n : Nat) : UnitId :=
  if n < 221184 then .tile (n / 16) (n % 16)
  else if n < 235008 then .pond (n - 221184)
  else if n < 235584 then .lake (n - 235008)
  else if n < 235632 then .fld (n - 235584)
  else if n < 235680 then .dram (n - 235632)
  else if n < 235728 then .opt (n - 235680)
  else if n < 235776 then .pwr (n - 235728)
  else .hub

/-- R465: the register at offset `o` of unit `u` is a wrap register. -/
def isWrapReg (u : UnitId) (o : Nat) : Bool :=
  (unitCtrs u).any (fun c => match c.wrap with | some w => (w.index o).isSome | none => false)

/-- R466: the counter register that offset `o` of unit `u` names: its counter in the low half, if it holds two. -/
def ctrOf (u : UnitId) (o : Nat) : Option (Ctr × Nat) := (unitCtrs u).findSome? (fun c => (c.fld.index o).map (fun i => (c, i)))

/-- R18: the unit that a CSR address names. -/
def csrUnit (d : Nat) : UnitId :=
  let c := dUnit d
  if c < 16 then .tile (dPond d) c
  else if c = 16 then .pond (dPond d)
  else if c = 17 then .lake (lakeOf (dPond d))
  else if c = 18 then .fld (dField d)
  else if c = 19 then .dram (dField d)
  else if c = 20 then .opt (dField d)
  else if c = 21 then .pwr (dField d)
  else .hub

/-- The counter that a register key (`Fld.key`) names, its unit and its number in its kind. -/
def ctrAt (k : Nat) : Option (UnitId × Ctr × Nat) :=
  let u := unitOf (k / 64 / 2 ^ 23)
  (unitCtrs u).findSome? (fun c =>
    if c.fld.lo = k % 64 then (c.fld.index (k / 64 % 2 ^ 23)).map (fun i => (u, c, i)) else none)

/-! Sampling (R463, R464). -/

/-- R316, R462: the register at offset o of unit u cannot be reached: the wafer has no power, the pond is failed, the lake
Off, the field unsupervised, the core failed, or for the RTR_ registers (from 0x400) the router. -/
def State.regGone (s : State) (u : UnitId) (o : Nat) : Bool :=
  let st := s.rd .hub Reg.svcPwrStatState
  let on : Bool := decide (st = 3) || decide (st = 4) || decide (st = 5)
  let off (g : Nat) : Bool := decide (s.rd (.lake (lakeOf g)) Reg.lakeClkStatState = 4)
  match u with
  | .hub => false
  | .tile g t => !on || !s.goodPond g || off g || s.csrFailed g t o
  | .pond g => !on || !s.goodPond g || off g
  | .lake w => !on || !s.supervised (w / 12)
  | .fld f => !on || !s.supervised f
  | .dram f => !on || !s.supervised f
  | .opt f => !on || !s.supervised f
  | .pwr f => !on || !s.supervised f

/-- R20, R263: the tile or pond lies in a failed or Shut lake. -/
def State.unitShut (s : State) (u : UnitId) : Bool :=
  match u with
  | .tile g _ => s.lakeGone (lakeOf g)
  | .pond g => s.lakeGone (lakeOf g)
  | _ => false

/-- R263: the register at offset o of unit u answers UNIT_ABSENT. -/
def State.regAbsent (s : State) (u : UnitId) (o : Nat) : Bool := s.regGone u o || s.unitShut u

/-- The unit itself is absent: the core of a tile, any other unit as a whole. -/
def State.ctrAbsent (s : State) (u : UnitId) : Bool := s.regAbsent u 0

/-- Store the total of a counter. -/
def State.setTelem (s : State) (k : Nat) (x : Telem) : State := { s with telem := s.telem.set k Telem.init x }

/-- R464: one sample of counter `i` of a kind of unit `u`. A counter that has never counted needs no time of its last sample:
its raw value 0 is at most every later one. -/
def State.sampleCtr (s : State) (u : UnitId) (c : Ctr) (i : Nat) : State :=
  let k := c.fld.key u i
  let x := s.telem.get k Telem.init
  let b := s.rdi u c.fld i
  match c.wrap with
  | none =>
    if b = 0 ∧ x = Telem.init then s
    else s.setTelem k { x with
      raw := b
      total := (x.total + (b - x.raw)) % 2 ^ 64
      last := s.now
      sat := x.sat || decide (b = 0xFFFFFFFF) }
  | some w =>
    let wi := if 1 < w.count then i else 0
    let bit := c.bit + c.step * i
    let wrapped := (s.rdi u w wi).testBit bit
    if b = 0 ∧ wrapped = false ∧ x = Telem.init then s
    else
      let bad : Bool := wrapped && (decide (x.raw ≤ b) || decide (c.wrapNs ≤ s.now - x.last))
      let s := if bad && !x.inexact then s.sat .hub Reg.svcTelemStatInexact 1 else s
      let s := if wrapped then s.clrBiti u w wi bit else s
      s.setTelem k { x with
        raw := b
        total := (x.total + (b + 2 ^ 48 - x.raw) % 2 ^ 48) % 2 ^ 64
        last := s.now
        inexact := x.inexact || bad
        wraps := if b < x.raw then Min.min (x.wraps + 1) 0xFFFFFFFF else x.wraps }

/-- How many registers a field's kind has. -/
def Fld.number (f : Fld) : Nat := Max.max 1 f.count

/-- R462: every counter of the units that `p` selects is sampled, but for those that cannot be reached. A unit without a register
away from its reset value and without a total has nothing to fold. -/
def State.sampleUnits (s : State) (p : UnitId → Bool) : State :=
  let units := ((s.regs.map (fun e => e.1)) ++ (s.telem.map (fun e => e.1))).map (fun k => k / 64 / 2 ^ 23)
  (units.eraseDups.map unitOf).foldl (fun s u =>
    if p u then
      ((unitCtrs u).filter (fun c => !s.regGone u c.fld.off)).foldl (fun s c => (List.range c.fld.number).foldl
        (fun s i => s.sampleCtr u c i) s) s
    else s) s

/-- PRE_RESET_SAMPLE (R463): the counters of units about to be reset are sampled once more, while Geper sweeps. -/
def State.preReset (s : State) (p : UnitId → Bool) : State :=
  if s.rd .hub Reg.svcTelemCtrlEn = 1 then s.sampleUnits p else s

/-- R463: after a reset, 0 is the last raw value of the counters of the units that `p` selects. -/
def State.rebase (s : State) (p : UnitId → Bool) : State :=
  { s with telem := s.telem.map (fun e => if p (unitOf (e.1 / 64 / 2 ^ 23)) then (e.1, { e.2 with raw := 0 }) else e) }

/-- R459: the counters and wrap bits of the units that `p` selects return to 0. -/
def State.clearCtrs (s : State) (p : UnitId → Bool) : State :=
  { s with regs := s.regs.clear (fun k =>
      let u := unitOf (k / 64 / 2 ^ 23)
      p u && ((ctrAt k).isSome || isWrapReg u (k / 64 % 2 ^ 23))) }

end Sys2Proof.Machine
end

