-- ==== Sys2Proof/Machine/Contexts.lean ====
section
/-! DEFINITION. The contexts of collectives: what they hold and show, and how they fail (R294, R297, R307, R311). -/

namespace Sys2Proof.Machine

/-- An empty buffer for a shard. -/
def CBuf.fresh (shard : Nat) : CBuf := ⟨shard, [], [], [], [], [], 0, 0, 0, 0, 0, false, 0, [], 0, false⟩
/-- A context that holds nothing. -/
def Coll.idle : Coll := ⟨none, none⟩
/-- Read a context. -/
def State.coll (s : State) (f c : Nat) : Coll := s.colls.get (16 * f + c) Coll.idle
/-- R298: the record that defines a CTX. -/
def State.collRec (s : State) (c : Nat) : Option CollRec := s.img.colls.find? (fun x => decide (x.ctx = c))
/-- Buffer p of a context. -/
def State.cbuf (s : State) (f c p : Nat) : Option CBuf := if p = 0 then (s.coll f c).b0 else (s.coll f c).b1

/-- R294: the number of ranks. -/
def State.ranks (s : State) : Nat := Max.max 1 (s.rd (.opt 0) Reg.optSysSize)
/-- R294: the virtual rank for a shard. -/
def State.vrank (s : State) (shard : Nat) : Nat := (s.rank + s.ranks - shard % s.ranks) % s.ranks
/-- R294: the rank with virtual rank v. -/
def State.rankAt (s : State) (shard v : Nat) : Nat := (v + shard) % s.ranks
/-- R294: the children of this rank. -/
def State.kids (s : State) (shard : Nat) : List Nat :=
  let v := s.vrank shard
  ([2 * v + 1, 2 * v + 2].filter (fun x => decide (x < s.ranks))).map (s.rankAt shard)
/-- The rank owns the shard. -/
def State.owns (s : State) (shard : Nat) : Bool := decide (s.vrank shard = 0)

/-- The owner waits for a start marker for the buffer (R306, R311). -/
def State.awaits (s : State) (r : CollRec) (b : CBuf) : Bool :=
  s.owns b.shard && !b.started && (decide (r.kind = 2) || (decide (r.kind = 3) && b.done))

/-- R311: STATE, BUSY, PART, KIND and SHARD follow the buffers. -/
def State.collShow (s : State) (f c : Nat) : State :=
  let x := s.coll f c
  let u := UnitId.opt f
  match s.collRec c with
  | none => s.wri u Reg.optCstatBusy c 0
  | some r =>
    let bs := [x.b0, x.b1].filterMap id
    let s := s.wri u Reg.optCstatBusy c (x.b0.isSome.toNat + 2 * x.b1.isSome.toNat)
    let s := (s.wri u Reg.optCstatPart c r.part).wri u Reg.optCstatKind c r.kind
    let s := s.wri u Reg.optCstatShard c (match bs with
      | [] => 0
      | b :: t => t.foldl (fun m y => Min.min m y.shard) b.shard)
    if s.rdi u Reg.optCstatState c = 2 then s
    else s.wri u Reg.optCstatState c (if bs = [] then 0 else if bs.any (fun b => s.awaits r b) then 3 else 1)

/-- Write buffer p of a context. -/
def State.setCbuf (s : State) (f c p : Nat) (b : Option CBuf) : State :=
  let x := s.coll f c
  ({ s with colls := s.colls.set (16 * f + c) Coll.idle (if p = 0 then { x with b0 := b } else { x with b1 := b }) }
    : State).collShow f c

/-- The wafer pond of PACE_LPOND. -/
def State.pacePond (s : State) (r : CollRec) : Option Nat :=
  ((s.parts.get r.part Part.none).sites.find? (fun x => decide (x.1 = r.pace))).map (fun x => x.2)

/-- R307: the context fails: both buffers dropped, COLL_ERROR, POISON. -/
def State.collFail (s : State) (f c kind shard : Nat) : State :=
  match s.collRec c with
  | none => s
  | some r =>
    let s : State := { s with colls := s.colls.set (16 * f + c) Coll.idle Coll.idle }
    let u := UnitId.opt f
    let s := ((s.wri u Reg.optCstatState c 2).wri u Reg.optCstatErr c kind).collShow f c
    let s := s.recStrip f (64 + c) 0x14 10 r.part (kind + c * 2 ^ 8 + shard % 2 ^ 24 * 2 ^ 12)
    match s.pacePond r with
    | some g => s.raise g 2 5
    | none => s

/-- R286, R307: a REDUCE finds no port at field f's unit `me`: the context of this rank that sent it to its parent or a child
fails with PEER_UNREACHABLE; another REDUCE is discarded and reported. -/
def State.reduceLost (s : State) (f me : Nat) (p : Packet) : State :=
  let reported := s.recStrip f me 0x11 9 0xFF (p.tag + 2 ^ 11)
  let g := dField p.dest
  let c := p.dest % 128 - 64
  if dSpace p.dest ≠ 0xC ∨ p.dest % 128 < 64 ∨ 80 ≤ p.dest % 128 then reported
  else
    match s.cbuf g c (p.tag / 512) with
    | none => reported
    | some b =>
      let v := s.vrank b.shard
      let near := if v = 0 then s.kids b.shard else s.rankAt b.shard ((v - 1) / 2) :: s.kids b.shard
      if near.contains (dRank p.dest) then s.collFail g c 3 b.shard else reported

end Sys2Proof.Machine
end

