-- ==== Sys2Proof/Machine/Graph.lean ====
section
/-! DEFINITION. The working graph of routers and links, shortest lengths and the up*/down* escape paths (R233,
R243–R245). -/

namespace Sys2Proof.Machine

/-- Routers of the wafer. -/
def numTiles : Nat := 221184

/-- X of router i = 16·pond + tile. -/
def rX (i : Nat) : Nat := tileX (i / 16) (i % 16)
/-- Y of router i. -/
def rY (i : Nat) : Nat := tileY (i / 16) (i % 16)
/-- R245: Y·512 + X. -/
def rOrder (i : Nat) : Nat := rY i * 512 + rX i

/-- R233: the router beyond port q (0 N, 1 E, 2 S, 3 W). -/
def neighbour (i q : Nat) : Nat :=
  match q with
  | 0 => tileAt (rX i) ((rY i + 1) % 432)
  | 1 => tileAt ((rX i + 1) % 512) (rY i)
  | 2 => tileAt (rX i) ((rY i + 431) % 432)
  | _ => tileAt ((rX i + 511) % 512) (rY i)

/-- The port at the far end of a link. -/
def opposite (q : Nat) : Nat := (q + 2) % 4

/-- R233: the link beyond port q is a wrap link. -/
def isWrap (i q : Nat) : Bool :=
  match q with
  | 0 => decide (rY i = 431)
  | 1 => decide (rX i = 511)
  | 2 => decide (rY i = 0)
  | 3 => decide (rX i = 0)
  | _ => false

/-- R233: length of a hop in core cycles. -/
def hopLen (i q : Nat) : Nat :=
  if q = 5 then 3 else if isWrap i q then 8 else if lakeOf (i / 16) = lakeOf (neighbour i q / 16) then 1 else 3

/-- What a route computation works on: tile words, ponds and lakes cut out. -/
structure Graph where
  word : Tab Nat
  ponds : List Nat
  lakes : List Nat
  deriving DecidableEq, Repr

/-- Router i works. -/
def Graph.up (g : Graph) (i : Nat) : Bool :=
  !(g.word.get i 0).testBit 1 && !g.ponds.contains (i / 16) && !g.lakes.contains (lakeOf (i / 16))

/-- R23: the link beyond port q of router i works: neither end marks it. -/
def Graph.link (g : Graph) (i q : Nat) : Bool :=
  let m := neighbour i q
  g.up i && g.up m && !(g.word.get i 0).testBit (2 + q) && !(g.word.get m 0).testBit (2 + opposite q)

/-- No hole. -/
def Graph.full (g : Graph) : Bool :=
  g.word.all (fun e => decide (e.2 / 2 % 32 = 0)) && g.ponds.isEmpty && g.lakes.isEmpty

/-- R243: the working graph with every hole known: what the next tables are computed from. -/
def State.nextGraph (s : State) : Graph :=
  ⟨s.overlay.tile.foldl (fun t e => t.set e.1 0 (Tab.get t e.1 0 ||| e.2)) s.factory.tile, s.net.cutPonds,
    (List.range numLakes).filter (fun w => (s.lakeW w).testBit 0 || (s.lakeW w).testBit 1 || s.net.cutLakes.contains w)⟩

/-- The graph the tables in force were computed from. -/
def State.tableGraph (s : State) : Graph := ⟨s.net.tabTile, s.net.tabPonds, s.net.tabLakes⟩

/-- The graph the tables of the update under way are computed from (R253 step 2). -/
def State.updateGraph (s : State) : Graph := ⟨s.net.newTile, s.net.newPonds, s.net.newLakes⟩

/-- R253: what routers send over now: nothing into a failed router or link; a lake being shut, or a pond being cut out for its
reset, keeps its routers until new tables are in force. -/
def State.liveGraph (s : State) : Graph :=
  let g := s.nextGraph
  { g with
    ponds := g.ponds.filter (fun p => s.net.tabPonds.contains p)
    lakes := g.lakes.filter (fun w => s.net.tabLakes.contains w) }

/-! Shortest lengths. -/

/-- Length along one axis without holes: direct, or through the wrap link. `n` sites, a lake boundary every `k`. -/
def axisLen (n k a b : Nat) : Nat :=
  let pre (x : Nat) : Nat := x + 2 * (x / k)
  let lo := Min.min a b
  let hi := Max.max a b
  Min.min (pre hi - pre lo) (pre (n - 1) - pre hi + pre lo + 8)

/-- R243: d without holes. -/
def torusLen (i j : Nat) : Nat := axisLen 512 16 (rX i) (rX j) + axisLen 432 24 (rY i) (rY j)

/-- Lengths from a set of starting points over a graph given by its successors: one level a turn. -/
def wave (succ : Nat → List (Nat × Nat)) : Nat → Nat → List (Nat × Nat) → Array (Option Nat) → Array (Option Nat)
  | 0, _, _, dist => dist
  | fuel + 1, level, todo, dist =>
    match todo with
    | [] => dist
    | _ =>
      let fresh (e : Nat × Nat) : Bool := (dist.getD e.2 none).isNone
      let now := todo.filter (fun e => decide (e.1 ≤ level) && fresh e)
      let later := todo.filter (fun e => !decide (e.1 ≤ level) && fresh e)
      let dist' := now.foldl (fun d e => d.setIfInBounds e.2 (some level)) dist
      let next := now.flatMap (fun e => (succ e.2).map (fun x => (level + x.1, x.2)))
      wave succ fuel (level + 1) (later ++ next) dist'

/-- Turns that cover every path length. -/
def waveFuel : Nat := 8 * 2 * numTiles

/-- R243: least length from every router to the nearest of some goals (each with an added length). -/
def Graph.distTo (g : Graph) (goals : List (Nat × Nat)) : Nat → Option Nat :=
  if g.full then fun i => (goals.map (fun e => e.1 + torusLen i e.2)).min?
  else
    let succ (m : Nat) : List (Nat × Nat) :=
      ([0, 1, 2, 3].filter (g.link m)).map (fun q => (hopLen (neighbour m q) (opposite q), neighbour m q))
    let a := wave succ waveFuel 0 (goals.filter (fun e => g.up e.2)) (Array.replicate numTiles none)
    fun i => a.getD i none

/-- R251: the field-link routers of field f. -/
def fieldLinks (f : Nat) : List Nat :=
  (List.range 288).flatMap (fun p => [3, 10, 12].map (fun t => 16 * (288 * f + p) + t))

/-! Escape paths (R245). -/

/-- Hops around the torus from (256, 216). -/
def rootDist (i : Nat) : Nat :=
  let dx := (rX i - 256) + (256 - rX i)
  let dy := (rY i - 216) + (216 - rY i)
  Min.min dx (512 - dx) + Min.min dy (432 - dy)

/-- R245: the root of the escape tree. -/
def Graph.root (g : Graph) : Nat :=
  ((List.range numTiles).filter g.up).foldl (fun b i =>
    if ¬ g.up b ∨ rootDist i < rootDist b ∨ (rootDist i = rootDist b ∧ rOrder i < rOrder b) then i else b)
    (tileAt 256 216)

/-- R245: breadth-first levels from the root. -/
def Graph.levels (g : Graph) : Array (Option Nat) :=
  wave (fun m => ([0, 1, 2, 3].filter (g.link m)).map (fun q => (1, neighbour m q))) waveFuel 0 [(0, g.root)]
    (Array.replicate numTiles none)

/-- R245: a hop from a to b is up. -/
def isUp (lv : Array (Option Nat)) (a b : Nat) : Bool :=
  match lv.getD a none, lv.getD b none with
  | some x, some y => decide (y < x) || (decide (y = x) && decide (rOrder b < rOrder a))
  | _, _ => false

/-- R245: lengths of the least legal paths to a router, by router and DOWN: index 2·i + DOWN. -/
def Graph.escapeTo (g : Graph) (lv : Array (Option Nat)) (goal : Nat) : Array (Option Nat) :=
  let succ (n : Nat) : List (Nat × Nat) :=
    let m := n / 2
    ([0, 1, 2, 3].filter (g.link m)).flatMap (fun q =>
      let h := neighbour m q
      let len := hopLen h (opposite q)
      if isUp lv h m then (if n % 2 = 0 then [(len, 2 * h)] else [])
      else if n % 2 = 1 then [(len, 2 * h), (len, 2 * h + 1)] else [])
  wave succ waveFuel 0 [(0, 2 * goal), (0, 2 * goal + 1)] (Array.replicate (2 * numTiles) none)

/-- R245: the escape next hop from router h to a router: port and new DOWN. -/
def Graph.escapeHop (g : Graph) (h : Nat) (down : Bool) (goal : Nat) : Option (Nat × Bool) :=
  let lv := g.levels
  let a := g.escapeTo lv goal
  let opts := ([0, 1, 2, 3].filter (g.link h)).filterMap (fun q =>
    let m := neighbour h q
    let dn := !isUp lv h m
    if down && !dn then none
    else (a.getD (2 * m + dn.toNat) none).map (fun l => (hopLen h q + l, q, dn)))
  match opts with
  | [] => none
  | o :: r => let b := r.foldl (fun b x => if x.1 < b.1 then x else b) o
              some (b.2.1, b.2.2)

/-- R245: the field-link router of field f with the least escape length from h. -/
def Graph.escapeLink (g : Graph) (h : Nat) (down : Bool) (f : Nat) : Option Nat :=
  let lv := g.levels
  let succ (n : Nat) : List (Nat × Nat) :=
    let x := n / 2
    ([0, 1, 2, 3].filter (g.link x)).flatMap (fun q =>
      let m := neighbour x q
      if isUp lv x m then (if n % 2 = 0 then [(hopLen x q, 2 * m)] else []) else [(hopLen x q, 2 * m + 1)])
  let a := wave succ waveFuel 0 [(0, 2 * h + down.toNat)] (Array.replicate (2 * numTiles) none)
  let len (i : Nat) : Option Nat :=
    match a.getD (2 * i) none, a.getD (2 * i + 1) none with
    | some x, some y => some (Min.min x y)
    | some x, none => some x
    | none, y => y
  ((fieldLinks f).filterMap (fun i => (len i).map (fun l => (l, i)))).foldl (fun b e =>
    match b with
    | none => some e
    | some x => if e.1 < x.1 ∨ (e.1 = x.1 ∧ rOrder e.2 < rOrder x.2) then some e else b) none |>.map (fun e => e.2)

end Sys2Proof.Machine
end

