-- ==== Sys2Proof/Machine/Matrix.lean ====
section
/-! DEFINITION. The matrix cores (R27–R61) with sparse execution and the predictor (R83–R107). Each meaning takes the
pond g and tile position t of its M-core. -/

namespace Sys2Proof.Machine

/-- The unit of an M-core's registers. -/
abbrev mUnit (g t : Nat) : UnitId := .tile g t

/-- A_FMT. -/
def State.aFmt (s : State) (g t : Nat) : NFmt := .ofCode (s.rd (mUnit g t) Reg.mcoreCfgAFmt)
/-- B_FMT. -/
def State.bFmt (s : State) (g t : Nat) : NFmt := .ofCode (s.rd (mUnit g t) Reg.mcoreCfgBFmt)
/-- OUT_FMT. -/
def State.outFmt (s : State) (g t : Nat) : NFmt := .ofCode (s.rd (mUnit g t) Reg.mcoreCfgOutFmt)
/-- ROW_K. -/
def State.rowK (s : State) (g t : Nat) : Nat := s.rd (mUnit g t) Reg.mcoreShapeRowK
/-- NCOLS. -/
def State.ncols (s : State) (g t : Nat) : Nat := s.rd (mUnit g t) Reg.mcoreShapeNcols
/-- R49: groups of 4 per check segment; 0 means 256. -/
def State.segGroups (s : State) (g t : Nat) : Nat :=
  let v := s.rd (mUnit g t) Reg.mcoreCfgSegGroups
  if v = 0 then 256 else v
/-- R61: DEMAND with 0 taken as 1. -/
def gateDemand (v : Nat) : Nat := if v = 0 then 1 else v
/-- R36: DEADLINE with 0 as 4,096. -/
def gateDeadline (v : Nat) : Nat := if v = 0 then 4096 else v

/-- Ceiling division. -/
def cdiv (a b : Nat) : Nat := (a + b - 1) / b

/-- R33, R87: entries that hold a row's elements. -/
def elemEntries (f : NFmt) (rowK : Nat) : Nat := cdiv (rowK * f.bits) 256
/-- R33: entries that hold its scale bytes. -/
def scaleEntries (f : NFmt) (rowK : Nat) : Nat := if f.scaled then cdiv (rowK / 32) 32 else 0
/-- R87: entries that hold its bitmaps. -/
def bmEntries (bm : Bool) (rowK : Nat) : Nat := if bm then cdiv (rowK / 64 * 8) 32 else 0
/-- R40: entries of a whole row. -/
def State.rowEntries (s : State) (g t : Nat) : Nat :=
  elemEntries (s.aFmt g t) (s.rowK g t) + scaleEntries (s.aFmt g t) (s.rowK g t)
    + bmEntries (s.flag (mUnit g t) Reg.mcoreSparseRowBm) (s.rowK g t)
/-- R103: entries of a neuron mask. -/
def State.maskEntries (s : State) (g t : Nat) : Nat :=
  if s.flag (mUnit g t) Reg.mcoreSparsePredEn then cdiv (s.ncols g t) 128 else 0
/-- R33, R103: the row has all its entries and masks. -/
def State.rowComplete (s : State) (g t : Nat) (r : GateRow) : Bool :=
  decide (r.have_ = s.rowEntries g t) && decide (r.masks.length = s.maskEntries g t)
/-- Complete rows the filling group holds (a prefix). -/
def State.gateFill (s : State) (g t : Nat) : Nat :=
  ((s.mcore g t).fill.takeWhile (s.rowComplete g t)).length

/-- R40: does the gate buffer hold B rows for DEMAND `d`? -/
def State.gateHolds (s : State) (g t d : Nat) : Bool :=
  let size := s.rd (mUnit g t) Reg.mcoreGateBufSize
  decide (size ≠ 0) && decide (4 * d * (32 * s.rowEntries g t) ≤ size * 1024)

/-- R42: the array is live. -/
def State.arrLive (s : State) (g t a : Nat) : Bool :=
  !(s.tileW g t).testBit (6 + a) && !(s.rd (mUnit g t) Reg.mcoreArrayRetiredChk).testBit a

/-- Live arrays as a mask. -/
def State.liveMask (s : State) (g t : Nat) : Nat :=
  ((List.range 4).map (fun a => if s.arrLive g t a then 2 ^ a else 0)).sum

/-- R34, R42: the array that takes the next quarter, round-robin after `rr`. -/
def State.nextLive (s : State) (g t rr : Nat) : Option Nat :=
  ((List.range 4).map (fun n => (rr + 1 + n) % 4)).find? (s.arrLive g t)

/-- The register values that govern a group that starts filling now (R39, R107). -/
def State.gateGovNow (s : State) (g t : Nat) : GateGov :=
  ⟨gateDemand (s.rd (mUnit g t) Reg.mcoreGateDemand), gateDeadline (s.rd (mUnit g t) Reg.mcoreGateDeadline),
    s.rd (mUnit g t) Reg.mcorePredThrMissThr⟩

/-- R36–R38: release the complete rows held, if any: pad with masked rows to a multiple of 4; an incomplete row starts
the next group under the values in force now. -/
def State.gateRelease (s : State) (g t : Nat) : State :=
  let m := s.mcore g t
  let n := s.gateFill g t
  if n = 0 then s
  else
    let size := 4 * cdiv n 4
    let rest := m.fill.drop n
    let thr := (m.gov.getD (s.gateGovNow g t)).missThr
    let grp : MGroup := ⟨m.nextGid, m.fill.take n, size, thr, 0, 0⟩
    let s := s.setMcore g t { m with fill := rest, groups := m.groups ++ [grp], nextGid := m.nextGid + 1, age := 0,
                                     gov := if rest.isEmpty then none else some (s.gateGovNow g t) }
    s.count (mUnit g t) Reg.mcoreMasked Reg.mcoreWrap 4 (size - n)

/-- R36: release when B complete rows are held. -/
def State.gateJudge (s : State) (g t : Nat) : State :=
  let b := 4 * ((s.mcore g t).gov.getD (s.gateGovNow g t)).demand
  if b ≤ s.gateFill g t then s.gateRelease g t else s

/-- `dt` core cycles pass at the gate: complete rows held unreleased count (R61), and the timer runs while RUN is 1 (R36). -/
def State.gateTime (s : State) (g t dt : Nat) : State :=
  if s.gateFill g t = 0 then s
  else
    let m := s.mcore g t
    (s.setMcore g t { m with age := if s.flag (mUnit g t) Reg.mcoreCtrlRun then m.age + dt else m.age }).count (mUnit g t)
      Reg.mcoreStallGate Reg.mcoreWrap 2 dt

/-- R33: a free slot of the gate buffer. DESIGN CHOICE (log entry 24): the rule says "a free slot" and lays none out; slot k starts k
rows of whole entries above BASE, and the lowest slot that no row of the filling group or of a released group occupies is taken. -/
def State.gateSlot (s : State) (g t : Nat) : Option Nat :=
  let m := s.mcore g t
  let used := m.fill.map (fun r => r.slot) ++ m.groups.flatMap (fun x => x.rows.map (fun r => r.slot))
  let n := s.rd (mUnit g t) Reg.mcoreGateBufSize * 1024 / (32 * s.rowEntries g t)
  (List.range n).find? (fun k => !used.contains k)

/-- Memory key of byte `o` of slot `slot` of the gate buffer. -/
def State.gateKey (s : State) (g t slot o : Nat) : Nat :=
  coreKey g t (s.rd (mUnit g t) Reg.mcoreGateBufBase * 1024 + slot * (32 * s.rowEntries g t) + o)

/-- The core may take entries: RUN set, matrix mode, no drain, no MODE change pending, issue not stopped (R37, R47). -/
def State.mTakes (s : State) (g t : Nat) : Bool :=
  s.flag (mUnit g t) Reg.mcoreCtrlRun && !s.flag (mUnit g t) Reg.mcoreCtrlDrain
    && (s.mcore g t).modeNext.isNone && !(s.tileW g t).testBit 0

/-- GATE_BUFFER_WRITE (R33, R36, R39): an entry of queue 0 goes into the row that is filling, or opens a row in a free
slot; `dt` core cycles have passed at the gate. With no free slot queue 0 waits and STALL_IN counts; with an empty queue 0 it is the
arrays that wait, which SEGMENT_CHECK counts (R61). -/
def gateBufferWrite (g t dt : Nat) (s : State) : State :=
  let s := s.gateTime g t dt
  let u := mUnit g t
  if s.mTakes g t && !s.flag u Reg.mcoreCtrlMode then
    match s.headData g t 0 with
    | none => s
    | some e =>
      let m := s.mcore g t
      let put (s : State) (m : MCore) (rows : List GateRow) (r : GateRow) : State :=
        let s := s.pop g t false 0
        let k := s.gateKey g t r.slot (32 * r.have_)
        let s := (s.putMem k (bvBytes 32 e)).healSram k 32
        (s.setMcore g t { m with fill := rows ++ [{ r with have_ := r.have_ + 1 }],
                                 gov := some (m.gov.getD (s.gateGovNow g t)) }).gateJudge g t
      match m.fill.getLast? with
      | some r =>
        if r.have_ < s.rowEntries g t then put s m m.fill.dropLast r
        else
          match s.gateSlot g t with
          | some k => put s m m.fill ⟨k, 0, []⟩
          | none => s.count u Reg.mcoreStallIn Reg.mcoreWrap 0 dt
      | none =>
        match s.gateSlot g t with
        | some k => put s m [] ⟨k, 0, []⟩
        | none => s.count u Reg.mcoreStallIn Reg.mcoreWrap 0 dt
  else s

/-- GATE_DEADLINE (R36, R37): `dt` core cycles have passed at the gate, and with the deadline expired while RUN is 1 the
complete rows leave. -/
def gateDeadlineExpires (g t dt : Nat) (s : State) : State :=
  let s := s.gateTime g t dt
  let m := s.mcore g t
  if s.flag (mUnit g t) Reg.mcoreCtrlRun ∧ (m.gov.getD (s.gateGovNow g t)).deadline ≤ m.age then s.gateRelease g t else s

/-- CFG_WR_IGN of an M-core. -/
def State.mIgnore (s : State) (g t : Nat) : State := s.wr (mUnit g t) Reg.mcoreStatusCfgWrIgn 1

/-- R32, R40, R49: the checks of a write of RUN = 1. -/
def State.mRunOk (s : State) (g t : Nat) : Bool :=
  let rowK := s.rowK g t
  let n := s.ncols g t
  decide (rowK % 64 = 0) && decide (64 ≤ rowK) && decide (rowK ≤ 8192)
    && decide (n % 16 = 0) && decide (16 ≤ n) && decide (n ≤ 4096)
    && decide (rowK % (4 * s.segGroups g t) = 0)
    && s.gateHolds g t (gateDemand (s.rd (mUnit g t) Reg.mcoreGateDemand))

/-- MCORE_CTRL_RUN (R40, R37): RUN is set after the checks, or cleared. -/
def mcoreRunWrite (g t : Nat) (v : Bool) (s : State) : State :=
  if v then
    if s.mRunOk g t then s.wr (mUnit g t) Reg.mcoreCtrlRun 1 else s.mIgnore g t
  else s.wr (mUnit g t) Reg.mcoreCtrlRun 0

/-- MCORE_DRAIN (R37): no further entry is taken, and with RUN = 1 the complete rows held are released. -/
def mcoreDrain (g t : Nat) (s : State) : State :=
  (if s.flag (mUnit g t) Reg.mcoreCtrlRun then s.gateRelease g t else s).wr (mUnit g t) Reg.mcoreCtrlDrain 1

/-- R47: every accumulator set has drained and the epilogue is empty; groups released and not started wait. -/
def MCore.settled (m : MCore) : Bool :=
  m.groups.all (fun x => decide (x.nextQ = 0)) && m.bb.isEmpty && m.stage2.isEmpty && m.arrs.all (fun a => a.work.isNone)

/-- Nothing is in hand behind the gate. -/
def MCore.drained (m : MCore) : Bool := m.groups.isEmpty && m.settled

/-- MCORE_DRAIN_DONE (R37): every group and set in hand has finished. -/
def mcoreDrainDone (g t : Nat) (s : State) : State :=
  if s.flag (mUnit g t) Reg.mcoreCtrlDrain && (s.mcore g t).drained then
    (s.wr (mUnit g t) Reg.mcoreCtrlRun 0).wr (mUnit g t) Reg.mcoreCtrlDrain 0
  else s

/-- GATE_RELEASE (R37): the held complete rows leave at once; with RUN = 0 the gate releases nothing. -/
def gateReleaseWrite (g t : Nat) (s : State) : State :=
  if s.flag (mUnit g t) Reg.mcoreCtrlRun then s.gateRelease g t else s

/-- MCORE_GATE_WRITE (R39, R40): DEMAND 9–15 and a DEMAND whose rows the gate buffer cannot hold are discarded. -/
def mcoreGateWrite (g t : Nat) (v : DWord) (s : State) : State :=
  let d := v.toNat / 2 ^ 16 % 16
  if d ≤ 8 && s.gateHolds g t (gateDemand d) then
    (s.wr (mUnit g t) Reg.mcoreGateDeadline (v.toNat % 4096)).wr (mUnit g t) Reg.mcoreGateDemand d
  else s.mIgnore g t

/-- MCORE_MODE (R47): a write that changes MODE is latched; a second one replaces it. -/
def mcoreModeWrite (g t : Nat) (v : Bool) (s : State) : State :=
  let m := s.mcore g t
  let n := if v then 1 else 0
  if m.modeNext.isSome || decide (s.rd (mUnit g t) Reg.mcoreCtrlMode ≠ n) then
    (s.setMcore g t { m with modeNext := some n }).wr (mUnit g t) Reg.mcoreStatusModePending 1
  else s

/-- MODE_CHANGE_APPLY (R47): the latched MODE takes effect once every set has drained and the epilogue is empty. -/
def modeChangeApply (g t : Nat) (s : State) : State :=
  let m := s.mcore g t
  match m.modeNext with
  | some n =>
    if m.settled then
      ((s.setMcore g t { m with modeNext := none }).wr (mUnit g t) Reg.mcoreCtrlMode n).wr
        (mUnit g t) Reg.mcoreStatusModePending 0
    else s
  | none => s

/-! Operand fetch. -/

/-- The code of element n of a packed array at key k. -/
def State.packedCode (s : State) (f : NFmt) (k n : Nat) : Nat :=
  match f with
  | .f4 => (s.mem.byte (k + n / 2)).toNat / (if n % 2 = 1 then 16 else 1) % 16
  | _ => s.memNat (k + n * (f.bits / 8)) (f.bits / 8)

/-- R33: element K-index k of the row in a slot, with its scale. -/
def State.rowElem (s : State) (g t slot k : Nat) : Scaled :=
  let f := s.aFmt g t
  let el := f.decode (s.packedCode f (s.gateKey g t slot 0) k)
  if f.scaled then
    (el, s8decode (s.mem.byte (s.gateKey g t slot (32 * elemEntries f (s.rowK g t) + k / 32))).toNat)
  else (el, .fin false 1 0)

/-- R87: the bitmap bit of K-index k of the row in a slot; all ones without row bitmaps. -/
def State.rowBit (s : State) (g t slot k : Nat) : Bool :=
  if s.flag (mUnit g t) Reg.mcoreSparseRowBm then
    let f := s.aFmt g t
    let o := 32 * (elemEntries f (s.rowK g t) + scaleEntries f (s.rowK g t)) + 8 * (k / 64)
    (s.memNat (s.gateKey g t slot o) 8).testBit (k % 64)
  else true

/-- R29, R30: K-elements per slot of the operand pair. -/
def State.pairSlot (s : State) (g t : Nat) : Nat := min (s.aFmt g t).perSlot (s.bFmt g t).perSlot

/-- Ring size in bytes. -/
def State.ringSize (s : State) (g t : Nat) : Nat := 1024 * s.rd (mUnit g t) Reg.mcoreWringSize
/-- Memory key of ring position p (R35). -/
def State.ringKey (s : State) (g t p : Nat) : Nat :=
  coreKey g t (1024 * s.rd (mUnit g t) Reg.mcoreWringBase + p % Max.max (s.ringSize g t) 1)
/-- Little-endian number of n bytes from ring position p. -/
def State.ringNat (s : State) (g t p n : Nat) : Nat :=
  leNat ((List.range n).map (fun i => s.mem.byte (s.ringKey g t (p + i))))
/-- Element n of packed weights from ring position p. -/
def State.ringCode (s : State) (g t : Nat) (f : NFmt) (p n : Nat) : Nat :=
  match f with
  | .f4 => s.ringNat g t (p + n / 2) 1 / (if n % 2 = 1 then 16 else 1) % 16
  | _ => s.ringNat g t (p + n * (f.bits / 8)) (f.bits / 8)

/-- R35: index of the weight of K-index k (from the start of a run of whole blocks) and column j, with e K-elements
per slot. -/
def blockIndex (e k j : Nat) : Nat :=
  (k / (4 * e)) * (16 * e) + (k % (4 * e) / e) * (4 * e) + j * e + k % e

/-- R35: bytes that the ring holds for each 32 K-elements of a quarter: its blocks and a scale word. -/
def unitBytes (f : NFmt) : Nat := 16 * f.bits + 4

/-- R35: the dense weight of K-index k, column j of the quarter at ring position p. -/
def State.denseWeight (s : State) (g t p k j : Nat) : Scaled :=
  let f := s.bFmt g t
  let u := p + k / 32 * unitBytes f
  let el := f.decode (s.ringCode g t f u (blockIndex (s.pairSlot g t) (k % 32) j))
  if f.scaled then (el, s8decode (s.ringNat g t (u + 16 * f.bits + j) 1)) else (el, .fin false 1 0)

/-- Lane population below K-index n. -/
def popBelow (lane n : Nat) : Nat := ((List.range n).filter (fun i => lane.testBit i)).length

/-- R84: byte offset of column j's run in a sparse record's weight area. -/
def laneOff (f : NFmt) (lanes : List Nat) (j : Nat) : Nat :=
  (((List.range j).map (fun x => cdiv (popcount64 (lanes.getD x 0) * f.bits) 8))).sum

/-- R84: code n of the packed weights at byte o of a loaded record's weight area. -/
def QRec.code (r : QRec) (f : NFmt) (o n : Nat) : Nat := r.data / 2 ^ (8 * o + f.bits * n) % 2 ^ f.bits

/-- R84: the weight of K-index k (0–63 in its tile), column j of a loaded record. -/
def State.recWeight (s : State) (g t : Nat) (r : QRec) (k j : Nat) : Scaled :=
  let f := s.bFmt g t
  let sc := s8decode ((if k < 32 then r.scale0 else r.scale1) / 2 ^ (8 * j) % 256)
  let el :=
    if r.zero then .fin false 0 0
    else if r.dense then f.decode (r.code f 0 (blockIndex (s.pairSlot g t) k j))
    else
      let lane := r.lanes.getD j 0
      if lane.testBit k then f.decode (r.code f (laneOff f r.lanes j) (popBelow lane k))
      else .fin false 0 0
  if f.scaled then (el, sc) else (el, .fin false 1 0)

/-- A record that stands for none. -/
def QRec.absent : QRec := ⟨false, true, false, [], 0, 0, 0, 0, 0⟩

/-! The weight registers (R28, R35). -/

/-- R35: block n of the dense quarter at ring position p, as the shadow register takes it from the ring. -/
def State.loadBlock (s : State) (g t p n : Nat) : WBlock :=
  let f := s.bFmt g t
  let e := s.pairSlot g t
  let k0 := 4 * e * n
  let u := p + k0 / 32 * unitBytes f
  let sum (abs : Bool) (i : Nat) : Nat := sumOverN (s.denseWeight g t p (k0 + i)) abs
  { k0 := k0
    codes := (List.range (16 * e)).map (fun i => s.ringCode g t f u (k0 % 32 / (4 * e) * (16 * e) + i))
    scales := (List.range 4).map (fun j => s.ringNat g t (u + 16 * f.bits + j) 1)
    sums := (List.range (4 * e)).map (sum false)
    abss := (List.range (4 * e)).map (sum true) }

/-- The weight register of an array that holds K-index k of its quarter, with `e` K-elements per slot. -/
def MArr.register (x : MArr) (e k : Nat) : Option WBlock :=
  ([x.active, x.shadow].filterMap id).find? (fun b => decide (b.k0 ≤ k) && decide (k < b.k0 + 4 * e))

/-- The weight of K-index k, column j in a register. -/
def WBlock.weight (b : WBlock) (f : NFmt) (e k j : Nat) : Scaled :=
  (f.decode (b.codes.getD (blockIndex e (k - b.k0) j) 0),
    if f.scaled then s8decode (b.scales.getD j 0x7F) else .fin false 1 0)

/-- The registers after a segment that ends before K-element k1: its last block active, the next block of the quarter loaded ahead.
With quarter records the record in use is in `recs` instead. -/
def State.latchBlocks (s : State) (g t : Nat) (x : MArr) (k1 : Nat) : MArr :=
  if s.flag (mUnit g t) Reg.mcoreSparseRecEn then x
  else
    let w := 4 * s.pairSlot g t
    let n := (k1 - 1) / w
    { x with
      active := some (s.loadBlock g t x.wpos n)
      shadow := if w * (n + 1) < s.rowK g t then some (s.loadBlock g t x.wpos (n + 1)) else none }

/-- R103: the SEL and GUARD bits of a row's column. -/
def maskBits (masks : List Entry) (col : Nat) : Nat := (masks.getD (col / 128) 0).toNat / 2 ^ (2 * (col % 128)) % 4

/-- R104: some row of row group gr has SEL or GUARD in a column of the quarter. -/
def quarterWanted (rows : List GateRow) (gr q : Nat) : Bool :=
  (List.range 4).any (fun i => (List.range 4).any (fun j =>
    match rows[4 * gr + i]? with
    | some r => decide (maskBits r.masks (4 * q + j) ≠ 0)
    | none => false))

/-- R88, R89: the operands of row group gr of a group against the quarter that array x has in hand. -/
def State.mOperands (s : State) (g t : Nat) (rows : List GateRow) (gr : Nat) (x : MArr) : Operands :=
  let recs := x.recs
  let e := s.pairSlot g t
  let recEn := s.flag (mUnit g t) Reg.mcoreSparseRecEn
  let row (i : Nat) : Option GateRow := rows[4 * gr + i]?
  let bit (i k : Nat) : Bool := match row i with
    | some r => s.rowBit g t r.slot k
    | none => false
  let anyBit (k : Nat) : Bool :=
    if s.flag (mUnit g t) Reg.mcoreSparseRowBm then (List.range 4).any (fun i => bit i k) else true
  { a := fun i k => match row i with
      | some r => s.rowElem g t r.slot k
      | none => (.fin false 0 0, .fin false 1 0)
    aOn := fun i k => match row i with
      | some r => s.rowBit g t r.slot k
      | none => false
    b := fun k j => if recEn then s.recWeight g t (recs.getD (k / 64) QRec.absent) (k % 64) j
      else match x.register e k with
        | some b => b.weight (s.bFmt g t) e k j
        | none => s.denseWeight g t x.wpos k j
    held := fun k => if recEn then none else (x.register e k).map (fun b =>
      (NFmt.f32.decode (b.sums.getD (k - b.k0) 0), NFmt.f32.decode (b.abss.getD (k - b.k0) 0)))
    on := fun j k =>
      if recEn then
        let r := recs.getD (k / 64) QRec.absent
        !r.zero && (r.dense || (r.lanes.getD j 0).testBit (k % 64)) && anyBit k
      else anyBit k }

/-- R137: the sets of a quarter that unreadable words poison in the segment k0–k1: those of row groups whose rows hold
such a word, or all of them when the weight ring does. The second component is the first bad offset. -/
def State.segBad (s : State) (g t : Nat) (rows : List GateRow) (ngr k0 k1 ringLo ringLen : Nat) : List Nat × Option Nat :=
  let f := s.aFmt g t
  let lo := k0 * f.bits / 8
  let len := (k1 - k0) * f.bits / 8
  let tail := 32 * elemEntries f (s.rowK g t)
  let badRow (r : GateRow) : Bool :=
    s.sramBad (s.gateKey g t r.slot lo) len
      || s.sramBad (s.gateKey g t r.slot tail) (32 * s.rowEntries g t - tail)
  let size := Max.max (s.ringSize g t) 1
  let ringBad := (List.range ((ringLen + 7) / 8 + 1)).any (fun i => s.sramBad (s.ringKey g t (ringLo + 8 * i)) 1
    && decide (ringLo + 8 * i < ringLo + ringLen)) && decide (0 < size)
  if ringBad then (List.range ngr, some (1024 * s.rd (mUnit g t) Reg.mcoreWringBase + ringLo % size))
  else
    let bads := (List.range ngr).filter (fun gr => (List.range 4).any (fun i =>
      match rows[4 * gr + i]? with
      | some r => badRow r
      | none => false))
    (bads, bads.head?.map (fun gr => match rows[4 * gr]? with
      | some r => s.gateKey g t r.slot lo % 2 ^ 18
      | none => 0))

/-- Replace array a. -/
def MCore.setArr (m : MCore) (a : Nat) (x : MArr) : MCore := { m with arrs := m.arrs.set a x }
/-- Array a. -/
def MCore.arr (m : MCore) (a : Nat) : MArr := m.arrs.getD a MArr.idle
/-- The group with a number. -/
def MCore.group (m : MCore) (gid : Nat) : Option MGroup := m.groups.find? (fun x => x.gid = gid)

/-- R35: ring bytes of a whole dense quarter. -/
def State.quarterBytes (s : State) (g t : Nat) : Nat := s.rowK g t / 32 * unitBytes (s.bFmt g t)

/-- R84: length in bytes of the record at ring position p, from its metadata word and lane bitmaps. -/
def State.recLen (s : State) (g t p : Nat) : Nat :=
  let f := s.bFmt g t
  let w := MetaWord.ofBits (BitVec.ofNat 64 (s.ringNat g t p 8))
  if w.zero then 32
  else if w.dense then 32 * cdiv (16 + 32 * f.bits) 32
  else
    let lanes := (List.range 4).map (fun j => s.ringNat g t (p + 16 + 8 * j) 8)
    32 * cdiv (48 + laneOff f lanes 4) 32

/-- R84: ring position of an array's next record: past the last one it has loaded. -/
def MArr.nextRec (x : MArr) : Nat :=
  match x.recs.getLast? with
  | some r => r.pos + r.len
  | none => x.wpos

/-- R84: the ring position at which the next quarter starts is known: with quarter records, once every record of the quarters in
hand has been loaded. -/
def State.startKnown (s : State) (g t : Nat) : Bool :=
  !s.flag (mUnit g t) Reg.mcoreSparseRecEn
    || (s.mcore g t).arrs.all (fun x => x.work.isNone || decide (s.rowK g t / 64 ≤ x.recs.length))

/-- R34, R42: give array a the next quarter, when it is its turn; the wait of R41 for the sets of its last one counts. -/
def State.assignQuarter (s : State) (g t a : Nat) : State :=
  let m := s.mcore g t
  let x := m.arr a
  if x.work.isSome || m.stopped || !s.arrLive g t a || s.nextLive g t m.rr ≠ some a || !s.startKnown g t
      || s.flag (mUnit g t) Reg.mcoreCtrlMode then s
  else
    match m.groups.find? (fun gr => decide (gr.nextQ < s.ncols g t / 4)) with
    | none => s
    | some gr =>
      if gr.nextQ = 0 && m.modeNext.isSome then s
      else
        let resident := s.flag (mUnit g t) Reg.mcoreWringResident
        let start := if gr.nextQ = 0 && resident then 0 else m.wnext
        let fin := if s.flag (mUnit g t) Reg.mcoreSparseRecEn then start else start + s.quarterBytes g t
        let x' : MArr := { MArr.idle with work := some (gr.gid, gr.nextQ), wpos := start,
                                          sets := List.replicate (gr.size / 4) AccSet.fresh }
        (s.setMcore g t { m.setArr a x' with
          rr := a, wnext := fin, moving := m.moving.set a 0
          groups := m.groups.map (fun y => if y.gid = gr.gid then { y with nextQ := y.nextQ + 1 } else y) }).count (mUnit g t)
            Reg.mcoreStallOut Reg.mcoreWrap 1 (m.moving.getD a 0)

/-- R35: ring position at which segment-relative K-index k of a quarter begins. -/
def denseRingOff (f : NFmt) (k : Nat) : Nat := k / 32 * unitBytes f + k % 32 * f.bits / 2

/-- Join released ranges to the release pointer while one starts at it. -/
def joinReleased : Nat → Nat → List (Nat × Nat) → Nat × List (Nat × Nat)
  | 0, p, l => (p, l)
  | n + 1, p, l =>
    match l.find? (fun r => r.1 = p) with
    | some r => joinReleased n (p + r.2) (l.filter (fun x => x.1 ≠ p))
    | none => (p, l)

/-- Signal own-pond spring n by 1, k times. -/
def State.signalTimes (s : State) (g n : Nat) : Nat → State
  | 0 => s
  | k + 1 => State.signalTimes (s.applySignal g n 1) g n k

/-- WEIGHT_RELEASE (R35): in streamed mode the release pointer advances past a settled segment, and SPRING is
signalled by 1 for every KiB released. -/
def State.weightRelease (s : State) (g t start len : Nat) : State :=
  if s.flag (mUnit g t) Reg.mcoreWringResident || len = 0 then s
  else
    let m := s.mcore g t
    let l := m.relWait ++ [(start, len)]
    let r := joinReleased l.length m.relAll l
    let s := s.setMcore g t { m with relAll := r.1, relWait := r.2 }
    let s := s.wr (mUnit g t) Reg.mcoreWringRelRel (r.1 % Max.max (s.ringSize g t) 1)
    if s.flag (mUnit g t) Reg.mcoreWringSigEn then
      s.signalTimes g (s.rd (mUnit g t) Reg.mcoreWringSpring) (r.1 / 1024 - m.relAll / 1024)
    else s

/-- Ring range that segment k0–k1 of an array frees: whole records with REC_EN. -/
def State.segRing (s : State) (g t : Nat) (x : MArr) (k0 k1 : Nat) : Nat × Nat :=
  if s.flag (mUnit g t) Reg.mcoreSparseRecEn then
    let done := (x.recs.take (k1 / 64)).drop (k0 / 64)
    match done with
    | [] => (0, 0)
    | r :: _ => (r.pos, (done.map (fun y => y.len)).sum)
  else
    (x.wpos + denseRingOff (s.bFmt g t) k0, denseRingOff (s.bFmt g t) k1 - denseRingOff (s.bFmt g t) k0)

/-- The segment is settled: weights are released and the array goes on to its next segment, or its quarter is final. -/
def State.segAdvance (s : State) (g t a : Nat) : State :=
  let m := s.mcore g t
  let x := m.arr a
  let segK := 4 * s.segGroups g t
  let k0 := x.seg * segK
  let last := decide (s.rowK g t ≤ k0 + segK)
  let s := s.setMcore g t (m.setArr a { x with seg := x.seg + 1, final := last, replay := [] })
  let r := s.segRing g t x k0 (k0 + segK)
  s.weightRelease g t r.1 r.2

/-- R91: the largest match-vector population of window w for row group gr. -/
def windowMatch (o : Operands) (w : Nat) : Nat :=
  ((List.range 4).map (fun j => ((List.range 64).filter (fun k => o.on j (64 * w + k))).length)).foldl Max.max 0

/-- R88, R91, R107: count the windows whose last K-element lies in k0–k1. -/
def State.countWindows (s : State) (g t : Nat) (x : MArr) (o : Operands) (k0 k1 : Nat) : State :=
  let u := mUnit g t
  let recEn := s.flag u Reg.mcoreSparseRecEn
  let bm := s.flag u Reg.mcoreSparseRowBm
  let e := s.pairSlot g t
  let f32 := decide (s.aFmt g t = .f32) || decide (s.bFmt g t = .f32)
  (List.range (s.rowK g t / 64)).foldl (fun s w =>
    if k0 < 64 * w + 64 ∧ 64 * w + 64 ≤ k1 then
      let r := x.recs.getD w QRec.absent
      if recEn && r.zero then s.count u Reg.mcoreSpSkip Reg.mcoreSpWrap 2 1
      else if bm || (recEn && !r.dense) then
        (s.count u Reg.mcoreSpWin Reg.mcoreSpWrap 0 1).count u Reg.mcoreSpCyc Reg.mcoreSpWrap 1
          (windowCycles e f32 (bm || (recEn && r.rt)) (windowMatch o w))
      else s
    else s) s

/-- R91, R104: the windows of a quarter that the predictor skips and whose last K-element lies in k0–k1. -/
def State.skipWindows (s : State) (g t k0 k1 : Nat) : State :=
  s.count (mUnit g t) Reg.mcoreSpSkip Reg.mcoreSpWrap 2
    ((List.range (s.rowK g t / 64)).filter (fun w => decide (k0 < 64 * w + 64) && decide (64 * w + 64 ≤ k1))).length

/-- CHK_LAST of a mismatch (R53). DESIGN CHOICE (log entry 24): of several sets of an array that mismatch in one segment, the one with
the highest number is the last. -/
def State.noteMismatch (s : State) (g t a set mask : Nat) (nonfin : Bool) : State :=
  let u := mUnit g t
  let s := s.wr u Reg.mcoreChkLastArray a
  let s := s.wr u Reg.mcoreChkLastOutcome 0
  let s := s.wr u Reg.mcoreChkLastFailMask mask
  let s := s.wr u Reg.mcoreChkLastNonfinite (if nonfin then 1 else 0)
  s.wr u Reg.mcoreChkLastSet set

/-- SEGMENT_CHECK (R34, R49–R53, R59): array a issues its check segment, with upsets striking as given, and the
checker judges every set in use; passing sets are reseeded, a mismatch retires the array and starts a rotated
recompute. `dt` core cycles were lost waiting for a row group or a weight block, counted by no other array; `c` is the core cycle of
the beat. -/
def segmentCheck (g t a : Nat) (ups : List Upset) (dt c : Nat) (s : State) : State :=
  let u := mUnit g t
  let s := s.assignQuarter g t a
  let m := s.mcore g t
  let x := m.arr a
  match x.work with
  | none => if s.flag u Reg.mcoreCtrlRun && s.arrLive g t a then s.count u Reg.mcoreStallIn Reg.mcoreWrap 0 dt else s
  | some (gid, q) =>
    let segK := 4 * s.segGroups g t
    let k0 := x.seg * segK
    let k1 := k0 + segK
    let recEn := s.flag u Reg.mcoreSparseRecEn
    if x.final || !x.replay.isEmpty || m.stopped then s
    else if recEn && decide (x.recs.length * 64 < k1) then s.count u Reg.mcoreStallIn Reg.mcoreWrap 0 dt
    else
      match m.group gid with
      | none => s
      | some gr =>
        let s := s.count u Reg.mcoreStallIn Reg.mcoreWrap 0 (if s.flag u Reg.mcoreCtrlRun then dt else 0)
        let chk := s.flag u Reg.mcoreCfgChkEn
        let predSkip (n : Nat) : Bool := s.flag u Reg.mcoreSparsePredEn && !quarterWanted gr.rows n q
        let ring := s.segRing g t x k0 k1
        let bad := s.segBad g t gr.rows (gr.size / 4) k0 k1 ring.1 ring.2
        let sets := x.sets.mapIdx (fun n st =>
          if predSkip n || st.poison then st
          else
            let st' := st.segment (s.mOperands g t gr.rows n x) chk ups n (x.seg * s.segGroups g t)
              (s.segGroups g t)
            if bad.1.contains n then { st' with poison := true } else st')
        -- windows and poisoned reads
        let s := (List.range (gr.size / 4)).foldl (fun s n =>
          if predSkip n then s.skipWindows g t k0 k1
          else s.countWindows g t x (s.mOperands g t gr.rows n x) k0 k1) s
        let x := s.latchBlocks g t x k1
        let s := match bad.2 with
          | some o => (s.sramPoison g t t o 1).wr u Reg.mcoreStatusPoison 1
          | none => s
        let results := sets.mapIdx (fun n st =>
          if !chk || st.poison || predSkip n then (n, CheckResult.pass, false) else (n, st.check, true))
        let s := s.sat u Reg.mcoreChkSkip (results.filter (fun r => decide (r.2.1 = .skip))).length
        let fails := results.filterMap (fun r => match r.2.1 with
          | .mismatch mask nf => some (r.1, mask, nf)
          | _ => none)
        let after := sets.mapIdx (fun n st =>
          match results[n]? with
          | some (_, .mismatch _ _, _) => x.snap.getD n (if x.seg = 0 then AccSet.fresh else st)
          | some (_, _, true) => st.reseed
          | _ => st)
        if fails.isEmpty then
          (s.setMcore g t ((s.mcore g t).setArr a { x with sets := after, snap := after })).segAdvance g t a
        else
          let s := (s.setBiti u Reg.mcoreArrayRetiredChk 0 a).overTile g t (6 + a)
          let s := s.sat u Reg.mcoreChkMismatch 1
          let s := s.raise g 1 t
          let s := fails.foldl (fun s f => s.noteMismatch g t a f.1 f.2.1 f.2.2) s
          let s := s.wr u Reg.mcoreChkTimeTime (s.lakeNow (lakeOf g) c (s.rd (.lake (lakeOf g)) Reg.lakeClkStatN))
          let s := s.wr u Reg.mcoreStatusRecompute 1
          s.setMcore g t ((s.mcore g t).setArr a { x with
            sets := after, snap := after
            replay := fails.map (fun f => ⟨f.1, sets.getD f.1 AccSet.fresh, f.2.1, f.2.2⟩) })

/-- OUTCOME code of a verdict (R61). -/
def Verdict.code : Verdict → Nat
  | .checkerFault => 1 | .corrected => 2 | .poisoned => 3

/-- The record DETAIL of kinds 0x0001–0x0003 (R402): CHK_LAST as it stands for one replayed set of array a, and SCORE_STEP. -/
def State.chkDetail (s : State) (g a : Nat) (r : Replay) (code : Nat) : Nat :=
  a + 4 * code + 16 * r.mask + 2 ^ 12 * r.nonfin.toNat + 2 ^ 13 * r.set + 2 ^ 16 * s.rd (.tile g 5) Reg.scoreStepStep

/-- One replayed set settles (R53 step 5): OUTCOME where CHK_LAST shows its mismatch, the record, POISON and its event. -/
def State.settleOne (s : State) (g t a : Nat) (r : Replay) (v : Verdict × Bool) : State :=
  let u := mUnit g t
  let s := if v.2 then s.sat u Reg.mcoreChkSkip 1 else s
  let s := if s.rd u Reg.mcoreChkLastArray = a ∧ s.rd u Reg.mcoreChkLastSet = r.set then s.wr u Reg.mcoreChkLastOutcome v.1.code
    else s
  let s := s.recTile g t (1 + a) v.1.code 6 (s.chkDetail g a r v.1.code)
  match v.1 with
  | .poisoned => (s.wr u Reg.mcoreStatusPoison 1).raise g 2 t
  | _ => s

/-- NO_ARRAY (R57): the last live array has been retired and no recompute is left. -/
def State.noArray (s : State) (g t : Nat) : State :=
  let s := s.wr (mUnit g t) Reg.mcoreStatusNoArray 1
  let s := s.recTile g t 0 0x1A 1 (s.tileW g t / 64 % 16 + 16 * s.rd (mUnit g t) Reg.mcoreArrayRetiredChk
    + 2 ^ 16 * s.rd (.tile g 5) Reg.scoreStepStep)
  s.raise g 6 t

/-- ROTATED_RECOMPUTE_DONE (R53–R57): the segment has been replayed from the gate buffer and the weight ring for the sets that
mismatched, with upsets striking as given; each is judged and the array goes on. The retirement is in the overlay map since the
mismatch. A set that an invalid record has poisoned meanwhile stays poisoned (R86). DESIGN CHOICE (log entry 24): windows issued again
count in neither MCORE_SP_WIN nor MCORE_SP_CYC. -/
def rotatedRecomputeDone (g t a : Nat) (ups : List Upset) (s : State) : State :=
  let u := mUnit g t
  let m := s.mcore g t
  let x := m.arr a
  match x.work with
  | none => s
  | some (gid, _) =>
    match m.group gid with
    | none => s
    | some gr =>
      if x.replay.isEmpty then s
      else
        let redo (r : Replay) : AccSet :=
          ((x.snap.getD r.set AccSet.fresh).segment (s.mOperands g t gr.rows r.set { x with active := none, shadow := none })
            true ups r.set (x.seg * s.segGroups g t) (s.segGroups g t))
        let judged := x.replay.map (fun r => (r, redo r, judge r.orig (redo r)))
        let sets := judged.foldl (fun l j =>
          let c := settled j.2.2.1 j.1.orig j.2.1
          l.set j.1.set { c with poison := c.poison || (l.getD j.1.set AccSet.fresh).poison }) x.sets
        let s := if (s.tileW g t).testBit (6 + a) then s else s.overTile g t (6 + a)
        let s := judged.foldl (fun s j => s.settleOne g t a j.1 j.2.2) s
        let s := s.setMcore g t ((s.mcore g t).setArr a { x with sets := sets, snap := sets })
        let s := s.segAdvance g t a
        let busy := ((s.mcore g t).arrs.any (fun y => !y.replay.isEmpty))
        let s := s.wr u Reg.mcoreStatusRecompute (if busy then 1 else 0)
        if s.liveMask g t = 0 && !busy && !s.flag u Reg.mcoreStatusNoArray then s.noArray g t else s

/-- QUARTER_FINAL (R41): a final quarter moves into the slot of its column block, or waits for one. -/
def quarterFinal (g t a dt : Nat) (s : State) : State :=
  let m := s.mcore g t
  let x := m.arr a
  match x.work with
  | none => s
  | some (gid, q) =>
    if !x.final then s
    else
      match m.group gid with
      | none => s
      | some gr =>
        let j := q / 4
        let moved := { gr with moved := gr.moved + 1 }
        let groups := if moved.moved = s.ncols g t / 4 then m.groups.filter (fun y => y.gid ≠ gid)
          else m.groups.map (fun y => if y.gid = gid then moved else y)
        -- R41: with B above 16 the next quarter waits for the move
        let more := groups.any (fun y => decide (y.nextQ < s.ncols g t / 4))
        let m1 := { m.setArr a MArr.idle with
          groups := groups
          moving := m.moving.set a (if 16 < gr.size && more then gr.size / 4 else 0) }
        match m.bb.findIdx? (fun b => b.gid = gid ∧ b.block = j) with
        | some n =>
          s.setMcore g t { m1 with bb := m1.bb.modify n (fun b => { b with quarters := b.quarters ++ [(q % 4, x.sets)] }) }
        | none =>
          if m.bb.length < 2 then
            s.setMcore g t { m1 with bb := m1.bb ++ [⟨gid, j, gr.rows, gr.size, gr.missThr, [(q % 4, x.sets)], 0⟩] }
          else s.count (mUnit g t) Reg.mcoreStallOut Reg.mcoreWrap 1 dt

/-! Epilogue. -/

/-- R44: the segment of a finite y. -/
def actSegment (y : Num) : Nat :=
  match y with
  | .fin neg m e =>
    let v : Int := if neg then -(m : Int) else m
    -- floor((y + 8) × 4) = floor(v · 2^(e+2)) + 32
    let fl : Int := if 0 ≤ e + 2 then v * (2 ^ (e + 2).toNat : Nat) else v / (2 ^ (-(e + 2)).toNat : Nat)
    (Min.min 63 (Max.max 0 (fl + 32))).toNat
  | .inf neg => if neg then 0 else 63
  | _ => 0

/-- R44: the activation table applied to a value. -/
def State.activate (s : State) (g t : Nat) (y : Nat) : Nat :=
  let v := NFmt.f32.decode y
  let seg := actSegment v
  let slope := s.rdi (mUnit g t) Reg.mcoreActTableSlope seg
  let icpt := s.rdi (mUnit g t) Reg.mcoreActTableIntercept seg
  match v with
  | .nan _ _ => NFmt.f32.rnd v.quiet
  | .inf _ => if (NFmt.f32.decode slope).isZero then icpt else NFmt.f32.mul slope y
  | _ => NFmt.f32.fma slope y icpt

/-- R43 stage 2: activation, then the value before conversion. -/
def State.stage2 (s : State) (g t : Nat) (y : Nat) : Nat :=
  if s.flag (mUnit g t) Reg.mcoreCfgActEn then s.activate g t y else y

/-- R43, R75: convert one row of lane values; every element steps its lane's LFSR under stochastic rounding. -/
def State.convertRow (s : State) (g t : Nat) (vals : List Num) : List Nat × List (BitVec 16) :=
  let u := mUnit g t
  let rnd := s.rd u Reg.mcoreCfgRnd
  let l := (s.mcore g t).lfsr
  let l' := if rnd = 2 then l.mapIdx (fun n x => if n < vals.length then lfsrStep x else x) else l
  (vals.mapIdx (fun n v => (s.outFmt g t).encode (RMode.ofRnd rnd (l'.getD n 0)) (s.flag u Reg.mcoreCfgSat) v), l')

/-- R45: pack 16 codes into output entries. -/
def packRow (f : NFmt) (codes : List Nat) : List QEnt :=
  if f = .f32 then
    [⟨false, entryOf ((codes.take 8).flatMap (leBytes 4))⟩, ⟨false, entryOf ((codes.drop 8).flatMap (leBytes 4))⟩]
  else [⟨false, entryOf (codes.flatMap (leBytes 2))⟩]

/-- The next row of a block that is not masked. -/
def BBSlot.nextRow (b : BBSlot) : Option Nat := if b.row < b.rows.length then some b.row else none

/-- R43: the row in stage 2 enters output queue 0, or waits for room. -/
def State.stage2Out (s : State) (g t dt : Nat) : State :=
  let m := s.mcore g t
  match s.pushAll g t true 0 m.stage2 with
  | some s' => s'.setMcore g t { m with stage2 := [] }
  | none => s.count (mUnit g t) Reg.mcoreStallOut Reg.mcoreWrap 1 dt

/-- R137: a word of the activation table that this row reads is beyond correction, or was corrected (R136). -/
def State.actRead (s : State) (g t : Nat) (e : Ecc) : State × Bool :=
  if !s.flag (mUnit g t) Reg.mcoreCfgActEn then (s, false)
  else match e with
    | .good => (s, false)
    | .corrected => (s.sat (.pond g) Reg.pondEccCorr 1, false)
    | .uncorrectable =>
      let o := s.freeNat
      ((s.drawn.sramPoison g t t o 1).wr (mUnit g t) Reg.mcoreStatusPoison 1, true)

/-- Every set of the block poisoned. -/
def BBSlot.poisoned (b : BBSlot) : BBSlot :=
  { b with quarters := b.quarters.map (fun q => (q.1, q.2.map (fun y => { y with poison := true }))) }

/-- EPILOGUE_ROW (R41, R43–R45, R104, R105): a row held in stage 2 goes first; then one row of the oldest complete column block
passes stage 1, which frees the block's slot with its last row, and enters output queue 0, or is held in stage 2 while the queue
is full. `ecc` is what the check bits of the activation table show. DESIGN CHOICE (log entry 24): an element of a poisoned set in
a GUARD or dropped column is the NaN of R54 and no miss, where R104 has +0 and a miss. -/
def epilogueRow (g t dt : Nat) (ecc : Ecc) (s : State) : State :=
  let u := mUnit g t
  let s := if (s.mcore g t).stage2.isEmpty then s else s.stage2Out g t dt
  let m := s.mcore g t
  match m.bb with
  | [] => s
  | b :: rest =>
    if b.quarters.length < 4 || !m.stage2.isEmpty then s
    else
      match b.nextRow with
      | none => s.setMcore g t { m with bb := rest }
      | some r =>
        let act := s.actRead g t ecc
        let s := act.1
        let epi := s.rd u Reg.mcoreEpiBaseBase * 128 + 128 * b.block
        let epiBad := s.sramBad (coreKey g t epi) 128
        let b := if act.2 || epiBad then b.poisoned else b
        let set (n : Nat) : AccSet := ((b.quarters.find? (fun x => x.1 = n / 4)).map (fun x => x.2)).getD []
          |>.getD (r / 4) AccSet.fresh
        let scale (n : Nat) : Nat := s.memNat (coreKey g t (epi + 4 * n)) 4
        let bias (n : Nat) : Nat :=
          if s.flag u Reg.mcoreCfgBiasEn then s.memNat (coreKey g t (epi + 64 + 4 * n)) 4 else 0
        let y (n : Nat) : Nat :=
          s.stage2 g t (NFmt.f32.fma ((set n).val (4 * (r % 4) + n % 4)) (scale n) (bias n))
        let row := b.rows.getD r ⟨0, 0, []⟩
        let pred := s.flag u Reg.mcoreSparsePredEn
        let mask (n : Nat) : Nat := if pred then maskBits row.masks (16 * b.block + n) else 1
        let poison (n : Nat) : Bool := (set n).poison
        let out (n : Nat) : Num :=
          if poison n then .canon else if mask n = 1 then NFmt.f32.decode (y n) else .fin false 0 0
        let miss (n : Nat) : Bool :=
          decide (mask n = 2) && !poison n &&
            ((NFmt.f32.decode (y n)).isNan || Num.lt (NFmt.f32.decode b.missThr) (NFmt.f32.decode (y n)).abs)
        let conv := s.convertRow g t ((List.range 16).map out)
        let misses := ((List.range 16).filter miss).length
        let last := decide (r + 1 = b.rows.length)
        let s := s.setMcore g t { m with
          bb := if last then rest else { b with row := r + 1 } :: rest
          lfsr := conv.2
          stage2 := packRow (s.outFmt g t) conv.1 }
        let s := if r % 4 = 3 || last then s.count u Reg.mcoreTiles Reg.mcoreWrap 3 4 else s
        let s := if epiBad then (s.sramPoison g t t epi 1).wr u Reg.mcoreStatusPoison 1 else s
        let s := if misses = 0 then s
          else
            let sc := s.score g
            (List.range misses).foldl (fun s _ => s.raise g 4 t)
              ((s.sat u Reg.mcorePredMiss misses).setScore g { sc with misses := sc.misses + misses })
        s.stage2Out g t dt

/-- ELEMENT_WISE_ENTRY (R46): in element-wise mode the epilogue takes the entries of one row of 16 columns from its x
stream, and its z stream where EW_OP needs it, and writes the result to output queue 0. An unreadable scale, bias or activation table
makes the row NaN (R137). DESIGN CHOICE (log entry 24): with EW_OP 3 or with A_FMT F8 or F4, which R46 shuts out, no entry is taken. -/
def elementWiseEntry (g t dt : Nat) (ecc : Ecc) (s : State) : State :=
  let u := mUnit g t
  if !(s.mTakes g t && s.flag u Reg.mcoreCtrlMode) || decide (s.rd u Reg.mcoreCfgEwOp = 3) || (s.aFmt g t).scaled then s
  else
    let f := s.aFmt g t
    let need := if f = .f32 then 2 else 1
    let op := s.rd u Reg.mcoreCfgEwOp
    let takeData (q : Nat) : Option (List Entry) :=
      let es := ((s.queue (queueKey g t false q)).hw.take need)
      if es.length = need && es.all (fun e => !e.tok) then some (es.map (fun e => e.data)) else none
    let code (es : List Entry) (n : Nat) : Nat :=
      if f = .f32 then (es.getD (n / 8) 0).toNat / 2 ^ (32 * (n % 8)) % 2 ^ 32
      else (es.getD 0 0).toNat / 2 ^ (16 * n) % 2 ^ 16
    let popN (s : State) (q : Nat) : State := (List.range need).foldl (fun s _ => s.pop g t false q) s
    match takeData 0 with
    | none => s
    | some xs =>
      match (if op = 0 then some [] else takeData 2) with
      | none => s
      | some zs =>
        let s0 := s
        let act := s.actRead g t ecc
        let s := act.1
        let epi := s.rd u Reg.mcoreEpiBaseBase * 128
        let epiBad := (decide (op = 0) && s.sramBad (coreKey g t epi) 64)
          || (decide (op < 2) && s.flag u Reg.mcoreCfgBiasEn && s.sramBad (coreKey g t (epi + 64)) 64)
        let scale (n : Nat) : Num := NFmt.f32.decode (s.memNat (coreKey g t (epi + 4 * n)) 4)
        let bias (n : Nat) : Num :=
          if s.flag u Reg.mcoreCfgBiasEn then NFmt.f32.decode (s.memNat (coreKey g t (epi + 64 + 4 * n)) 4)
          else .fin false 0 0
        let x (n : Nat) : Num := f.decode (code xs n)
        let z (n : Nat) : Num := f.decode (code zs n)
        let y (n : Nat) : Nat :=
          if op = 0 then NFmt.f32.rnd (numFma (x n) (scale n) (bias n))
          else if op = 1 then NFmt.f32.rnd (numFma (x n) (z n) (bias n))
          else NFmt.f32.rnd (numSum [x n, z n])
        let conv := s.convertRow g t ((List.range 16).map (fun n =>
          if epiBad || act.2 then .canon else NFmt.f32.decode (s.stage2 g t (y n))))
        let s1 := popN s 0
        let s1 := if op = 0 then s1 else popN s1 2
        match s1.pushAll g t true 0 (packRow (s.outFmt g t) conv.1) with
        | none => s0.count u Reg.mcoreStallOut Reg.mcoreWrap 1 dt
        | some s' =>
          let s' := s'.setMcore g t { s'.mcore g t with lfsr := conv.2 }
          if epiBad then (s'.sramPoison g t t epi 1).wr u Reg.mcoreStatusPoison 1 else s'

/-- META_INVALID (R86): issue stops, every set in hand is poisoned, and the S-core and the supervisor learn. -/
def State.metaInvalid (s : State) (g t detail : Nat) : State :=
  let u := mUnit g t
  let m := s.mcore g t
  let s := s.setMcore g t { m with
    stopped := true
    arrs := m.arrs.map (fun x => { x with sets := x.sets.map (fun y => { y with poison := true }) }) }
  let s := (s.wr u Reg.mcoreSparseMetaErr 1).sat u Reg.mcoreMetaErr 1
  let s := s.wr u Reg.mcoreStatusPoison 1
  let s := s.raise g 3 t
  s.recTile g t 0 4 1 (detail % 65536 + 65536 * s.rd (.tile g 5) Reg.scoreStepStep)

/-- The effective BUILD licence (R449). -/
def State.hasLicence (s : State) (bit : Nat) : Bool := (s.rd .hub Reg.svcLicEffFeatures).testBit bit

/-- SPARSE_RECORD_LOAD (R84–R86, R92): array a loads its next quarter record and its metadata word is validated. -/
def sparseRecordLoad (g t a : Nat) (s : State) : State :=
  let u := mUnit g t
  let s := s.assignQuarter g t a
  let m := s.mcore g t
  let x := m.arr a
  match x.work with
  | none => s
  | some (_, q) =>
    if !s.flag u Reg.mcoreSparseRecEn || m.stopped || decide (s.rowK g t / 64 ≤ x.recs.length) then s
    else
      let p := x.nextRec
      let w := BitVec.ofNat 64 (s.ringNat g t p 8)
      let mw := MetaWord.ofBits w
      let sparse := !mw.dense && !mw.zero
      let lanes := (List.range 4).map (fun j => if sparse then s.ringNat g t (p + 16 + 8 * j) 8 else 0)
      let pops := if sparse then lanes.map popcount64 else []
      if metaValid w (q % 4) pops (s.rd u Reg.mcoreCfgBFmt) (x.recs.length % 256) (s.hasLicence 0) then
        let r : QRec := ⟨mw.dense, mw.zero, mw.rt, if mw.dense then List.replicate 4 (2 ^ 64 - 1) else lanes,
          s.ringNat g t (p + 8) 4, s.ringNat g t (p + 12) 4, p, s.recLen g t p,
          s.ringNat g t (if mw.dense then p + 16 else p + 48) (s.recLen g t p)⟩
        let m := m.setArr a { x with recs := x.recs ++ [r] }
        s.setMcore g t (if x.recs.length + 1 = s.rowK g t / 64 then { m with wnext := p + r.len } else m)
      else s.metaInvalid g t (mw.seq + 256 * (q % 4))

/-- R103: a mask entry with both bits of a pair set is invalid. -/
def maskInvalid (e : Entry) : Bool := (List.range 128).any (fun c => e.toNat / 2 ^ (2 * c) % 4 = 3)

/-- NEURON_MASK_PAIR (R103, R104): an entry of queue 1 is paired with the oldest row that lacks mask entries. -/
def neuronMaskPair (g t dt : Nat) (s : State) : State :=
  let s := s.gateTime g t dt
  let m := s.mcore g t
  if !(s.mTakes g t && s.flag (mUnit g t) Reg.mcoreSparsePredEn) then s
  else
    match s.headData g t 1, m.fill.findIdx? (fun r => decide (r.masks.length < s.maskEntries g t)) with
    | some e, some n =>
      let s := s.pop g t false 1
      if maskInvalid e then s.metaInvalid g t 0
      else
        (s.setMcore g t { m with fill := m.fill.modify n (fun r => { r with masks := r.masks ++ [e] }) }).gateJudge g t
    | _, _ => s

/-- R27, R61: writing MCORE_SEED reloads the lanes' LFSRs. -/
def State.reseedEpilogue (s : State) (g t : Nat) : State :=
  s.setMcore g t { s.mcore g t with lfsr := (List.range 16).map (lfsrSeed (s.rd (mUnit g t) Reg.mcoreSeedSeed)) }

end Sys2Proof.Machine
end

