-- ==== Sys2Proof/Machine/Mem.lean ====
section
/-! DEFINITION. Pond memory: scrubbing, the cache and its commands, the split between scratchpad and cache (R129–R145,
R166). -/

namespace Sys2Proof.Machine

/-- R17, R347, R382: the cores of pond g's lake are clocked. -/
def State.clocked (s : State) (g : Nat) : Bool :=
  decide (s.rd (.lake (lakeOf g)) Reg.lakeClkStatState = 0) && decide (s.rd (.lake (lakeOf g)) Reg.lakeThermState < 2)
    && s.supervised (fieldOf g)

/-- R136, R139: bank `bank` of `unit` (a tile, or 16 for pond memory) corrects `corr` words; `hour` when an hour has passed since
its corrections were last counted from 0. More than 16 in the hour make it await retirement at the next pond reset: a pond-memory
bank is in the overlay from then on, a core-local bank from that reset on, since its entry fails its core (log entry 15). -/
def State.bankCorrects (s : State) (g unit bank corr : Nat) (hour : Bool) : State :=
  let s := s.sat (.pond g) Reg.pondEccCorr corr
  let m := s.pmemOf g
  let k := 64 * unit + bank
  let was := if hour then 0 else m.corr.get k 0
  let n := was + corr
  let m := { m with corr := m.corr.set k 0 n }
  if was ≤ 16 ∧ 16 < n then
    if unit = 16 then
      let phys := ((List.range 34).filter (fun b => !m.mapFailed.testBit b)).getD bank 0
      (s.setPmem g { m with retire := m.retire ||| 2 ^ phys }).overPond g phys
    else (s.setPmem g { m with retire := m.retire ||| 2 ^ (34 + unit) }).attribute g
  else s.setPmem g m

/-- PATROL_SCRUB (R139, R136): one 64-byte line of a bank is read, and `corr` of its words corrected. -/
def patrolScrub (g unit bank corr : Nat) (hour : Bool) (s : State) : State :=
  if s.rd (.pond g) Reg.pondMemCfgPatrolEn = 0 then s else s.bankCorrects g unit bank corr hour

/-- R129, R131, R136, R137: what the ECC finds in the word that a step reads at offset o of `unit`, memory key `key`. -/
def State.sramEcc (s : State) (g unit o key : Nat) (e : Ecc) : State :=
  match e with
  | .good => s
  | .corrected => s.bankCorrects g unit (o / 64 % (if unit = 16 then 32 else 8)) 1 false
  | .uncorrectable => { s with bad := s.bad.set (key / 8 * 8) false true }

/-! The cache (R141). -/

/-- R141: sets of a cache share of C MiB. -/
def cacheSets (c : Nat) : Nat := 1024 * c
/-- R141: the line address of an engine address. -/
def lineOf (a : Nat) : Nat := a / 128 % 2 ^ 51
/-- An empty set. -/
def CSet.empty : CSet := ⟨[], 0⟩
/-- The cache share in force. -/
def State.cacheShare (s : State) (g : Nat) : Nat := s.rd (.pond g) Reg.pondMemCfgCacheMib
/-- Set of a line. -/
def State.cset (s : State) (g l : Nat) : CSet := (s.pmemOf g).sets.get (l % cacheSets (s.cacheShare g)) CSet.empty
/-- Write the set of a line. -/
def State.setCset (s : State) (g l : Nat) (x : CSet) : State :=
  let m := s.pmemOf g
  s.setPmem g { m with sets := m.sets.set (l % cacheSets (s.cacheShare g)) CSet.empty x }

/-- Tree pseudo-LRU (PRESUMED, log entry 14): the tree bits after way w was used point away from it. -/
def plruTouch (b : BitVec 7) (w : Nat) : BitVec 7 :=
  let set1 (b : BitVec 7) (i : Nat) (v : Bool) : BitVec 7 := if v then b ||| (1#7 <<< i) else b &&& ~~~(1#7 <<< i)
  let b := set1 b 0 (decide (w < 4))
  let b := set1 b (1 + w / 4) (decide (w / 2 % 2 = 0))
  set1 b (3 + w / 2) (decide (w % 2 = 0))

/-- The way the tree bits name as victim. -/
def plruVictim (b : BitVec 7) : Nat :=
  let h := if b.getLsbD 0 then 1 else 0
  let q := if b.getLsbD (1 + h) then 1 else 0
  let r := if b.getLsbD (3 + 2 * h + q) then 1 else 0
  4 * h + 2 * q + r

/-- The way that holds a line. -/
def CSet.find (c : CSet) (l : Nat) : Option (Nat × CLine) := c.ways.find? (fun e => decide (e.2.line = l))

/-- Maximal runs of set bits of a byte mask within one 32-byte block: start and length. -/
def dirtyRuns (d : BitVec 128) (blk : Nat) : List (Nat × Nat) :=
  let bits := (List.range 32).map (fun i => d.getLsbD (32 * blk + i))
  let r := bits.zipIdx.foldl (fun (a : List (Nat × Nat) × Option Nat) e =>
    match e.1, a.2 with
    | true, none => (a.1, some e.2)
    | true, some _ => a
    | false, some st => (a.1 ++ [(st, e.2 - st)], none)
    | false, none => a) (([] : List (Nat × Nat)), (none : Option Nat))
  match r.2 with
  | some st => r.1 ++ [(st, 32 - st)]
  | none => r.1

/-- R141: write back the dirty bytes of a line as masked writes of the pond; counts POND_CACHE_WB. -/
def State.writeBack (s : State) (g : Nat) (c : CLine) : State :=
  if c.dirty = 0 then s
  else
    let s := s.count (.pond g) Reg.pondCacheWb Reg.pondMemWrap 3 1
    (List.range 4).foldl (fun s b => (dirtyRuns c.dirty b).foldl (fun s r =>
      let o := 32 * b + r.1
      let data := BitVec.ofNat 256 (c.bytes.toNat / 2 ^ (8 * o) % 2 ^ (8 * r.2))
      let s := (s.post (srcTile s.rank g 5 0) 1 false (r.2 - 1) (c.line * 128 + o) data 1 .writeback).2
      let m := s.pmemOf g
      s.setPmem g { m with wbOut := m.wbOut + 1 }) s) s

/-- R141: a way for a line: the way that holds it, else an empty way, else the victim, whose dirty bytes are written
back. The line starts with no valid byte. -/
def State.cacheAlloc (s : State) (g l : Nat) : State × Nat × CLine :=
  let c := s.cset g l
  let fresh : CLine := ⟨l, 0, 0, 0⟩
  match c.find l with
  | some e => (s, e.1, e.2)
  | none =>
    match (List.range 8).find? (fun w => c.ways.all (fun e => decide (e.1 ≠ w))) with
    | some w => (s, w, fresh)
    | none =>
      let v := plruVictim c.plru
      (s.writeBack g (c.ways.get v fresh), v, fresh)

/-- Store a line in its way and note the use. -/
def State.cachePut (s : State) (g w : Nat) (x : CLine) : State :=
  let c := s.cset g x.line
  s.setCset g x.line ⟨(c.ways.del w).ins w x, plruTouch c.plru w⟩

/-- Replace n bytes at o of a line's bytes. -/
def lineMerge (old : BitVec 1024) (o n : Nat) (v : Nat) : BitVec 1024 :=
  let m : BitVec 1024 := BitVec.ofNat 1024 ((2 ^ (8 * n) - 1) * 2 ^ (8 * o))
  (old &&& ~~~m) ||| (BitVec.ofNat 1024 (v * 2 ^ (8 * o)) &&& m)

/-- Byte mask of n bytes from o. -/
def byteMask (o n : Nat) : BitVec 128 := BitVec.ofNat 128 ((2 ^ n - 1) * 2 ^ o)

/-- R141: a cacheable write of n bytes at engine address a. -/
def State.cacheWrite (s : State) (g a n v : Nat) : State :=
  let o := a % 128
  let hit := ((s.cset g (lineOf a)).find (lineOf a)).isSome
  let s := s.count (.pond g) (if hit then Reg.pondCacheHit else Reg.pondCacheMiss) Reg.pondMemWrap (if hit then 1 else 2) 1
  let r := s.cacheAlloc g (lineOf a)
  r.1.cachePut g r.2.1 { r.2.2 with
    valid := r.2.2.valid ||| byteMask o n, dirty := r.2.2.dirty ||| byteMask o n, bytes := lineMerge r.2.2.bytes o n v }

/-- R141: a cacheable read of n bytes at a: the bytes when every one is valid. -/
def State.cacheRead (s : State) (g a n : Nat) : Option Nat :=
  match (s.cset g (lineOf a)).find (lineOf a) with
  | some e => if e.2.valid &&& byteMask (a % 128) n = byteMask (a % 128) n then
      some (e.2.bytes.toNat / 2 ^ (8 * (a % 128)) % 2 ^ (8 * n)) else none
  | none => none

/-- R144: cacheable requests wait while a command or a split change runs. -/
def State.cacheBusy (s : State) (g : Nat) : Bool := (s.pmemOf g).cmd.isSome || (s.pmemOf g).split

/-! Cache commands (R144). -/

/-- Apply a command to one line. -/
def State.cacheLineOp (s : State) (g op idx : Nat) (e : Nat × CLine) : State :=
  let s := if op = 2 then s else s.writeBack g e.2
  let m := s.pmemOf g
  let c := m.sets.get idx CSet.empty
  let ways := if op = 1 then (c.ways.del e.1).ins e.1 { e.2 with dirty := 0 } else c.ways.del e.1
  s.setPmem g { m with sets := m.sets.set idx CSet.empty ⟨ways, if ways = [] then 0 else c.plru⟩ }

/-- Apply FLUSH (1), INVAL (2) or FLINV (3) to the lines that `p` selects. -/
def State.cacheSweep (s : State) (g op : Nat) (p : Nat → Bool) : State :=
  (s.pmemOf g).sets.foldl (fun s x => (x.2.ways.filter (fun e => p e.2.line)).foldl (fun s e =>
    s.cacheLineOp g op x.1 e) s) s

/-- R144: the running command is applied to the lines it selects, once every read that missed before it has its line. -/
def State.cacheApply (s : State) (g : Nat) : State :=
  let m := s.pmemOf g
  match m.cmd with
  | none => s
  | some c =>
    if c.swept || !m.misses.isEmpty then s
    else
      let s := s.setPmem g { m with cmd := some { c with swept := true } }
      s.cacheSweep g c.op (fun l => !c.range || (decide (c.base ≤ l) && decide (l < c.base + c.lines)))

/-- Start a command that was written or held. -/
def State.cacheStart (s : State) (g : Nat) (c : CCmd) : State :=
  (s.setPmem g { s.pmemOf g with cmd := some c }).cacheApply g

/-- FLUSH, INVAL, FLINV: a write to POND_CACHE_CMD (R144). -/
def cacheCommand (g op : Nat) (range : Bool) (spring : Nat) (sig : Bool) (s : State) : State :=
  let c : CCmd := ⟨op, range, spring, sig, s.rd (.pond g) Reg.pondCacheBaseLine, s.rd (.pond g) Reg.pondCacheLenLines, false⟩
  let m := s.pmemOf g
  if op = 0 then s
  else if m.cmd.isNone then s.cacheStart g c
  else if m.held.isNone then s.setPmem g { m with held := some c }
  else s.wr (.pond g) Reg.pondMemStatCmdOvf 1

/-- CACHE_CMD_DONE (R144): every write-back has been acknowledged; the pond signals, and a held command starts. -/
def cacheCmdDone (g : Nat) (s : State) : State :=
  let m := s.pmemOf g
  match m.cmd with
  | none => s
  | some c =>
    if m.wbOut ≠ 0 ∨ c.swept = false then s
    else
      let s := s.setPmem g { m with cmd := none, held := none }
      let s := if c.sig then s.applySignal g c.spring 1 else s
      match m.held with
      | some h => s.cacheStart g h
      | none => s

/-! The split (R140). -/

/-- Zero the pond-memory bytes between two shares. -/
def State.zeroRole (s : State) (g a b : Nat) : State :=
  let lo := (8 - Max.max a b) * 2 ^ 20
  let n := (Max.max a b - Min.min a b) * 2 ^ 20
  (s.zeroMem (pondKey g lo) n).healSram (pondKey g lo) n

/-- CACHE_MIB (R140, R166): a write of the cache share: 5–7 are refused, and so is a change while the pond belongs to a
running partition; otherwise FLINV of the old cache starts. -/
def cacheMib (g c : Nat) (s : State) : State :=
  let old := s.cacheShare g
  if 4 < c ∨ s.inRunning g then s.wr (.pond g) Reg.pondRstStatCfgWrIgn 1
  else if c = old then s
  else
    let s := s.cacheSweep g 3 (fun _ => true)
    let m := s.pmemOf g
    let s := if m.split then s.zeroRole g old m.oldC else s
    (s.setPmem g { m with oldC := if m.split then m.oldC else old, split := true }).wr (.pond g) Reg.pondMemCfgCacheMib c

/-- SPLIT_DONE (R140): the write-backs are acknowledged and every byte whose role changed is zeroed. -/
def splitDone (g : Nat) (s : State) : State :=
  let m := s.pmemOf g
  if m.split && decide (m.wbOut = 0) && m.misses.isEmpty then
    (s.zeroRole g m.oldC (s.cacheShare g)).setPmem g { m with split := false, oldC := 0, sets := [] }
  else s

/-! Direct access inside a pond (R133–R137, R140). -/

/-- R119, R140: pond-memory or core-local bytes that a unit of pond g reaches through its ports: memory key, unit and
offset of an address of spaces 1 and 2 in the pond itself; or the kind of the refusal. -/
def State.ownAddr (s : State) (g a : Nat) : Except Nat (Nat × Nat × Nat) :=
  if addrKind 0 a ≠ 0 then .error 1
  else if dSpace a = 1 then
    (if dOff a < s.scratch g then .ok (pondKey g (dOff a), 16, dOff a) else .error 1)
  else if (s.tileW g (dUnit a)).testBit 0 then .error 2
  else .ok (coreKey g (dUnit a) (dOff a), dUnit a, dOff a)

/-- Read n bytes of the pond's own memories for tile t: the value, or the kind of failure with the state after the
poison of R137. -/
def State.ownRead (s : State) (g t a n op : Nat) : State × Except Nat Nat :=
  match s.ownAddr g a with
  | .error k => (s, .error k)
  | .ok (key, u, o) =>
    if s.sramBad key n then (s.sramPoison g t u o op, .error 5) else (s, .ok (s.memNat key n))

/-- Write n bytes of the pond's own memories. A write of part of an unreadable word is discarded (R137). -/
def State.ownWrite (s : State) (g a n v : Nat) : State × Nat :=
  match s.ownAddr g a with
  | .error k => (s, k)
  | .ok (key, _, _) =>
    if s.partialBad key n then (s, 5) else ((s.putMem key (leBytes n v)).healSram key n, 0)

end Sys2Proof.Machine
end

