-- ==== Sys2Proof/Machine/Gen.lean ====
section
/-! DEFINITION. Address generators (R99, R146–R154, R164, R165, R167). -/

namespace Sys2Proof.Machine

/-- The unit of an A-unit's registers. -/
abbrev aUnit (g t : Nat) : UnitId := .tile g t

/-! Descriptors (R146). -/

/-- `w` bytes of a descriptor at offset `o`. -/
def QDesc.f (d : QDesc) (o w : Nat) : Nat := d.raw.toNat / 2 ^ (8 * o) % 2 ^ (8 * w)
/-- OP. -/
def QDesc.op (d : QDesc) : Nat := d.f 0 1
/-- A FLAGS bit. -/
def QDesc.flag (d : QDesc) (b : Nat) : Bool := (d.f 1 1).testBit b
/-- ESIZE in bytes. -/
def QDesc.esize (d : QDesc) : Nat := 2 ^ d.f 2 1
/-- NDIM. -/
def QDesc.ndim (d : QDesc) : Nat := d.f 3 1
/-- COUNT of dimension i. -/
def QDesc.cnt (d : QDesc) (i : Nat) : Nat := d.f (24 + 4 * i) 4
/-- A signed 32-bit field. -/
def QDesc.sint (d : QDesc) (o : Nat) : Int := if d.f o 4 < 2 ^ 31 then (d.f o 4 : Int) else (d.f o 4 : Int) - 2 ^ 32
/-- Elements of the pattern. -/
def QDesc.total (d : QDesc) : Nat := ((List.range d.ndim).map d.cnt).foldl (· * ·) 1

/-- The engine address lies in a space. -/
def inSpace (a n : Nat) : Bool := decide (a / 2 ^ 48 % 16 = n)

/-- R142, R149: the descriptor is refused. CACHE needs DRAM on an address side (DEDUCED, log entry 16). -/
def QDesc.bad (d : QDesc) : Bool :=
  let op := d.op
  decide (8 ≤ op) || (d.flag 0 && d.flag 1) || decide (64 ≤ d.f 1 1) || decide (5 < d.f 2 1)
    || decide (d.ndim = 0) || decide (5 < d.ndim) || decide (4 < d.f 6 1) || decide (1 < d.f 7 1)
    || (List.range d.ndim).any (fun i => decide (d.cnt i = 0) || decide (16777216 < d.cnt i))
    || (decide (op = 4) && decide (2 < d.f 4 1)) || (decide (op = 5) && decide (4 < d.f 4 1))
    || decide (128 ≤ d.f 5 1) || decide (d.f 120 8 ≠ 0)
    || ((decide (op = 1) || decide (op = 2)) && decide (tileType (d.f 5 1 % 16) = .a))
    || (d.flag 2 && !(inSpace (d.f 8 8) 0 && (decide (op = 0) || decide (op = 1) || decide (op = 4) || decide (op = 5) || decide (op = 6)))
        && !(inSpace (d.f 16 8) 0 && (decide (op = 0) || decide (op = 2) || decide (op = 3) || decide (op = 5) || decide (op = 7))))
    || (decide (op = 4) && decide (d.f 2 1 ≠ 5))

/-- Index i_d of element `pos` (i_0 fastest). -/
def QDesc.idx (d : QDesc) (pos i : Nat) : Nat :=
  pos / ((List.range i).map d.cnt).foldl (· * ·) 1 % Max.max (d.cnt i) 1

/-- R148: an integer of the index table, or the kind of the failure: the table must lie in the pond's own memories. -/
def State.indexAt (s : State) (g t : Nat) (d : QDesc) (i : Nat) : State × Except Nat Nat :=
  let w := if d.f 7 1 = 0 then 2 else 4
  let a := d.f 88 8 + i * w
  if 2 ^ 58 ≤ a ∨ dRank a ≠ s.rank ∨ dPond a ≠ g ∨ ¬ (dSpace a = 1 ∨ dSpace a = 2) then (s, .error 7)
  else s.ownRead g t a w 4

/-- R148: the source or destination address of element `pos`; kind 1 when it leaves the 58-bit address space. -/
def State.elemAddr (s : State) (g t : Nat) (d : QDesc) (dst : Bool) (pos : Nat) : State × Except Nat Nat :=
  let base := d.f (if dst then 16 else 8) 8
  let strides := if dst then 64 else 44
  let ind := d.flag (if dst then 1 else 0)
  let lin (i : Nat) : Int := (d.idx pos i : Int) * d.sint (strides + 4 * i)
  let go (a : State × Except Nat Int) (i : Nat) : State × Except Nat Int :=
    match a.2 with
    | .error _ => a
    | .ok x =>
      if ind && decide (i = d.f 6 1) then
        match a.1.indexAt g t d (d.idx pos i) with
        | (s', .ok v) => (s', .ok (x + (v : Int) * (d.f 84 4 : Int)))
        | (s', .error k) => (s', .error k)
      else (a.1, .ok (x + lin i))
  let r := (List.range d.ndim).foldl go (s, .ok (base : Int))
  match r.2 with
  | .error k => (r.1, .error k)
  | .ok x => let v := (x % 2 ^ 64).toNat
             if 2 ^ 58 ≤ v then (r.1, .error 1) else (r.1, .ok v)

/-! Queues and status (R146, R152). -/

/-- R152: a handle. -/
def genHandle (t n count : Nat) : Nat := t + 16 * n + count % 2 ^ 26 * 64

/-- Keep the status of the last 16 handles. -/
def Gen.note (x : Gen) (h st k : Nat) : Gen :=
  if x.hist.any (fun e => decide (e.handle = h)) then
    { x with hist := x.hist.map (fun e => if e.handle = h then ⟨h, st, k⟩ else e) }
  else { x with hist := (x.hist ++ [(⟨h, st, k⟩ : HStat)]).drop (x.hist.length - 15) }

/-- R146: queue a copied descriptor; its handle. -/
def State.genQueue (s : State) (g t n : Nat) (raw : BitVec 1024) (space : Nat) : State × Nat :=
  let s := s.opalAbort g t
  let x := s.gen g t n
  let h := genHandle t n x.accepted
  (s.setGen g t n ({ x with queue := x.queue ++ [(⟨raw, h, space⟩ : QDesc)], accepted := x.accepted + 1 }.note h 0 0), h)

/-- R152: AGST. -/
def State.genStatus (s : State) (g h : Nat) : Nat :=
  match (s.gen g (h % 16) (h / 16 % 4)).hist.find? (fun e => decide (e.handle = h)) with
  | some e => e.state + e.kind * 2 ^ 8
  | none => 2 + 2 ^ 16

/-- Change the running descriptor with a handle. -/
def State.modRun (s : State) (g t n h : Nat) (f : RunDesc → RunDesc) : State :=
  let x := s.gen g t n
  s.setGen g t n { x with run := x.run.map (fun r => if r.d.handle = h then f r else r) }

/-- The running descriptor with a handle. -/
def State.runOf (s : State) (g t n h : Nat) : Option RunDesc :=
  (s.gen g t n).run.find? (fun r => decide (r.d.handle = h))

/-- R151, R153: discard the chain slot and the queued descriptors with kind ABORTED. -/
def State.genDiscard (s : State) (g t n : Nat) : State :=
  let x := s.gen g t n
  let gone := (match x.chain with | some c => [c] | none => []) ++ x.queue
  s.setGen g t n (gone.foldl (fun x d => x.note d.handle 3 11) { x with chain := none, queue := [] })

/-- R153: a failed descriptor whose requests are all answered stops the generator: kind recorded, ERR set,
NEG_COMPLETION raised, the chain slot and queue discarded. -/
def State.genSettle (s : State) (g t n : Nat) : State :=
  match (s.gen g t n).run.find? (fun r => decide (r.kind ≠ 0) && decide (r.outst = 0)) with
  | none => s
  | some r =>
    let x := s.gen g t n
    let s := s.setGen g t n ({ x with run := x.run.filter (fun y => decide (y.d.handle ≠ r.d.handle)),
                                      aborting := false }.note r.d.handle 3 r.kind)
    let s := (s.wri (aUnit g t) Reg.auGenStatKind n r.kind).wri (aUnit g t) Reg.auGenStatHandle n r.d.handle
    let s := s.setBiti (aUnit g t) Reg.auStatusErr 0 n
    (s.raise g 7 t).genDiscard g t n

/-- A descriptor has failed: nothing more is issued for it. The first kind stands. -/
def State.genFail (s : State) (g t n h kind : Nat) : State :=
  (s.modRun g t n h (fun r => if r.kind = 0 then { r with kind := kind, issued := true, out := [], held := [] } else r)).genSettle g t n

/-! Spill lists (R164, R165). -/

/-- A spill list read from the scratchpad: cursor and extents (base, length). -/
structure SpillList where
  cursor : Nat
  extents : List (Nat × Nat)
  deriving DecidableEq, Repr

/-- R164: level of an extent; 0 for another space. -/
def State.spillLevel (s : State) (a : Nat) : Nat :=
  if dSpace a = 8 then 4
  else if dSpace a = 1 ∧ dRank a = s.rank then 1
  else if dSpace a = 0 then (if dRank a = s.rank then 2 else 3)
  else 0

/-- R164: read and check the spill list of a descriptor. -/
def State.spillList (s : State) (g t : Nat) (d : QDesc) : State × Except Nat SpillList :=
  let a := d.f 88 8
  if 2 ^ 58 ≤ a ∨ dRank a ≠ s.rank ∨ dSpace a ≠ 1 ∨ dPond a ≠ g ∨ a % 16 ≠ 0 then (s, .error 7)
  else
    match s.ownRead g t a 80 4 with
    | (s', .error k) => (s', .error k)
    | (s', .ok v) =>
      let n := v / 2 ^ 64 % 256
      let ext := (List.range n).map (fun e => (v / 2 ^ (8 * (16 + 16 * e)) % 2 ^ 64, v / 2 ^ (8 * (24 + 16 * e)) % 2 ^ 64))
      let lv := ext.map (fun e => s'.spillLevel e.1)
      if n = 0 ∨ 4 < n ∨ v / 2 ^ 72 % 2 ^ 56 ≠ 0 ∨ v % 32 ≠ 0
          ∨ ext.any (fun e => decide (2 ^ 58 ≤ e.1) || decide (e.1 % 32 ≠ 0) || decide (e.2 = 0) || decide (e.2 % 32 ≠ 0))
          ∨ lv.any (fun x => decide (x = 0)) ∨ (lv.zip (lv.drop 1)).any (fun p => decide (p.2 < p.1)) then (s', .error 7)
      else if lv.any (fun x => decide (x = 3)) && !s'.hasLicence 2 then (s', .error 9)
      else (s', .ok ⟨v % 2 ^ 64, ext⟩)

/-- R164: the engine address of a logical offset. -/
def spillAddr : List (Nat × Nat) → Nat → Option Nat
  | [], _ => none
  | e :: r, x => if x < e.2 then some (e.1 + x) else spillAddr r (x - e.2)

/-- Total length of the extents. -/
def SpillList.total (l : SpillList) : Nat := (l.extents.map (fun e => e.2)).sum

/-! DESCRIPTOR_START (R151, R149, R165). -/

/-- The 128 bytes of a descriptor at byte offset o of the S-core's local memory (space 0) or the scratchpad (1). -/
def State.descAt (s : State) (g t space o : Nat) : State × Except Nat (BitVec 1024) :=
  let a := if space = 0 then mkAddr s.rank 2 (coreOff g 5 o) else mkAddr s.rank 1 (coreOff g 16 o)
  if o % 32 ≠ 0 ∨ (if space = 0 then 2 ^ 18 else 2 ^ 23) < o + 128 then (s, .error 7)
  else match s.ownRead g t a 128 4 with
    | (s', .ok v) => (s', .ok (BitVec.ofNat 1024 v))
    | (s', .error k) => (s', .error k)

/-- The descriptor that starts next, and the generator without it. -/
def Gen.next (x : Gen) : Option (QDesc × Gen) :=
  match x.chain with
  | some c => some (c, { x with chain := none })
  | none => match x.queue with
    | [] => none
    | d :: r => some (d, { x with queue := r })

/-- DESCRIPTOR_START. -/
def descriptorStart (g t n : Nat) (s : State) : State :=
  let x := s.gen g t n
  let u := aUnit g t
  if s.rd u Reg.auCtrlRun = 0 ∨ (s.rd u Reg.auStatusErr).testBit n ∨ x.aborting ∨ s.withheld g t
      ∨ x.run.any (fun r => !r.issued || decide (r.kind ≠ 0)) then s
  else
    match x.next with
    | none => s
    | some (d, x') =>
      if d.flag 4 && !x.run.isEmpty then s
      else
        let s := s.setGen g t n ({ x' with run := x'.run ++ [(⟨d, 0, 0, false, [], 0, 0, false, 0, [], 0, [], 0⟩ : RunDesc)] }.note d.handle 1 0)
        let s := (s.wri u Reg.auGenStatHandle n d.handle).wri u Reg.auGenPosDone n 0
        if d.bad then s.genFail g t n d.handle 7
        else
          -- the chain slot takes the descriptor at NEXT
          let r : State × Nat := if d.flag 5 then
              (match s.descAt g t d.space (d.f 116 4) with
               | (s', .ok raw) =>
                 let x := s'.gen g t n
                 let h := genHandle t n x.accepted
                 (s'.setGen g t n ({ x with chain := some ⟨raw, h, d.space⟩, accepted := x.accepted + 1 }.note h 0 0), 0)
               | (s', .error k) => (s', k)) else (s, 0)
          let s := r.1
          if r.2 ≠ 0 then s.genFail g t n d.handle r.2
          else if d.op = 6 then
            match s.spillList g t d with
            | (s', .error k) => s'.genFail g t n d.handle k
            | (s', .ok l) =>
              let bytes := (d.total * d.esize + 31) / 32 * 32
              if l.total < l.cursor + bytes then s'.genFail g t n d.handle 10
              else
                let w := s'.ownWrite g (d.f 88 8) 8 (l.cursor + bytes)
                if w.2 ≠ 0 then w.1.genFail g t n d.handle w.2
                else w.1.modRun g t n d.handle (fun r => { r with base := l.cursor })
          else if d.op = 7 then
            match s.spillList g t d with
            | (s', .error k) => s'.genFail g t n d.handle k
            | (s', .ok l) =>
              if l.cursor < d.f 8 8 + 32 * d.cnt 0 then s'.genFail g t n d.handle 10 else s'
          else s

/-! Moving data (R150). -/

/-- How a read or write went. -/
inductive Moved where
  | done (v : Nat)
  | sent
  | stall
  | fail (k : Nat)
  deriving DecidableEq, Repr

/-- The pond's own memories are reached through its bank ports, not the network. -/
def State.isOwn (s : State) (g a : Nat) : Bool :=
  decide (dRank a = s.rank) && (decide (dSpace a = 1) || decide (dSpace a = 2)) && decide (dPond a = g)
    && decide (addrKind 0 a = 0)

/-- SRC of generator n of tile t. -/
def State.genSrc (s : State) (g t n : Nat) : Nat := srcTile s.rank g t (n + 1)

/-- Read `len` bytes at `a` for a descriptor. -/
def State.genRead (s : State) (g t n : Nat) (d : QDesc) (a len : Nat) (into : GenInto) : State × Moved :=
  if s.isOwn g a then
    match s.ownRead g t a len 4 with
    | (s', .ok v) => (s', .done v)
    | (s', .error k) => (s', .fail k)
  else if d.flag 2 && decide (dSpace a = 0) then
    if s.cacheBusy g then (s, .stall)
    else if s.cacheShare g = 0 then
      let r := s.sendReq (s.genSrc g t n) 0 (d.flag 3) (len - 1) a 0 1 (.gread d.handle into)
      (r.2, if r.1 then .sent else .stall)
    else
      match s.cacheRead g a len with
      | some v =>
        let c := s.cset g (lineOf a)
        let w := ((c.find (lineOf a)).map (fun e => e.1)).getD 0
        let s := s.setCset g (lineOf a) { c with plru := plruTouch c.plru w }
        (s.count (.pond g) Reg.pondCacheHit Reg.pondMemWrap 1 1, .done v)
      | none =>
        if !s.portRoom (s.genSrc g t n) 0 (d.flag 3) then (s, .stall)
        else
        let s := s.count (.pond g) Reg.pondCacheMiss Reg.pondMemWrap 2 1
        let m := s.pmemOf g
        let s := s.setPmem g { m with misses := m.misses ++ [⟨lineOf a, a % 128, len, t, n, d.handle, into, [], 0⟩] }
        let s := (List.range 4).foldl (fun s p =>
          (s.post (s.genSrc g t n) 0 (d.flag 3) 31 (lineOf a * 128 + 32 * p) 0 1 (.fill (lineOf a) p)).2) s
        (s, .sent)
  else
    let r := s.sendReq (s.genSrc g t n) 0 (d.flag 3) (len - 1) a 0 1 (.gread d.handle into)
    (r.2, if r.1 then .sent else .stall)

/-- Write `len` bytes `v` at `a` for a descriptor: RACC operations send a remote accumulate (R147). -/
def State.genWrite (s : State) (g t n : Nat) (d : QDesc) (a len v : Nat) : State × Moved :=
  if d.op = 4 then
    if dSpace a ≠ 0 then (s, .fail 1)
    else
      let r := s.sendReq (s.genSrc g t n) 4 (d.flag 3) (d.f 4 1) a (BitVec.ofNat 256 v) 1 (.gwrite d.handle)
      (r.2, if r.1 then .sent else .stall)
  else if s.isOwn g a then
    let w := s.ownWrite g a len v
    (w.1, if w.2 = 0 then .done 0 else .fail w.2)
  else if d.flag 2 && decide (dSpace a = 0) && decide (s.cacheShare g ≠ 0) then
    if s.cacheBusy g then (s, .stall) else (s.cacheWrite g a len v, .done 0)
  else
    let r := s.sendReq (s.genSrc g t n) 1 (d.flag 3) (len - 1) a (BitVec.ofNat 256 v) 1 (.gwrite d.handle)
    (r.2, if r.1 then .sent else .stall)

/-- Count outstanding requests of a descriptor. -/
def State.genOut (s : State) (g t n h : Nat) (up : Bool) : State :=
  s.modRun g t n h (fun r => { r with outst := if up then r.outst + 1 else r.outst - 1 })

/-- A write of a descriptor's data, as address, length and value: one that stalls, or comes after one held, is held (R189). -/
def State.genPut (s : State) (g t n h : Nat) (w : Nat × Nat × Nat) : State :=
  let hold (s : State) : State := s.modRun g t n h (fun r => { r with held := r.held ++ [w] })
  match s.runOf g t n h with
  | none => s
  | some r =>
    if r.kind ≠ 0 then s
    else if r.held ≠ [] then hold s
    else
      match s.genWrite g t n r.d w.1 w.2.1 w.2.2 with
      | (s', .done _) => s'
      | (s', .sent) => s'.genOut g t n h true
      | (s', .stall) => hold s'
      | (s', .fail k) => s'.genFail g t n h k

/-- R150: the writes that put values of `e` bytes at addresses of one aligned 32-byte block, the later value standing where two
meet: one for each run of bytes, as address, length and value. -/
def blockWrites (e : Nat) (l : List (Nat × Nat)) : List (Nat × Nat × Nat) :=
  let base := (l.headD (0, 0)).1 / 32 * 32
  let w := l.foldl (fun (w : BitVec 128 × BitVec 1024) x =>
    (w.1 ||| byteMask (x.1 % 32) e, lineMerge w.2 (x.1 % 32) e x.2)) (0, 0)
  (dirtyRuns w.1 0).map (fun r => (base + r.1, r.2, w.2.toNat / 2 ^ (8 * r.1) % 2 ^ (8 * r.2)))

/-- The `e` bytes at offset o of bytes given as a number. -/
def elemOf (e v o : Nat) : Nat := v / 2 ^ (8 * o) % 2 ^ (8 * e)

/-- Put read bytes where they go. -/
def State.genDeliver (s : State) (g t n h : Nat) (into : GenInto) (v : Nat) : State :=
  match into with
  | .buf e offs => s.modRun g t n h (fun r =>
      if r.kind ≠ 0 then r else { r with buf := r.buf ++ offs.flatMap (fun o => leBytes e (elemOf e v o)) })
  | .write e moves => (blockWrites e (moves.map (fun m => (m.2, elemOf e v m.1)))).foldl (fun s w => s.genPut g t n h w) s

/-- AU_STALL counts `dt` core cycles. -/
def State.genStall (s : State) (g t n dt : Nat) : State := s.counti (aUnit g t) Reg.auStall n Reg.auWrap 0 (4 + n) dt
/-- AU_REQS counts a request. -/
def State.genReq (s : State) (g t n : Nat) : State := s.counti (aUnit g t) Reg.auReqs n Reg.auWrap 0 n 1

/-- One read of a descriptor, with its data delivered when it answers at once. -/
def State.genFetch (s : State) (g t n : Nat) (d : QDesc) (a len : Nat) (into : GenInto) : State × Moved :=
  match s.genRead g t n d a len into with
  | (s', .done v) => (s'.genDeliver g t n d.handle into v, .done v)
  | (s', .sent) =>
    let reads (r : RunDesc) : RunDesc := match into with | .buf _ _ => { r with reads := r.reads + 1 } | .write _ _ => r
    ((s'.genOut g t n d.handle true).modRun g t n d.handle reads, .sent)
  | (s', .fail k) => (s'.genFail g t n d.handle k, .fail k)
  | r => r

/-- One write of a descriptor. -/
def State.genStore (s : State) (g t n : Nat) (d : QDesc) (a len v : Nat) : State × Moved :=
  match s.genWrite g t n d a len v with
  | (s', .sent) => (s'.genOut g t n d.handle true, .sent)
  | (s', .fail k) => (s'.genFail g t n d.handle k, .fail k)
  | r => r

/-- The writes of one request: the first decides whether it stalls, and one after it that stalls is held. -/
def State.genStoreAll (s : State) (g t n : Nat) (d : QDesc) (ws : List (Nat × Nat × Nat)) : State × Moved :=
  match ws with
  | [] => (s, .done 0)
  | w :: rest =>
    match s.genStore g t n d w.1 w.2.1 w.2.2 with
    | (s', .stall) => (s', .stall)
    | (s', .fail k) => (s', .fail k)
    | (s', m) => (rest.foldl (fun s w => s.genPut g t n d.handle w) s', m)

/-- R150: the elements from `pos`, whose addresses are `sa` and `da`, that move as one request of at most `room` bytes: consecutive
ones that lie, on every address side, in one aligned 32-byte block. Each is given by its source and destination address. -/
def State.mergeRun (s : State) (g t : Nat) (d : QDesc) (pos : Nat) (src dst : Bool) (sa da room : Nat) : List (Nat × Nat) :=
  let e := d.esize
  let side (used dir : Bool) (a0 k : Nat) : Option Nat :=
    if !used then some 0
    else match (s.elemAddr g t d dir (pos + k)).2 with
      | .ok a => if a % e = 0 ∧ a / 32 = a0 / 32 then some a else none
      | .error _ => none
  let elem (k : Nat) : Option (Nat × Nat) :=
    match side src false sa k, side dst true da k with
    | some x, some y => some (x, y)
    | _, _ => none
  let limit := Min.min (d.total - pos) (Min.min (32 / e) (room / e))
  (sa, da) :: ((((List.range limit).drop 1).map elem).takeWhile (fun x => x.isSome)).filterMap id

/-- The source bytes that a request spans: the lowest address, and the bytes up to the end of the highest element. -/
def srcSpan (e : Nat) (l : List (Nat × Nat)) : Nat × Nat :=
  let lo := (l.map (fun x => x.1)).foldl Min.min (l.headD (0, 0)).1
  (lo, (l.map (fun x => x.1)).foldl Max.max lo + e - lo)

/-- Elements moved. -/
def State.genMoved (s : State) (g t n h k : Nat) : State :=
  let s := s.modRun g t n h (fun r => { r with pos := r.pos + k })
  s.wri (aUnit g t) Reg.auGenPosDone n (s.rdi (aUnit g t) Reg.auGenPosDone n + k)

/-- R147: bytes j.. of the repeated FILL constant. -/
def fillBytes (c j n : Nat) : Nat := leNat ((List.range n).map (fun i => BitVec.ofNat 8 (c / 2 ^ (8 * ((j + i) % 8)))))

/-! The compressor (R99, R154). -/

/-- R84: bytes of a dense quarter record. -/
def denseLen (f : NFmt) : Nat := (16 + 32 * f.bits + 31) / 32 * 32
/-- R84: bytes of a sparse quarter record. -/
def sparseLen (f : NFmt) (lanes : List Nat) : Nat := (48 + laneOff f lanes 4 + 31) / 32 * 32
/-- R99: largest QPOP written sparse. -/
def qpopLimit : NFmt → Nat
  | .f32 => 57 | .f16 => 54 | .g16 => 54 | .f8 => 49 | .f4 => 39

/-- Element code i of packed bytes given as a number. -/
def packedAt (f : NFmt) (v i : Nat) : Nat := v / 2 ^ (f.bits * i) % 2 ^ f.bits

/-- R84: lane bitmaps of a dense quarter's weights `w` with scale words `sc`: a zero code under the scale 0xFF is a NaN (R67), and
so not ±0. -/
def denseLanes (f : NFmt) (sc w : Nat) : List Nat :=
  (List.range 4).map (fun j => ((List.range 64).filter (fun k =>
    decide (packedAt f w (blockIndex f.perSlot k j) % 2 ^ (f.bits - 1) ≠ 0)
      || (f.scaled && decide (sc / 2 ^ (32 * (k / 32) + 8 * j) % 256 = 255)))).foldl (fun a k => a + 2 ^ k) 0)

/-- R84: the run of column j. -/
def laneRun (f : NFmt) (w lane j : Nat) : List Byte :=
  let codes := ((List.range 64).filter (fun k => lane.testBit k)).map (fun k => packedAt f w (blockIndex f.perSlot k j))
  let v := codes.foldr (fun c a => a * 2 ^ f.bits + c) 0
  leBytes ((codes.length * f.bits + 7) / 8) v

/-- Pad to a multiple of 32 bytes. -/
def pad32 (bs : List Byte) : List Byte := bs ++ List.replicate ((32 - bs.length % 32) % 32) 0

/-- R154: one tile: its four dense records as bytes give the four records to write, and whether they are dense; the
kind of the failure otherwise. `last` is the SEQ of the source's previous tile, if any, and `build` the BUILD licence (R86). DESIGN
CHOICE (log entry 17): TBM is 0 in the records written. -/
def compressTile (f : NFmt) (code seq : Nat) (last : Option Nat) (build : Bool) (bs : List Byte) : Except Nat (List Byte × Bool × Nat) :=
  let len := denseLen f
  let recs := (List.range 4).map (fun q => (bs.drop (q * len)).take len)
  let metas := recs.map (fun r => BitVec.ofNat 64 (leNat (r.take 8)))
  let m0 := MetaWord.ofBits (metas.getD 0 0)
  let want := match last with | some x => (x + 1) % 256 | none => m0.seq
  if (metas.zipIdx.any (fun e => !metaValid e.1 e.2 [] code want build || !(MetaWord.ofBits e.1).dense)) then .error 7
  else
    let ws := recs.map (fun r => leNat ((r.drop 16).take (32 * f.bits)))
    let lanes := (recs.zip ws).map (fun e => denseLanes f (leNat ((e.1.drop 8).take 8)) e.2)
    let pops := lanes.map (fun l => (l.map popcount64).foldl Max.max 0)
    let sparse := lanes.all (fun l => decide (sparseLen f l ≤ len)) && pops.all (fun p => decide (p ≤ qpopLimit f))
    let q := if sparse then pops else [64, 64, 64, 64]
    let low := (if sparse then 0 else 1) + code * 4 + 64 + q.getD 0 0 * 2 ^ 8 + q.getD 1 0 * 2 ^ 16 + q.getD 2 0 * 2 ^ 24
      + q.getD 3 0 * 2 ^ 32 + seq % 256 * 2 ^ 40
    let word := low + metaXor (BitVec.ofNat 64 low) * 2 ^ 56
    let outs := (List.range 4).map (fun i =>
      let r := recs.getD i []
      let l := lanes.getD i []
      let w := ws.getD i 0
      leBytes 8 word ++ ((r.drop 8).take 8) ++
        (if sparse then l.flatMap (fun b => leBytes 8 b) ++ (List.range 4).flatMap (fun j => laneRun f w (l.getD j 0) j)
         else leBytes (32 * f.bits) w))
    .ok (outs.flatMap pad32, !sparse, m0.seq)

/-! DESCRIPTOR_REQUEST (R148–R150, R154, R165). -/

/-- A request of a descriptor was issued: count it, and mark the descriptor issued when nothing is left. -/
def genIssued (g t n h : Nat) (r : State × Moved) (k dt : Nat) : State :=
  match r.2 with
  | .stall => r.1.genStall g t n (Max.max dt 1)
  | .fail _ => r.1
  | _ => (r.1.genReq g t n).genMoved g t n h k

/-- The source pattern element at the run's position moves into the packing buffer. -/
def State.genPack (s : State) (g t n dt : Nat) (r : RunDesc) : State :=
  let d := r.d
  let e := d.esize
  match s.elemAddr g t d false r.pos with
  | (s, .error k) => s.genFail g t n d.handle k
  | (s, .ok a) =>
    if a % e ≠ 0 then s.genFail g t n d.handle 8
    else
      let l := s.mergeRun g t d r.pos true false a 0 32
      let sp := srcSpan e l
      genIssued g t n d.handle (s.genFetch g t n d sp.1 sp.2 (.buf e (l.map (fun x => x.1 - sp.1)))) l.length dt

/-- Write 32 bytes of a byte stream at address a. -/
def State.genEmit (s : State) (g t n dt : Nat) (r : RunDesc) (a : Nat) (bs : List Byte) (rest : RunDesc → RunDesc) : State :=
  match s.genStore g t n r.d a 32 (leNat bs) with
  | (s, .stall) => s.genStall g t n (Max.max dt 1)
  | (s, .fail _) => s
  | (s, _) => (s.genReq g t n).modRun g t n r.d.handle rest

/-- One request of the running descriptor `r` by its operation. -/
def State.genStep (s : State) (g t n dt : Nat) (r : RunDesc) : State :=
  let d := r.d
  let h := d.handle
  let e := d.esize
  let finish (s : State) : State := s.modRun g t n h (fun r => { r with issued := true })
  match d.op with
  | 1 =>
    -- TO_QUEUE: full entries leave, the last one zero-padded
    if 32 ≤ r.buf.length ∨ (r.pos = d.total ∧ r.reads = 0 ∧ r.buf ≠ []) then
      let bs := pad32 (r.buf.take 32)
      let dest := queueDest s.rank g (d.f 5 1 % 16) (d.f 5 1 / 16 % 8) false
      let q := s.sendReq (s.genSrc g t n) 2 (d.flag 3) 31 dest (entryOf bs) 1 (.gwrite h)
      if q.1 then
        ((q.2.genOut g t n h true).genReq g t n).modRun g t n h (fun r => { r with buf := r.buf.drop 32 })
      else q.2.genStall g t n (Max.max dt 1)
    else if r.pos = d.total then (if r.reads = 0 ∧ r.buf = [] then finish s else s)
    else if r.reads ≠ 0 then s.genStall g t n dt
    else s.genPack g t n dt r
  | 2 =>
    -- FROM_QUEUE: entries unpacked in order
    if r.pos = d.total then finish s
    else if r.buf.length < e then
      let qt := d.f 5 1 % 16
      let qn := d.f 5 1 / 16 % 8
      match s.headOf g qt true qn with
      | none => s.genStall g t n (Max.max dt 1)
      | some en => (s.pop g qt true qn).modRun g t n h (fun r => { r with buf := r.buf ++ bvBytes 32 en.data })
    else
      match s.elemAddr g t d true r.pos with
      | (s, .error k) => s.genFail g t n h k
      | (s, .ok a) =>
        if a % e ≠ 0 then s.genFail g t n h 8
        else
          let l := s.mergeRun g t d r.pos false true 0 a r.buf.length
          let ws := blockWrites e (l.mapIdx (fun i x => (x.2, elemOf e (leNat r.buf) (i * e))))
          match s.genStoreAll g t n d ws with
          | (s, .stall) => s.genStall g t n (Max.max dt 1)
          | (s, .fail _) => s
          | (s, _) => ((s.genReq g t n).genMoved g t n h l.length).modRun g t n h (fun r => { r with
              buf := r.buf.drop (l.length * e) })
  | 3 =>
    -- FILL
    if r.pos = d.total then finish s
    else match s.elemAddr g t d true r.pos with
      | (s, .error k) => s.genFail g t n h k
      | (s, .ok a) =>
        if a % e ≠ 0 then s.genFail g t n h 8
        else
          let l := s.mergeRun g t d r.pos false true 0 a 32
          let ws := blockWrites e (l.mapIdx (fun i x => (x.2, fillBytes (d.f 96 8) ((r.pos + i) * e) e)))
          genIssued g t n h (s.genStoreAll g t n d ws) l.length dt
  | 5 =>
    -- COMPRESS
    let f := NFmt.ofCode (d.f 4 1)
    if r.out ≠ [] then
      s.genEmit g t n dt r (d.f 16 8 + r.wrPos) (r.out.take 32) (fun r => { r with out := r.out.drop 32, wrPos := r.wrPos + 32 })
    else if 4 * denseLen f ≤ r.buf.length then
      match compressTile f (d.f 4 1) r.seq (if r.base = 0 then none else some (r.base - 1)) (s.hasLicence 0) r.buf with
      | .error k => s.genFail g t n h k
      | .ok (bs, dense, last) =>
        let s := s.modRun g t n h (fun r => { r with
          out := bs, buf := r.buf.drop (4 * denseLen f), seq := (r.seq + 1) % 256, base := last + 1 })
        let s := s.count (aUnit g t) Reg.auCmpTiles Reg.auWrap 8 1
        if dense then s.count (aUnit g t) Reg.auCmpDense Reg.auWrap 9 1 else s
    else if r.pos = d.cnt 0 * (4 * denseLen f / 32) then (if r.reads = 0 then finish s else s)
    else if r.reads ≠ 0 then s.genStall g t n dt
    else if d.f 8 8 % 32 ≠ 0 ∨ d.f 16 8 % 32 ≠ 0 then s.genFail g t n h 8
    else genIssued g t n h (s.genFetch g t n d (d.f 8 8 + 32 * r.pos) 32 (.buf 32 [0])) 1 dt
  | 6 =>
    -- SPILL_W
    if 32 ≤ r.buf.length ∨ (r.pos = d.total ∧ r.reads = 0 ∧ r.buf ≠ []) then
      match s.spillList g t d with
      | (s, .error k) => s.genFail g t n h k
      | (s, .ok l) =>
        match spillAddr l.extents (r.base + r.wrPos) with
        | none => s.genFail g t n h 10
        | some a => s.genEmit g t n dt r a (pad32 (r.buf.take 32)) (fun r => { r with
            buf := r.buf.drop 32, wrPos := r.wrPos + 32 })
    else if r.pos = d.total then (if r.reads = 0 ∧ r.buf = [] then finish s else s)
    else if r.reads ≠ 0 then s.genStall g t n dt
    else s.genPack g t n dt r
  | 7 =>
    -- SPILL_R
    if r.pos = d.cnt 0 then finish s
    else if d.f 8 8 % 32 ≠ 0 ∨ d.f 16 8 % 32 ≠ 0 then s.genFail g t n h 8
    else match s.spillList g t d with
      | (s, .error k) => s.genFail g t n h k
      | (s, .ok l) =>
        match spillAddr l.extents (d.f 8 8 + 32 * r.pos) with
        | none => s.genFail g t n h 10
        | some a => genIssued g t n h (s.genFetch g t n d a 32 (.write 32 [(0, d.f 16 8 + 32 * r.pos)])) 1 dt
  | _ =>
    -- COPY, RACC
    if r.pos = d.total then finish s
    else match s.elemAddr g t d false r.pos with
      | (s, .error k) => s.genFail g t n h k
      | (s, .ok sa) =>
        match s.elemAddr g t d true r.pos with
        | (s, .error k) => s.genFail g t n h k
        | (s, .ok da) =>
          if sa % e ≠ 0 ∨ da % e ≠ 0 then s.genFail g t n h 8
          else
            let l := s.mergeRun g t d r.pos true true sa da 32
            let sp := srcSpan e l
            genIssued g t n h (s.genFetch g t n d sp.1 sp.2 (.write e (l.map (fun x => (x.1 - sp.1, x.2))))) l.length dt

/-- DESCRIPTOR_REQUEST: the generator, after a wait of `dt` core cycles, issues one request; in `conf` core cycles of the wait a
request of the pond lost the arbitration for a pond-memory bank (R134). Writes held for a sender entry go first. -/
def descriptorRequest (g t n dt conf : Nat) (s : State) : State :=
  match (s.gen g t n).run.find? (fun r => decide (r.kind = 0) && (decide (r.held ≠ []) || !r.issued)) with
  | none => s
  | some r =>
    let s := if dt = 0 then s else s.genStall g t n dt
    let s := if conf = 0 then s else s.count (.pond g) Reg.pondBankConf Reg.pondMemWrap 0 conf
    match r.held with
    | (a, len, v) :: rest =>
      match s.genStore g t n r.d a len v with
      | (s, .stall) => s.genStall g t n 1
      | (s, .fail _) => s
      | (s, _) => s.modRun g t n r.d.handle (fun r => { r with held := rest })
    | [] => s.genStep g t n 0 r

/-- DESCRIPTOR_COMPLETE (R151): every write is acknowledged; the completion signal leaves, or the descriptor is done. -/
def descriptorComplete (g t n : Nat) (s : State) : State :=
  match (s.gen g t n).run.find? (fun r => r.issued && decide (r.outst = 0) && decide (r.kind = 0) && decide (r.held = [])
      && decide (r.out = []) && !r.sigSent) with
  | none => s
  | some r =>
    let h := r.d.handle
    if r.d.f 104 8 = 0 then
      let x := s.gen g t n
      s.setGen g t n ({ x with run := x.run.filter (fun y => decide (y.d.handle ≠ h)) }.note h 2 0)
    else
      let q := s.sendSignal (s.genSrc g t n) (r.d.f 104 8 % 2 ^ 58) (r.d.f 112 4) (.gsig h)
      if q.1 then (q.2.genOut g t n h true).modRun g t n h (fun r => { r with sigSent := true })
      else q.2.genStall g t n 1

/-! Answers. -/

/-- A write, entry or accumulate was acknowledged. -/
def State.genAck (s : State) (g t n h : Nat) : State := (s.genOut g t n h false).genSettle g t n

/-- The completion signal was acknowledged: the descriptor is done. -/
def State.genSigAck (s : State) (g t n h : Nat) : State :=
  let x := s.gen g t n
  match s.runOf g t n h with
  | none => s
  | some r =>
    if r.kind ≠ 0 then s.genAck g t n h
    else s.setGen g t n ({ x with run := x.run.filter (fun y => decide (y.d.handle ≠ h)) }.note h 2 0)

/-- Data of a read arrived. -/
def State.genData (s : State) (g t n h : Nat) (into : GenInto) (v : Nat) : State :=
  let reads (r : RunDesc) : RunDesc := match into with | .buf _ _ => { r with reads := r.reads - 1 } | .write _ _ => r
  (((s.genOut g t n h false).modRun g t n h reads).genDeliver g t n h into v).genSettle g t n

/-- A request was refused or left unanswered: the descriptor fails with that kind (R153, R193). -/
def State.genNack (s : State) (g t n h kind : Nat) : State := (s.genOut g t n h false).genFail g t n h kind

/-- R141: part p of a line arrived, or failed with a kind. -/
def State.fillPart (s : State) (g l p : Nat) (v : Option (BitVec 256)) (kind : Nat) : State :=
  let m := s.pmemOf g
  s.setPmem g { m with misses := m.misses.map (fun x =>
    if x.line = l ∧ x.parts.all (fun e => decide (e.1 ≠ p)) then
      { x with parts := x.parts ++ [(p, v.getD 0)], failed := if x.failed = 0 then kind else x.failed }
    else x) }

/-- CACHE_FILL (R141): a fetched line fills the invalid bytes of its way, and the read that missed is served. -/
def cacheFill (g l : Nat) (s : State) : State :=
  match (s.pmemOf g).misses.find? (fun x => decide (x.line = l) && decide (x.parts.length = 4)) with
  | none => s
  | some x =>
    let m := s.pmemOf g
    let s := s.setPmem g { m with misses := m.misses.erase x }
    if x.failed ≠ 0 then (s.cacheApply g).genNack g x.tile x.gen x.handle x.failed
    else
      let r := s.cacheAlloc g l
      let bytes := (List.range 4).foldl (fun b p =>
        lineMerge b (32 * p) 32 ((x.parts.find? (fun e => decide (e.1 = p))).map (fun e => e.2.toNat) |>.getD 0)) (0 : BitVec 1024)
      let keep := (List.range 128).foldl (fun (b : BitVec 1024) i =>
        if r.2.2.valid.getLsbD i then lineMerge b i 1 (r.2.2.bytes.toNat / 2 ^ (8 * i) % 256) else b) bytes
      let s := (r.1.cachePut g r.2.1 { r.2.2 with valid := ~~~(0 : BitVec 128), bytes := keep }).cacheApply g
      s.genData g x.tile x.gen x.handle x.into (keep.toNat / 2 ^ (8 * x.lo) % 2 ^ (8 * x.n))

/-! Control (R153, R167). -/

/-- ABORT (R153): the running descriptor stops with kind ABORTED and the queued ones are discarded. -/
def abortGenerator (g t n : Nat) (s : State) : State :=
  let s := s.genDiscard g t n
  let hs := ((s.gen g t n).run.filter (fun r => decide (r.kind = 0))).map (fun r => r.d.handle)
  let s := if hs = [] then s else s.setGen g t n { s.gen g t n with aborting := true }
  hs.foldl (fun s h => s.genFail g t n h 11) s

/-- AU_ERR_CLEAR (R153, R167): 1s written to AU_STATUS.ERR clear it and let the queues run. -/
def auErrClear (g t mask : Nat) (s : State) : State :=
  (List.range 4).foldl (fun s n => if mask.testBit n then s.clrBiti (aUnit g t) Reg.auStatusErr 0 n else s) s

/-- Nothing queued or running in any generator. -/
def State.auIdle (s : State) (g t : Nat) : Bool :=
  (List.range 4).all (fun n => let x := s.gen g t n
    x.queue.isEmpty && x.chain.isNone && x.run.isEmpty)

/-- AU_DRAIN (R167): DRAIN is set when written, and once the generators are idle RUN and DRAIN clear. -/
def auDrain (g t : Nat) (write : Bool) (s : State) : State :=
  let u := aUnit g t
  let s := if write then s.wr u Reg.auCtrlDrain 1 else s
  if s.rd u Reg.auCtrlDrain = 1 && s.auIdle g t then (s.wr u Reg.auCtrlRun 0).wr u Reg.auCtrlDrain 0 else s

end Sys2Proof.Machine
end

