-- ==== Sys2Proof/Machine/Steering.lean ====
section
/-! DEFINITION. Output queues, WAITs, springs and steering units (R171–R187, R196). -/

namespace Sys2Proof.Machine

/-! Steering (R180–R184). -/

/-- Set RTR_QSTAT.STEER_ERR, raise POISON, log STEER_PROTOCOL, stop the unit (R183). -/
def State.steerError (s : State) (g t n typ : Nat) : State :=
  let s := s.setSteer g t n { s.steer g t n with stopped := true }
  let s := s.wr (.tile g t) Reg.rtrQstatSteerErr 1
  let s := s.raise g 2 t
  s.recTile g t (24 + n) 0x0C 0 (n + typ % 256 * 4)

/-- R181: RTR_STEER_WAIT counts. -/
def State.steerWait (s : State) (g t n dt : Nat) : State := s.counti (.tile g t) Reg.rtrSteerWait n Reg.rtrQwrap 0 (16 + n) dt
/-- R181: RTR_STEER_BLK counts. -/
def State.steerBlk (s : State) (g t n dt : Nat) : State := s.counti (.tile g t) Reg.rtrSteerBlk n Reg.rtrQwrap 0 (20 + n) dt

/-- Add a run of entries with a destination to an output queue (R180). -/
def State.addRun (s : State) (g t q count dest : Nat) : State :=
  let k := queueKey g t true q
  let x := s.queue k
  s.setQueue k { x with runs := match x.runs.getLast? with
    | some (n, d) => if d = dest then x.runs.dropLast ++ [(n + count, d)] else x.runs ++ [(count, dest)]
    | none => [(count, dest)] }

/-- R176, R182: the DEST of a switch token's entries, by DEST_EN: 0 for RTR_QDEST. -/
def switchDest (tok : Entry) (kindless : Nat → Nat) : Nat :=
  if (tokFlags tok).testBit 0 then kindless (tokArg tok) + 1 else 0

/-- R176: the queue destination in ARG of a switch token: queue [10:8], tile [14:11], pond [23:15], field [29:24],
rank [35:30]. -/
def argDest (a : Nat) : Nat :=
  mkAddr (a / 2 ^ 30 % 64) 0xE (a / 2 ^ 24 % 64 * 2 ^ 37 + a / 2 ^ 15 % 512 * 2 ^ 28 + a / 2 ^ 11 % 16 * 2 ^ 24
    + a / 2 ^ 8 % 8 * 2 ^ 21)

/-- The unit is on, with function `f`, and not stopped. -/
def State.steerOn (s : State) (g t n f : Nat) : Bool :=
  !isGateUnit t n && decide (s.rdi (.tile g t) Reg.rtrSteerFunc n = f) && !(s.steer g t n).stopped

/-- R183: is the entry at the head of CIN a protocol error for function `f` (1 switch, 2 merge, 3 gate)? -/
def State.steerBad (s : State) (g t n f : Nat) (e : QEnt) : Bool :=
  let tok := e.data
  !e.tok || decide (tokType tok ≠ f + 1) || decide (tokReserved tok ≠ 0)
    || (match f with
        | 1 => !(s.rdi (.tile g t) Reg.rtrSteerOutMask n).testBit (tokArg tok % 8)
        | 2 => decide (s.rdi (.tile g t) Reg.rtrSteerMcnt n < tokArg tok % 4)
        | _ => false)

/-- R181: the data input that a decision selects. -/
def State.steerData (s : State) (g t n f : Nat) (tok : Entry) : Nat :=
  if f = 2 then s.mergeIn g t n (tokArg tok % 4) else s.rdi (.tile g t) Reg.rtrSteerDin n

/-- The output of merge, gate and batch units: input or output queue. -/
def State.steerOut (s : State) (g t n : Nat) : Bool × Nat :=
  let o := s.rdi (.tile g t) Reg.rtrSteerOut n
  (decide (8 ≤ o), o % 8)

/-- R181: one entry moves to the output of the decision; none when the output is full. -/
def State.steerMove (s : State) (g t n f : Nat) (tok : Entry) (e : QEnt) : Option State :=
  match f with
  | 1 => (s.push g t true (tokArg tok % 8) e).map (fun s => s.addRun g t (tokArg tok % 8) 1 (switchDest tok argDest))
  | 2 => s.push g t (s.steerOut g t n).1 (s.steerOut g t n).2 e
  | _ => if (tokArg tok).testBit 0 then s.push g t (s.steerOut g t n).1 (s.steerOut g t n).2 e
         else some (s.count (.tile g t) Reg.rtrSteerDrop Reg.rtrQwrap 24 1)

/-! Batch units (R184). -/

/-- Entries of an item. -/
def State.batchLen (s : State) (g t n : Nat) : Nat :=
  let v := s.rdi (.tile g t) Reg.rtrSteerLen n
  if v = 0 then 256 else v

/-- Complete items the unit holds. -/
def State.batchItems (s : State) (g t n : Nat) : Nat := (s.steer g t n).held.length / s.batchLen g t n

/-- R37, R184: the unit takes entries and forms groups: its tile runs and no drain is under way. -/
def State.batchTakes (s : State) (g t : Nat) : Bool := s.tileRun g t && !s.tileDrain g t

/-- Nothing of an earlier run is still to leave. -/
def Steer.clear (x : Steer) : Bool := x.run.isEmpty && !x.owed

/-- R184: entries at DIN enter the unit until it holds ITEMS complete items. -/
def State.batchTake (s : State) (g t n : Nat) : Nat → State
  | 0 => s
  | fuel + 1 =>
    let x := s.steer g t n
    let din := s.rdi (.tile g t) Reg.rtrSteerDin n
    if s.rdi (.tile g t) Reg.rtrSteerItems n * s.batchLen g t n ≤ x.held.length then s
    else
      match s.headOf g t false din with
      | none => s
      | some e =>
        State.batchTake (((s.pop g t false din).refill g t false din).setSteer g t n { x with held := x.held ++ [e] }) g t n fuel

/-- R184: the complete items held become the run being released. -/
def State.batchBegin (s : State) (g t n : Nat) (deadline : Bool) : State :=
  let x := s.steer g t n
  let k := s.batchItems g t n
  s.setSteer g t n { x with
    held := x.held.drop (k * s.batchLen g t n)
    run := x.held.take (k * s.batchLen g t n)
    runItems := k
    byDeadline := deadline
    due := false
    owed := decide (s.rdi (.tile g t) Reg.rtrSteerEmit n = 1) }

/-- R184: the run being released leaves while the output takes it, then the BATCH_END token. -/
def State.batchPump (s : State) (g t n : Nat) : Nat → State
  | 0 => s
  | fuel + 1 =>
    let x := s.steer g t n
    let o := s.steerOut g t n
    match x.run with
    | e :: r =>
      match s.push g t o.1 o.2 e with
      | none => s.steerBlk g t n 1
      | some s' => State.batchPump (s'.setSteer g t n { x with run := r }) g t n fuel
    | [] =>
      if x.owed then
        match s.push g t o.1 o.2 ⟨true, mkToken 5 x.byDeadline.toNat x.runItems 0 0⟩ with
        | none => s.steerBlk g t n 1
        | some s' => s'.setSteer g t n { x with
            owed := false
            runItems := 0
            byDeadline := false }
      else s

/-- Everything of the run leaves that the output takes. -/
def State.batchOut (s : State) (g t n : Nat) : State := s.batchPump g t n ((s.steer g t n).run.length + 1)

/-- R36, R37, R184: a batch unit goes on: what is left of an earlier run leaves; entries enter from DIN; ITEMS complete items, or
those that a drain asked for, start a run. -/
def State.batchJudge (s : State) (g t n : Nat) : State :=
  if !s.steerOn g t n 4 then s
  else
    let s := s.batchOut g t n
    let s := if s.batchTakes g t then
        s.batchTake g t n ((s.queue (queueKey g t false (s.rdi (.tile g t) Reg.rtrSteerDin n))).count)
      else s
    let x := s.steer g t n
    if x.clear && s.tileRun g t && decide (0 < s.batchItems g t n) then
      if x.due then (s.batchBegin g t n true).batchOut g t n
      else if s.rdi (.tile g t) Reg.rtrSteerItems n ≤ s.batchItems g t n then (s.batchBegin g t n false).batchOut g t n
      else s
    else s

/-- Every batch unit of a tile goes on. -/
def State.batchAll (s : State) (g t : Nat) : State := (List.range 4).foldl (fun s n => s.batchJudge g t n) s

/-- R37: a drain of the tile releases the complete items its batch units hold, as the deadline would. -/
def State.batchDrain (s : State) (g t : Nat) : State :=
  (List.range 4).foldl (fun s n =>
    if s.steerOn g t n 4 && s.tileRun g t && decide (0 < s.batchItems g t n) then
      (s.setSteer g t n { s.steer g t n with due := true }).batchJudge g t n
    else s) s

/-- BATCH_DEADLINE (R184): DEADLINE core cycles have passed since the first item was complete. -/
def batchDeadline (g t n : Nat) (s : State) : State :=
  let s := s.batchJudge g t n
  if s.steerOn g t n 4 && (s.steer g t n).clear && s.tileRun g t && decide (0 < s.batchItems g t n) then
    (s.batchBegin g t n true).batchOut g t n
  else s

/-! SPILL_REFILL (R173). -/

/-- SPILL_REFILL. -/
def spillRefill (g t : Nat) (isOut : Bool) (q : Nat) (s : State) : State := (s.refill g t isOut q).batchAll g t

/-- R181: `dt` core cycles in which only one of a token and its data was present. -/
def State.steerIdle (s : State) (g t n f dt : Nat) : State :=
  let x := s.steer g t n
  let here (q : Nat) : Bool := (s.headOf g t false q).isSome
  let cin := s.rdi (.tile g t) Reg.rtrSteerCin n
  let one : Bool :=
    if x.left ≠ 0 then !here (s.steerData g t n f x.token)
    else match s.headOf g t false cin with
      | none => (s.steerInputs g t n f).any here
      | some e => decide (tokCount e.data ≠ 0) && !here (s.steerData g t n f e.data)
  if one then s.steerWait g t n dt else s

/-- SWITCH, MERGE, GATE (R180–R183): one core cycle of steering unit n with function `f`, after `dt` core cycles of
waiting: it pairs a token with its data, or moves one entry of the decision in hand. -/
def steerCycle (g t n f dt : Nat) (s : State) : State :=
  if !s.steerOn g t n f then s
  else
    let s := s.steerIdle g t n f dt
    let x := s.steer g t n
    let cin := s.rdi (.tile g t) Reg.rtrSteerCin n
    if x.left = 0 then
      match s.headOf g t false cin with
      | none => s.steerIdle g t n f 1
      | some e =>
        if s.steerBad g t n f e then s.steerError g t n (if e.tok then tokType e.data else 0)
        else
          let cnt := tokCount e.data
          if cnt ≠ 0 ∧ (s.headOf g t false (s.steerData g t n f e.data)).isNone then s.steerIdle g t n f 1
          else
            let fwd := f = 1 ∧ (tokFlags e.data).testBit 1
            let scale : QEnt := ⟨true, mkToken 6 0 0 (tokFlags e.data / 4 % 8) (tokUser e.data)⟩
            let go : Option State := if fwd then s.steerMove g t n f e.data scale else some s
            match go with
            | none => s.steerBlk g t n 1
            | some s => (s.pop g t false cin).setSteer g t n { x with left := cnt, token := e.data }
    else
      let din := s.steerData g t n f x.token
      match s.headOf g t false din with
      | none => s.steerIdle g t n f 1
      | some e =>
        match s.steerMove g t n f x.token e with
        | none => s.steerBlk g t n 1
        | some s => ((s.pop g t false din).setSteer g t n { x with left := x.left - 1 }).batchAll g t

/-! Output queues (R171). -/

/-- The destination of the entry at an output queue's head: its switch destination or RTR_QDEST; none when neither is
valid. -/
def State.oqDest (s : State) (g t q : Nat) : Option Nat :=
  let u := UnitId.tile g t
  match (s.queue (queueKey g t true q)).runs with
  | (_, d + 1) :: _ => some d
  | _ =>
    if s.rdi u Reg.rtrQdestValid q = 1 then
      some (mkAddr (s.rdi u Reg.rtrQdestRank q) 0xE (s.rdi u Reg.rtrQdestField q * 2 ^ 37 + s.rdi u Reg.rtrQdestPond q * 2 ^ 28
        + s.rdi u Reg.rtrQdestTile q * 2 ^ 24 + s.rdi u Reg.rtrQdestQueue q * 2 ^ 21))
    else none

/-- The head of an output queue that may leave: a WAIT only with FWD (R178). -/
def State.oqHead (s : State) (g t q : Nat) : Option QEnt :=
  match (s.queue (queueKey g t true q)).hw with
  | [] => none
  | e :: _ => if e.isWait && !(tokFlags e.data).testBit 0 then none else some e

/-- R171: the head of output queue q leaves as one packet; none when it cannot (R189, R236). -/
def State.oqTake (s : State) (g t q : Nat) : Bool × State :=
  match s.oqHead g t q, s.oqDest g t q with
  | some e, some d =>
    let ord := decide (s.rdi (.tile g t) Reg.rtrQdestUnord q = 0)
    let r := s.sendReq (srcTile s.rank g t 0) 2 ord 31 (d + e.tok.toNat * 2 ^ 20) e.data 1 .oq
    if r.1 then
      let s := r.2.pop g t true q
      (true, { s with net := { s.net with oqLast := s.net.oqLast.set (16 * g + t) 7 q } })
    else (false, r.2)
  | _, _ => (false, s)

/-- R171: the first queue of the list whose head can leave sends it; a head that waits for a sender entry or for room at the local port
is passed over, and the latter counts (R196). -/
def State.oqFirst (s : State) (g t : Nat) : List Nat → State
  | [] => s
  | q :: r =>
    let x := s.oqTake g t q
    if x.1 then x.2.batchAll g t
    else State.oqFirst (if s.portRoom (srcTile s.rank g t 0) 2 (decide (s.rdi (.tile g t) Reg.rtrQdestUnord q = 0)) then x.2
      else x.2.queueStall g t true q 1) g t r

/-- OQ_SEND (R171): in one core cycle the router takes the first output queue, after the one it took last, whose head is
ready, and sends the entry. A head with no valid destination counts its stall (R196); one that a WAIT holds counts under WAIT. -/
def oqSend (g t : Nat) (s : State) : State :=
  let u := UnitId.tile g t
  let last := s.net.oqLast.get (16 * g + t) 7
  let order := (List.range 8).map (fun i => (last + 1 + i) % 8)
  let holds (q : Nat) : Bool := (s.oqHead g t q).isSome && decide (s.rdi u Reg.rtrQcollEn q = 0)
  let lost := order.filter (fun q => holds q && (s.oqDest g t q).isNone)
  let s' := lost.foldl (fun s q => s.queueStall g t true q 1) s
  s'.oqFirst g t (order.filter (fun q => holds q && (s.oqDest g t q).isSome))

/-! WAITs and springs (R178, R179, R186, R187). -/

/-- The waiter of a queue. -/
def Waiter.at (w : Waiter) (g t : Nat) (isOut : Bool) (q : Nat) : Bool :=
  decide (w.pond = g) && decide (w.place = .queue t isOut q)

/-- R178: a WAIT at the head of an output queue is forwarded when FWD is set and the queue does not contribute (R300). -/
def State.waitForwards (s : State) (g t : Nat) (isOut : Bool) (q : Nat) (e : QEnt) : Bool :=
  isOut && (tokFlags e.data).testBit 0 && decide (s.rdi (.tile g t) Reg.rtrQcollEn q = 0)

/-- WAIT (R178): a WAIT reaches the head of a queue and waits on its spring from this evaluation on. -/
def waitAct (g t : Nat) (isOut : Bool) (q dt : Nat) (s : State) : State :=
  match (s.queue (queueKey g t isOut q)).hw with
  | [] => s
  | e :: _ =>
    if !e.isWait || s.waitForwards g t isOut q e then s
    else
      let s := s.queueStall g t isOut q dt
      if s.waiters.any (fun w => w.at g t isOut q) then s
      else { s with waiters := s.waiters ++
        [(⟨g, .queue t isOut q, tokArg e.data % 64, (tokArg e.data).testBit 8, s.evals.get g 0⟩ : Waiter)] }

/-- WAIT_TIMEOUT (R179): a WAIT has waited longer than WAIT_LIMIT: logged, and shown in RTR_QSTAT. -/
def waitTimeout (g t : Nat) (isOut : Bool) (q : Nat) (s : State) : State :=
  match s.waiters.find? (fun w => w.at g t isOut q) with
  | none => s
  | some w =>
    if s.rd (.pond g) Reg.pondSprCfgWaitLimit = 0 then s
    else
      (s.recTile g t ((if isOut then 16 else 8) + q) 0x0B 0 w.spring).setBiti (.tile g t) Reg.rtrQstatWaitTmo 0
        ((if isOut then 8 else 0) + q)

/-- R187: rank of a waiter among those of one age. -/
def Waiter.rank (w : Waiter) : Nat :=
  match w.place with
  | .queue t isOut q => 32 * t + (if isOut then 16 else 0) + q
  | .score => 32 * 5 + 8

/-- R187: does `a` come before `b`? -/
def Waiter.before (a b : Waiter) : Bool := decide (a.since < b.since) || (decide (a.since = b.since) && decide (a.rank ≤ b.rank))

/-- The waiters, oldest first. -/
def sortWaiters (l : List Waiter) : List Waiter :=
  l.foldl (fun acc w => (acc.filter (fun x => x.before w)) ++ [w] ++ (acc.filter (fun x => !x.before w))) []

/-- R178, R120: a waiter passes: the WAIT leaves its queue; the S-core's WAITS ends. -/
def State.passWaiter (s : State) (w : Waiter) : State :=
  let s : State := { s with waiters := s.waiters.filter (fun x => decide (x ≠ w)) }
  match w.place with
  | .queue t isOut q => (s.pop w.pond t isOut q).batchAll w.pond t
  | .score =>
    let c := s.score w.pond
    ((s.opalAbort w.pond 5).setScore w.pond { c with stall := none, pc := (c.pc + 4) % 2 ^ 32 }).count (.tile w.pond 5) Reg.scoreInstr
      Reg.scoreWrap 0 1

/-- R186: THRESH writes take effect at the start of the cycle. -/
def State.latchThresh (s : State) (g : Nat) : State :=
  (List.range 64).foldl (fun s n =>
    match (s.spring g n).next with
    | some v => s.setSpring g n { s.spring g n with thresh := v, next := none }
    | none => s) s

/-- WAITER_PASS (R187): one spring evaluation of pond g: observers, then consumers oldest first. The WAITS of an
S-core whose RUN is 0 is not evaluated (DEDUCED, log entry 16). -/
def waiterPass (g : Nat) (s : State) : State :=
  let s := s.latchThresh g
  let mine := sortWaiters (s.waiters.filter (fun w => decide (w.pond = g)
    && (decide (w.place ≠ .score) || s.flag (.tile g 5) Reg.scoreCtrlRun)))
  let s := (mine.filter (fun w => w.observe)).foldl (fun s w =>
    let x := s.spring g w.spring
    if x.thresh ≤ x.count then s.passWaiter w else s) s
  let s := (mine.filter (fun w => !w.observe)).foldl (fun s w =>
    let x := s.spring g w.spring
    if x.thresh ≤ x.count then (s.setSpring g w.spring { x with count := x.count - x.thresh }).passWaiter w else s) s
  { s with evals := s.evals.set g 0 (s.evals.get g 0 + 1) }

/-- Replace the bytes of a 32-bit value that a write covers; `b` gives the byte written at i, if any. -/
def mergeBytes (old : Nat) (b : Nat → Option Byte) : Nat :=
  leNat ((List.range 4).map (fun i => (b i).getD (BitVec.ofNat 8 (old / 2 ^ (8 * i)))))

/-- R186: a write of bytes at offset `o` of pond g's spring space. -/
def State.springWrite (s : State) (g o : Nat) (bs : List Byte) : State :=
  let n := o / 16 % 64
  let at_ (i : Nat) : Option Byte := if o % 16 ≤ i then bs[i - o % 16]? else none
  let x := s.spring g n
  let cnt := mergeBytes x.count at_
  let touched := (List.range 4).any (fun i => (at_ (4 + i)).isSome)
  let thr := mergeBytes (x.next.getD x.thresh) (fun i => at_ (4 + i))
  let clr := match at_ 8 with | some b => b.getLsbD 0 | none => false
  s.setSpring g n { x with count := cnt, next := if touched then some thr else x.next, ovf := x.ovf && !clr }

/-- SPRING_WRITE. -/
def springWriteCmd (g o : Nat) (bs : List Byte) (s : State) : State := s.springWrite g o (bs.take (16 - o % 16))

/-! Context (R194, R195). -/

/-- Entries of a table with keys from `lo` on, `n` of them, shifted to start at 0. -/
def Tab.slice {α : Type} (t : Tab α) (lo n : Nat) : Tab α :=
  (t.filter (fun e => decide (lo ≤ e.1) && decide (e.1 < lo + n))).map (fun e => (e.1 - lo, e.2))

/-- Put a slice back at `lo`, replacing what stood there. -/
def Tab.paste {α : Type} (t : Tab α) (lo n : Nat) (x : Tab α) : Tab α :=
  (t.filter (fun e => decide (e.1 < lo))) ++ (x.map (fun e => (e.1 + lo, e.2)))
    ++ (t.filter (fun e => decide (lo + n ≤ e.1)))

/-- Number of register keys of a unit. -/
def unitKeys : Nat := 2 ^ 29

/-- R194: is a key within a pond's tiles one of the MCORE_, VCORE_, SCORE_ or AU_ groups? -/
def ctxKey (k : Nat) : Bool := decide (k / 64 % 2 ^ 23 < 0x400)

/-- R194: the context of wafer pond g. -/
def State.pondCtx (s : State) (g : Nat) : PondCtx :=
  { regs := (s.regs.slice (16 * g * unitKeys) (16 * unitKeys)).filter (fun e => ctxKey e.1)
    queues := s.queues.slice (256 * g) 256
    steers := s.steers.slice (64 * g) 64
    mcores := s.mcores.slice (16 * g) 16
    vcores := s.vcores.slice (16 * g) 16
    score := s.score g
    gens := s.gens.slice (64 * g) 64
    springs := s.springs.slice (64 * g) 64
    waiters := s.waiters.filter (fun w => decide (w.pond = g))
    evals := s.evals.get g 0
    ran := match s.partOf g with
      | some n => ((s.parts.get n Part.none).ran.filter (fun i => decide (i / 16 = g))).map (fun i => i % 16)
      | none => []
    site := g }

/-- R194: a context put into wafer pond g; the arrival tables and sender tables are then empty. -/
def State.putCtx (s : State) (g : Nat) (c : PondCtx) : State :=
  let lo := 16 * g * unitKeys
  let keep := (s.regs.slice lo (16 * unitKeys)).filter (fun e => !ctxKey e.1)
  let regs := c.regs.foldl (fun t e => Tab.ins (Tab.del t e.1) e.1 e.2) keep
  let s : State := { s with
    regs := s.regs.paste lo (16 * unitKeys) regs
    queues := s.queues.paste (256 * g) 256 c.queues
    steers := s.steers.paste (64 * g) 64 c.steers
    mcores := s.mcores.paste (16 * g) 16 c.mcores
    vcores := s.vcores.paste (16 * g) 16 c.vcores
    gens := s.gens.paste (64 * g) 64 c.gens
    springs := s.springs.paste (64 * g) 64 c.springs
    waiters := s.waiters.filter (fun w => decide (w.pond ≠ g)) ++ c.waiters.map (fun w => { w with pond := g })
    evals := s.evals.set g 0 c.evals
    arrivals := s.arrivals.set g [] []
    senders := s.senders.clear (fun k => decide (128 * g ≤ k) && decide (k < 128 * g + 128)) }
  s.setScore g c.score

/-- R195: bytes of a pond's context: 4,096 and 36 for each valid hardware queue entry. -/
def PondCtx.bytes (c : PondCtx) : Nat := 4096 + 36 * (c.queues.map (fun e => e.2.hw.length)).sum

/-- R194, R205: the context of logical pond lp of a partition is saved; a save area in a protected range refuses it (R199, R227), and
one in a sealed range unseals it (R226). What its bytes in the save area are, the spec does not lay out: they are a free value (DESIGN
CHOICE, log entry 18). -/
def State.saveCtx (s : State) (part lp g : Nat) : State :=
  let c := s.pondCtx g
  let a := (s.parts.get part Part.none).saveBase % 2 ^ 48 + 77824 * lp
  let f := a / 2 ^ 37
  let o := a % 2 ^ 37
  if s.dramReadOnly f o c.bytes then s
  else
    let s := (s.dramPut f o (leBytes c.bytes s.freeNat)).drawn
    { s with saved := Tab.ins (Tab.del s.saved (16384 * part + lp)) (16384 * part + lp) c }

/-- The saved context of a logical pond goes into a wafer pond; without one the pond keeps its reset state. -/
def State.loadCtx (s : State) (part lp g : Nat) : State :=
  match (s.saved.find? (fun e => decide (e.1 = 16384 * part + lp))) with
  | some e => s.putCtx g e.2
  | none => s

/-- R194: the ponds a packet is bound for. -/
def Packet.boundFor (p : Packet) (rank : Nat) (sites : List Nat) : Bool :=
  decide (dRank p.dest = rank) && decide (dSpace p.dest ≠ 0) && decide (dSpace p.dest ≠ 8) && decide (dSpace p.dest ≠ 0xC)
    && (decide (p.typ = 6) || sites.contains (dPond p.dest))

/-- R194: the traffic of a partition has drained: nothing outstanding from its units, nothing in flight for its ponds. -/
def State.drained (s : State) (part : Nat) : Bool :=
  let sites := (s.parts.get part Part.none).sites.map (fun x => x.2)
  s.net.outst.all (fun o => srcIsStrip o.src || !sites.contains (srcPond o.src))
    && s.net.flights.all (fun x => !x.pkt.boundFor s.rank sites)

/-- SCAN_OUT (R194, R195): the contexts of a stopped partition whose traffic has drained are saved. -/
def scanOut (part : Nat) (s : State) : State :=
  let p := s.parts.get part Part.none
  if (p.state = 5 ∨ p.state = 6 ∨ p.state = 7) ∧ s.drained part then
    p.sites.foldl (fun s x => s.saveCtx part x.1 x.2) s
  else s

/-- SCAN_IN (R194, R195). -/
def scanIn (part : Nat) (s : State) : State :=
  let p := s.parts.get part Part.none
  if p.state = 5 ∨ p.state = 6 ∨ p.state = 1 then p.sites.foldl (fun s x => s.loadCtx part x.1 x.2) s else s

end Sys2Proof.Machine
end

