-- ==== Sys2Proof/Machine/Route.lean ====
section
/-! DEFINITION. The network's own steps: hops, escape, links, table updates and multicast (R235–R259). -/

namespace Sys2Proof.Machine

/-- Where a packet must arrive. -/
inductive Goal where
  | tile (i : Nat)
  | strip (f : Nat)
  deriving DecidableEq, Repr

/-- R256: the sites of a group's members: pond, position, queue. -/
def State.groupSites (s : State) (n : Nat) : List (Nat × Nat × Nat) :=
  (s.img.groups.get n ⟨0, []⟩).members.filterMap (fun m =>
    ((s.parts.get m.part Part.none).sites.find? (fun x => decide (x.1 = m.lpond))).map (fun x => (x.2, m.pos, m.q)))

/-- R256: the group root. -/
def groupRoot (l : List (Nat × Nat × Nat)) : Nat :=
  16 * (match l with | [] => 0 | e :: r => r.foldl (fun b x => Min.min b x.1) e.1) + 5

/-- R241, R252, R256: where a packet must arrive in the tile array or which strip takes it. -/
def State.goalOf (s : State) (p : Packet) : Goal :=
  let d := p.dest
  if p.typ = 6 then .tile (groupRoot (s.groupSites (d % 256)))
  else if dRank d ≠ s.rank ∨ dSpace d = 8 then .strip (p.egress % 64)
  else if dSpace d = 0 ∨ dSpace d = 0xC then .strip (dField d)
  else .tile (16 * dPond d + ejectTile d)

/-- Same input buffer: place, channel and on escape the class. -/
def sameBuffer (a b : Flight) : Bool :=
  decide (a.place = b.place) && decide (a.pkt.vc = b.pkt.vc)
    && (decide (a.pkt.vc ≠ 3) || decide ((8 ≤ a.pkt.typ) = (8 ≤ b.pkt.typ)))

/-- R236: credit for the buffer beyond port q of router h; strips and ejection always take. -/
def State.credit (s : State) (h q : Nat) (p : Packet) (vc : Nat) : Bool :=
  q = 5 || s.roomAt (neighbour h q) (opposite q) vc p.typ

/-- R249, R347, R349: the lake of router i is asleep or not yet awake (LAKE_CLK_STAT.STATE 1, 2 or 3): its routers have no
clock. -/
def State.lakeAsleep (s : State) (i : Nat) : Bool :=
  let st := s.rd (.lake (lakeOf (i / 16))) Reg.lakeClkStatState
  decide (st = 1) || decide (st = 2) || decide (st = 3)

/-! Overlays (R218). -/

/-- The rectangle holds both ends of the link. -/
def Overlay.holds (o : Overlay) (i q : Nat) : Bool :=
  let inside (r : Nat) : Bool := decide (o.x0 ≤ rX r) && decide (rX r ≤ o.x1) && decide (o.y0 ≤ rY r) && decide (rY r ≤ o.y1)
  inside i && inside (neighbour i q)

/-- R218: closed links of a partition would cut one of its ponds off from another, from a wired destination or from a
host bridge. -/
def State.closedCuts (s : State) (part : Nat) (g : Graph) : Bool :=
  let os := s.img.overlays.filter (fun o => decide (o.part = part) && decide (o.pen = 0))
  let sites := (s.parts.get part Part.none).sites.map (fun x => x.2)
  match sites with
  | [] => false
  | g0 :: _ =>
    let wave' (ok : Nat → Nat → Bool) := wave (fun m => ([0, 1, 2, 3].filter (ok m)).map (fun q => (1, neighbour m q)))
      waveFuel 0 [(0, 16 * g0 + 5)] (Array.replicate numTiles none)
    let opened := wave' g.link
    let shut := wave' (fun m q => g.link m q && !os.any (fun o => o.holds m q))
    let wired := sites.flatMap (fun x => (List.range 16).flatMap (fun t => (List.range 8).filterMap (fun q =>
      if s.rdi (.tile x t) Reg.rtrQdestValid q = 1 ∧ s.rdi (.tile x t) Reg.rtrQdestRank q = s.rank then
        some (16 * (288 * s.rdi (.tile x t) Reg.rtrQdestField q + s.rdi (.tile x t) Reg.rtrQdestPond q)
          + s.rdi (.tile x t) Reg.rtrQdestTile q)
      else none)))
    let cut (i : Nat) : Bool := (opened.getD i none).isSome && (shut.getD i none).isNone
    (sites.map (fun x => 16 * x + 5) ++ wired).any cut
      || [19, 20, 27, 28].any (fun f => (fieldLinks f).any (fun i => (opened.getD i none).isSome)
          && (fieldLinks f).all (fun i => (shut.getD i none).isNone))

/-- R218: the overlay penalty of a link for packets of `src`; none when it is closed. -/
def State.overlayPen (s : State) (src i q : Nat) : Option Nat :=
  match if srcRank src = s.rank then s.srcPart src else none with
  | none => some 0
  | some part =>
    let os := s.img.overlays.filter (fun o => decide (o.part = part) && q < 4 && o.holds i q)
    let pen := Min.min 15 (os.map (fun o => o.pen)).sum
    if os.any (fun o => decide (o.pen = 0)) then
      (if s.closedCuts part s.tableGraph then some 15 else none)
    else some pen

/-! Choosing a hop (R243–R246). -/

/-- The next step of a packet at a router. -/
inductive Hop where
  /-- No path (R254). -/
  | lost
  /-- It wants port q, and may not be sent on it now. -/
  | wait (q : Nat)
  /-- Send on a port, with DOWN after the hop. -/
  | go (q : Nat) (down : Bool)
  deriving DecidableEq, Repr

/-- The port a packet waits for or may be sent on. -/
def Hop.port : Hop → Option Nat
  | .lost => none
  | .wait q => some q
  | .go q _ => some q

/-- The packet may not be sent now. -/
def Hop.hold : Hop → Hop
  | .go q _ => .wait q
  | h => h

/-- R243: d, the least length to a packet's goal over a graph: to a tile, or to the field crossbar of a strip. -/
def Graph.distGoal (g : Graph) : Goal → Nat → Option Nat
  | .tile i => g.distTo [(0, i)]
  | .strip f => g.distTo ((fieldLinks f).map (fun i => (3, i)))

/-- Router h has a field link to the strip a packet must reach. -/
def fieldLinkTo (h : Nat) : Goal → Bool
  | .strip f => decide (tileType (h % 16) = .a) && decide (fieldOf (h / 16) = f)
  | .tile _ => false

/-- R243: the adaptive next hop of a packet on channel 0 or 1 at router h. -/
def State.adaptiveHop (s : State) (h : Nat) (p : Packet) : Hop :=
  let tg := s.tableGraph
  let lg := s.liveGraph
  let goal := s.goalOf p
  let d := tg.distGoal goal
  match d h with
  | none => .lost
  | some dh =>
    let near := ([0, 1, 2, 3].filter (tg.link h)).filterMap (fun q =>
        match d (neighbour h q) with
        | some dm => if dm < dh then some (q, hopLen h q + dm - dh) else none
        | none => none) ++ (if fieldLinkTo h goal then [(5, 3 - dh)] else [])
    let cands := near.filterMap (fun c =>
      if c.1 = 5 ∨ lg.link h c.1 then (s.overlayPen p.src h c.1).map (fun o => (c.1, Min.min 15 (c.2 + o))) else none)
    let depth (q : Nat) : Nat :=
      if q = 5 then 0 else if s.lakeAsleep (neighbour h q) then 4
      else s.occupancy (neighbour h q) (opposite q) p.vc (decide (8 ≤ p.typ))
    match near, cands with
    | [], _ => .lost
    | n :: _, [] => .wait n.1
    | _, c :: r =>
      let best := r.foldl (fun b x =>
        if depth x.1 + x.2 < depth b.1 + b.2 ∨ (depth x.1 + x.2 = depth b.1 + b.2 ∧ x.2 < b.2) then x else b) c
      .go best.1 p.down

/-- R245: the next hop of a packet on channel 2 or 3 at router h. -/
def State.escapeStep (s : State) (h : Nat) (p : Packet) (down : Bool) : Hop :=
  let tg := s.tableGraph
  let toTile (i : Nat) : Hop :=
    match tg.escapeHop h down i with
    | some x => if s.liveGraph.link h x.1 then .go x.1 (down || x.2) else .wait x.1
    | none => .lost
  match s.goalOf p with
  | .tile i => toTile i
  | .strip f =>
    if fieldLinkTo h (.strip f) then .go 5 down
    else match tg.escapeLink h down f with
      | some i => toTile i
      | none => .lost

/-- R253 steps 3–5: no packet is admitted to escape. -/
def State.escapeShut (s : State) : Bool := decide (3 ≤ s.net.update)

/-- The next step of a packet at router h, on the channel it is on. A packet on escape that is still at the local port has
not been admitted to it. -/
def State.hopOf (s : State) (h port : Nat) (p : Packet) : Hop :=
  if p.vc < 2 then s.adaptiveHop h p
  else
    let x := s.escapeStep h p p.down
    if p.vc = 3 ∧ port = 4 ∧ s.escapeShut then x.hold else x

/-- Arrived: a packet at its goal is taken by its destination, not by a hop. -/
def State.atGoal (s : State) (x : Flight) : Bool :=
  match x.place with
  | .router i _ => if x.pkt.typ = 6 then decide (x.pkt.vc = 2 ∨ s.goalOf x.pkt = .tile i) else decide (s.goalOf x.pkt = .tile i)
  | .strip f => decide (dRank x.pkt.dest = s.rank) && decide (s.goalOf x.pkt = .strip f)
  | .port _ => false

/-! Moving (R235, R237, R243). -/

/-- R242, R254: RTR_DISCARD counts. -/
def State.discardAt (s : State) (i : Nat) : State := s.sat (.tile (i / 16) (i % 16)) Reg.rtrDiscard 1

/-- Take a flight out of the network. -/
def State.dropFlight (s : State) (n : Nat) : State :=
  { s with net := { s.net with flights := s.net.flights.eraseIdx n } }

/-- A packet is ejected at the local port of router i: RTR_PKT_OUT. -/
def State.noteEject (s : State) (i : Nat) : State := s.counti (.tile (i / 16) (i % 16)) Reg.rtrPktOut 4 Reg.rtrPwrap 4 1 1

/-- A flight is ejected at the local port of router i. -/
def State.eject (s : State) (n i : Nat) : State := (s.dropFlight n).noteEject i

/-- A head of router i's input port p could not leave in a core cycle: RTR_STALL. -/
def State.noteStall (s : State) (i p : Nat) : State := s.counti (.tile (i / 16) (i % 16)) Reg.rtrStall p Reg.rtrPwrap p 2 1

/-- One byte into the CRC-16 of R235 (polynomial 0x1021), most significant bit first. -/
def crc16Step (c b : Nat) : Nat :=
  (List.range 8).foldl (fun x _ => if x.testBit 15 then ((2 * x) ^^^ 0x1021) % 65536 else 2 * x % 65536) (c ^^^ (b % 256 * 256))

/-- R235: the link CRC of a packet, over its 48 bytes from 0xFFFF. -/
def Packet.linkCrc (p : Packet) : Nat :=
  (leBytes 16 p.header.toNat ++ bvBytes 32 p.payload).foldl (fun c b => crc16Step c b.toNat) 0xFFFF

/-- Key of the link beyond port q of router i. -/
def linkKey (i q : Nat) : Nat := 8 * i + q

/-- R235: the sender keeps its last 8 packets per link. -/
def State.keepSent (s : State) (i q : Nat) (p : Packet) : State :=
  let l := s.net.replay.get (linkKey i q) [] ++ [(p, p.linkCrc)]
  { s with net := { s.net with replay := s.net.replay.set (linkKey i q) [] (l.drop (l.length - 8)) } }

/-- Both ends of a link show it up again after a replay. -/
def State.endReplay (s : State) (i q : Nat) : State :=
  let m := neighbour i q
  let p := opposite q
  let s : State := { s with net := { s.net with links := s.net.links.set (linkKey m p) 0 0 } }
  if s.rdi (.tile (m / 16) (m % 16)) Reg.rtrLinkState p = 1 then
    (s.wri (.tile (m / 16) (m % 16)) Reg.rtrLinkState p 0).wri (.tile (i / 16) (i % 16)) Reg.rtrLinkState q 0
  else s

/-- A packet goes out of router i by port q. A good transfer ends the link's replay (R235). -/
def State.sendOn (s : State) (i q : Nat) (p : Packet) : State :=
  let s := s.counti (.tile (i / 16) (i % 16)) Reg.rtrPktOut q Reg.rtrPwrap q 1 1
  if q = 5 then s.launch p (.strip (fieldOf (i / 16)))
  else (((s.keepSent i q p).endReplay i q)).arrive (neighbour i q) (opposite q) p

/-- The flights at the heads of a router's input buffers that still have to travel: index and flight. -/
def State.heads (s : State) (i : Nat) : List (Nat × Flight) :=
  let fl := s.net.flights
  (fl.zipIdx.filter (fun e =>
    (match e.1.place with | .router j _ => decide (j = i) | _ => false)
      && !(fl.take e.2).any (fun y => sameBuffer y e.1))).map (fun e => (e.2, e.1))

/-- Flight n is the head of its input buffer at router i. -/
def State.isHead (s : State) (i n : Nat) : Bool := (s.heads i).any (fun e => decide (e.1 = n))

/-- Port a flight came in by. -/
def Flight.inPort (x : Flight) : Nat := match x.place with | .router _ q => q | _ => 5

/-! Multicast trees (R255–R259). -/

/-- R255, R256: the tiles an MCAST delivers to, with the queue: pond, position, queue. -/
def State.mcastTargets (s : State) (d : Nat) : List (Nat × Nat × Nat) :=
  if (d / 2 ^ 47).testBit 0 then
    let px0 := d / 2 ^ 33 % 16
    let py0 := d / 2 ^ 28 % 32
    let px1 := d / 2 ^ 24 % 16
    let py1 := d / 2 ^ 19 % 32
    let tm := d / 2 ^ 3 % 65536
    (List.range (py1 + 1 - py0)).flatMap (fun y => (List.range (px1 + 1 - px0)).flatMap (fun x =>
      let g := 288 * dField d + 16 * (py0 + y) + (px0 + x)
      ((List.range 16).filter (fun t => tm.testBit t)).map (fun t => (g, t, d % 8))))
  else s.groupSites (d % 256)

/-- Ponds among targets, each once. -/
def targetPonds (l : List (Nat × Nat × Nat)) : List Nat := (l.map (fun e => e.1)).eraseDups

/-- The routers and ports of the escape path from `i` to `goal`; none when there is no path. -/
def Graph.escapePath (g : Graph) : Nat → Nat → Bool → Nat → Option (List (Nat × Nat))
  | 0, i, _, goal => if i = goal then some [] else none
  | n + 1, i, down, goal =>
    if i = goal then some []
    else match g.escapeHop i down goal with
      | none => none
      | some x => (Graph.escapePath g n (neighbour i x.1) (down || x.2) goal).map (fun l => (i, x.1) :: l)

/-- R255, R256: the router where an MCAST starts to replicate. -/
def State.mcastRoot (s : State) (p : Packet) : Nat :=
  if (p.dest / 2 ^ 47).testBit 0 then 16 * srcPond p.src + srcTileN p.src else groupRoot (s.mcastTargets p.dest)

/-- The tree's path from the root of an MCAST to a target. -/
def State.mcastPath (s : State) (p : Packet) (e : Nat × Nat × Nat) : Option (List (Nat × Nat)) :=
  s.tableGraph.escapePath numTiles (s.mcastRoot p) false (16 * e.1 + e.2.1)

/-- R255–R257: the branches of an MCAST at router i: ports of the tree from its root, 4 for a target tile. -/
def State.mcastBranches (s : State) (i : Nat) (p : Packet) : List Nat :=
  let targets := s.mcastTargets p.dest
  let paths := targets.filterMap (s.mcastPath p)
  (([0, 1, 2, 3].filter (fun q => paths.any (fun l => l.contains (i, q))))
    ++ (if targets.any (fun e => decide (16 * e.1 + e.2.1 = i)) then [4] else []))

/-! One core cycle of an output port (R237). -/

/-- What a packet that wants an output port is: a flight that leaves, a branch of an MCAST at the head of its buffer, or the
copy in the port's hold slot. -/
inductive CandKind where
  | whole
  | branch
  | held
  deriving DecidableEq, Repr

/-- A packet that wants an output port: the flight it is (index), the packet as it would be sent, the cycles it has waited and
the port it came in by. -/
structure Cand where
  kind : CandKind
  n : Nat
  pkt : Packet
  waited : Nat
  inPort : Nat
  deriving DecidableEq, Repr

/-- The output can take the candidate now: the link works, and the buffer beyond has an entry. -/
def State.candAble (s : State) (i q : Nat) (c : Cand) : Bool :=
  (decide (q = 5) || s.liveGraph.link i q) && s.credit i q c.pkt c.pkt.vc

/-- R245: a copy of an MCAST as it leaves router i by port q. -/
def State.copyOn (s : State) (i q : Nat) (p : Packet) : Packet :=
  p.put 110 1 (p.down || !isUp s.tableGraph.levels i (neighbour i q)).toNat

/-- R257: the copy held for port q of router i. -/
def State.heldAt (s : State) (i q : Nat) : Option HoldSlot :=
  s.net.holds.find? (fun h => decide (h.tile = i) && decide (h.port = q))

/-- R244: flight x of router i enters the escape channel by port q. -/
def State.escaping (s : State) (i q n : Nat) (x : Flight) : Option Cand :=
  match s.escapeStep i x.pkt false with
  | .go q' dn =>
    if q' = q then some ⟨.whole, n, (x.pkt.put 4 2 3).put 110 1 dn.toNat, x.waited, x.inPort⟩ else none
  | _ => none

/-- What flight x of router i, at the head of its buffer, would send by port q. -/
def State.candOf (s : State) (i q : Nat) (e : Nat × Flight) : Option Cand :=
  let x := e.2
  if x.pkt.typ = 6 ∧ x.pkt.vc = 2 then
    (if q < 4 ∧ ¬ x.done.testBit q ∧ (s.mcastBranches i x.pkt).contains q then
      some ⟨.branch, e.1, s.copyOn i q x.pkt, x.waited, x.inPort⟩
    else none)
  else if s.atGoal x then none
  else match s.hopOf i x.inPort x.pkt with
    | .go q' dn =>
      if q' = q then some ⟨.whole, e.1, if x.pkt.vc < 2 then x.pkt else x.pkt.put 110 1 dn.toNat, x.waited, x.inPort⟩ else none
    | _ => none

/-- R237: rank of a channel at output port q of router i: escape responses, escape requests, then channels 0–2 round-robin. -/
def State.chanRank (s : State) (i q : Nat) (p : Packet) : Nat :=
  match p.vc with
  | 3 => if 8 ≤ p.typ then 0 else 1
  | v => 2 + (v + 2 - s.net.vcLast.get (linkKey i q) 2) % 3

/-- R237: candidate a is served before b. -/
def State.better (s : State) (i q : Nat) (a b : Cand) : Bool :=
  let ra := s.chanRank i q a.pkt
  let rb := s.chanRank i q b.pkt
  decide (ra < rb) || (decide (ra = rb) &&
    ((decide (a.kind = .held) && decide (b.kind ≠ .held)) || ((decide (a.kind = .held) == decide (b.kind = .held)) &&
      (decide (b.waited < a.waited) || (decide (b.waited = a.waited) && decide (a.inPort < b.inPort))))))

/-- The candidate served first. -/
def State.best (s : State) (i q : Nat) : List Cand → Option Cand
  | [] => none
  | a :: r => some (r.foldl (fun b x => if s.better i q x b then x else b) a)

/-- The place of a candidate's flight takes note that its part for port q is served: a branch is done, a whole flight is gone. -/
def State.served (s : State) (q : Nat) (c : Cand) : State :=
  match c.kind with
  | .whole => s.dropFlight c.n
  | .branch =>
    match s.net.flights[c.n]? with
    | some x => { s with net := { s.net with flights := s.net.flights.set c.n { x with done := x.done + 2 ^ q } } }
    | none => s
  | .held => s

/-- R237: the winner of port q of router i is sent. -/
def State.sendCand (s : State) (i q : Nat) (c : Cand) : State :=
  let s : State := if c.pkt.vc < 3 then
      { s with net := { s.net with vcLast := s.net.vcLast.set (linkKey i q) 2 c.pkt.vc } } else s
  let s : State := match c.kind with
    | .held => { s with net := { s.net with holds := s.net.holds.filter (fun h => !(decide (h.tile = i) && decide (h.port = q))) } }
    | _ => s.served q c
  s.sendOn i q c.pkt

/-- A candidate whose flight may have moved up because flight `gone` left. -/
def Cand.after (c gone : Cand) : Cand := if gone.kind = .whole ∧ gone.n < c.n then { c with n := c.n - 1 } else c

/-- R257: a channel-2 candidate is copied into the port's hold slot. -/
def State.park (s : State) (i q : Nat) (c : Cand) : State :=
  ({ s with net := { s.net with holds := s.net.holds ++ [⟨i, q, c.pkt⟩] } } : State).served q c

/-- Flight x, still to travel as a whole, wants output port q of router i. -/
def State.wants (s : State) (i q : Nat) (x : Flight) : Bool :=
  (match x.place with | .router j _ => decide (j = i) | _ => false)
    && !s.atGoal x && decide ((s.hopOf i x.inPort x.pkt).port = some q)

/-- The flights of router i that want output port q wait one core cycle more, but for those in `gone`; heads count RTR_STALL. -/
def State.waitOn (s : State) (i q : Nat) (gone : List Nat) : State :=
  let late := (s.net.flights.zipIdx.filter (fun e => s.wants i q e.1 && !gone.contains e.2)).map (fun e => e.2)
  let s := ((s.heads i).filter (fun e => late.contains e.1)).foldl (fun s e => s.noteStall i e.2.inPort) s
  { s with net := { s.net with flights := s.net.flights.zipIdx.map (fun e =>
    if late.contains e.2 then { e.1 with waited := e.1.waited + 1 } else e.1) } }

/-- R237, R244, R257: one core cycle of output port q of router i, with a flight `esc` that asks to enter escape: the packet that
wins it is sent, a channel-2 head that lost parks in the hold slot if that was empty, the others wait. -/
def State.portCycle (s : State) (i q : Nat) (esc : Option Nat) : State :=
  if s.lakeAsleep i then s
  else
    let entering := ((esc.bind (fun n => (s.net.flights[n]?).bind (s.escaping i q n))).filter (fun c => s.credit i q c.pkt 3)).toList
    let heads := ((s.heads i).filter (fun e => !entering.any (fun c => decide (c.n = e.1)))).filterMap (s.candOf i q)
    let held := ((s.heldAt i q).map (fun h => (⟨.held, 0, h.pkt, 0, 4⟩ : Cand))).toList
    -- a held copy goes before any other channel-2 packet
    let able := (entering ++ held ++ heads).filter (fun c =>
      s.candAble i q c && (decide (c.kind = .held) || decide (c.pkt.vc ≠ 2) || held.isEmpty))
    let win := s.best i q able
    let lost := heads.filter (fun c => decide (c.pkt.vc = 2) && decide (win ≠ some c))
    let parks := if held.isEmpty then s.best i q lost else none
    let s := s.waitOn i q ((win.toList.filter (fun c => decide (c.kind ≠ .held)) ++ parks.toList).map (fun c => c.n))
    let s := match win with
      | none => s
      | some c =>
        let s := s.sendCand i q c
        if entering.contains c then s.counti (.tile (i / 16) (i % 16)) Reg.rtrEscEnter 0 Reg.rtrGwrap 0 2 1 else s
    match parks with
    | none => s
    | some c => s.park i q (match win with | some w => c.after w | none => c)

/-- R254: a NACK of router i for a request it finds unreachable, with its REFUSED record. -/
def State.nackRouter (s : State) (i : Nat) (p : Packet) : State :=
  let g := i / 16
  let t := i % 16
  let s := s.recTile g t 28 0x0A 9 (refusedDetail p.dest 2)
  (s.count (.tile g t) Reg.rtrNack Reg.rtrGwrap 1 1).respond (srcTile s.rank g t 0) p.src 0xA 0 p.tag p.ordered
    (nackPayload 2 p.dest)

/-- Router i's local port has an entry for a response. -/
def State.answerRoom (s : State) (i : Nat) (ordered : Bool) : Bool := s.roomAt i 4 (startVc 8 ordered) 8

/-- R254: router i finds the destination of its head x (flight n) unreachable: one NACK for a request, one for each target pond
of an MCAST (R259); a response is discarded and counted, a REDUCE discarded and reported. -/
def State.unreachable (s : State) (n i : Nat) (x : Flight) : State :=
  if x.pkt.typ = 5 then (s.dropFlight n).recTile (i / 16) (i % 16) 28 0x11 9 (x.pkt.tag + 2 ^ 11)
  else if 8 ≤ x.pkt.typ then (s.dropFlight n).discardAt i
  else if !s.answerRoom i x.pkt.ordered then s.noteStall i x.inPort
  else if x.pkt.typ = 6 then
    (targetPonds (s.mcastTargets x.pkt.dest)).foldl (fun s _ => s.nackRouter i x.pkt) (s.dropFlight n)
  else (s.dropFlight n).nackRouter i x.pkt

/-- R237, R243: one core cycle of output port q of router i. An unreachable head is handled first (R254). -/
def State.hopPort (s : State) (i q : Nat) : State :=
  if s.lakeAsleep i then s
  else
    match (s.heads i).find? (fun e => !s.atGoal e.2 && decide (s.hopOf i e.2.inPort e.2.pkt = .lost)) with
    | some e => s.unreachable e.1 i e.2
    | none => s.portCycle i q none

/-- R282, R285: a relay's port to the rank of `dest`: one of its own; it never relays again. -/
def State.directEgress (s : State) (src dest : Nat) : Option Nat :=
  if s.net.egress.get (dRank dest) [] = [] then none else s.egressOf src dest

/-- R283, R285, R286: a packet whose port has gone leaves field f's strip again, ordered, by the port of the table in force, one
that is relayed by a port of this module; with none, a request is answered PEER_UNREACHABLE and a response is discarded. -/
def State.resend (s : State) (f : Nat) (p : Packet) : State :=
  match if srcRank p.src = s.rank then s.egressOf p.src p.dest else s.directEgress p.src p.dest with
  | some e =>
    let q := ((p.put 4 2 3).put 6 1 1).put 112 8 e
    { s with net := { s.net with flights := s.net.flights ++ [(⟨q, .strip f, 0, 0⟩ : Flight)] } }
  | none =>
    if 8 ≤ p.typ then s
    else if p.typ = 5 then s.reduceLost f (32 + p.egress / 64) p
    else s.respond (srcStrip s.rank f (32 + p.egress / 64)) p.src 0xA 0 p.tag p.ordered (nackPayload 14 p.dest)

/-- R254: no field link of field f reaches a packet's destination: a request is answered UNIT_ABSENT, a response discarded, a
REDUCE discarded and reported. -/
def State.lostStrip (s : State) (f n : Nat) (p : Packet) : State :=
  let s := s.dropFlight n
  let me := if srcIsStrip p.src ∧ srcRank p.src = s.rank then srcUnit p.src else 36
  if 8 ≤ p.typ then s
  else if p.typ = 5 then s.recStrip f me 0x11 9 0xFF (p.tag + 2 ^ 11)
  else (s.recStrip f me 0x0A 9 0xFF (refusedDetail p.dest 2)).respond (srcStrip s.rank f me) p.src 0xA 0 p.tag p.ordered
    (nackPayload 2 p.dest)

/-- R251: the field-link router by which a packet leaves field f's strip: nearest the destination among those whose field link
has credit, or for an ordered packet among all, whose link must have it. -/
def State.stripLink (s : State) (f : Nat) (p : Packet) : Option Nat :=
  let tg := s.tableGraph
  let d := tg.distGoal (s.goalOf p)
  let room (i : Nat) : Bool := s.roomAt i 5 p.vc p.typ
  let links := (fieldLinks f).filter (fun i => tg.up i && (p.ordered || room i))
  let best := (links.filterMap (fun i => (d i).map (fun l => (l, i)))).foldl (fun b x =>
    match b with
    | none => some x
    | some y => if x.1 < y.1 ∨ (x.1 = y.1 ∧ rOrder x.2 < rOrder y.2) then some x else b) none
  (best.map (fun b => b.2)).filter room

/-- R251–R254: what the crossbar of field f does with flight n of its strip that must leave it: to the optical port of EGRESS
(R252), or to a field-link router; none while it waits. An ordered packet is not admitted to escape while that is shut. -/
def State.leaveStrip (s : State) (f n : Nat) (p : Packet) : Option State :=
  if dRank p.dest ≠ s.rank ∧ p.egress % 64 = f then
    -- R283: packets for a held peer wait in the network
    if s.net.egressHold.contains (dRank p.dest) then none
    else
      let st := s.rdi (.opt f) Reg.optPstatState (p.egress / 64)
      let s := s.dropFlight n
      some (if st ≠ 3 ∧ st ≠ 4 then s.resend f p else s.launch p (.port (4 * f + p.egress / 64)))
  else if (s.tableGraph.distGoal (s.goalOf p)) |> fun d => (fieldLinks f).all (fun i => (d i).isNone) then
    some (s.lostStrip f n p)
  else if p.vc = 3 ∧ s.escapeShut then none
  else (s.stripLink f p).map (fun i => (s.dropFlight n).arrive i 5 p)

/-- R251, R252: the crossbar of field f passes its oldest packet that can leave the strip; an ordered packet waits for the
earlier ordered packets of its sender and class. -/
def State.hopStrip (s : State) (f : Nat) : State :=
  let here := s.net.flights.zipIdx.filter (fun e => decide (e.1.place = .strip f) && !s.atGoal e.1)
  let blocked (e : Flight × Nat) : Bool := here.any (fun y => decide (y.2 < e.2) && y.1.pkt.ordered && e.1.pkt.ordered
    && decide (y.1.pkt.src = e.1.pkt.src) && (decide (8 ≤ y.1.pkt.typ) == decide (8 ≤ e.1.pkt.typ)))
  (here.findSome? (fun e => if blocked e then none else s.leaveStrip f e.2 e.1.pkt)).getD s

/-- Where a hop is made: at an output port of a router or in a field's crossbar. -/
def State.packetHop (s : State) (at_ : HopAt) : State :=
  match at_ with
  | .out i q => s.hopPort i.val q.val
  | .strip f => s.hopStrip f.val

/-- R244: a packet that has waited ESC_WAIT cycles asks for the escape channel at its escape next hop, in a core cycle of that
port; it enters when that has credit and admission is not stopped. -/
def State.escapeEntry (s : State) (n : Nat) : State :=
  match s.net.flights[n]? with
  | none => s
  | some x =>
    match x.place with
    | .router i _ =>
      if x.pkt.vc < 2 ∧ ¬ x.pkt.ordered ∧ ¬ s.atGoal x ∧ ¬ s.escapeShut
          ∧ s.rd (.tile (i / 16) (i % 16)) Reg.rtrCfgEscWait ≤ x.waited ∧ s.isHead i n then
        match s.escapeStep i x.pkt false with
        | .go q _ => s.portCycle i q (some n)
        | _ => s
      else s
    | _ => s

/-! Links and table updates (R235, R253). -/

/-- R235: the newest packet at router i's port q is discarded for its link CRC, and, while replays go on, comes again from the
sender's replay buffer. -/
def State.replayLast (s : State) (i q : Nat) (again : Bool) : State :=
  match (s.net.replay.get (linkKey (neighbour i q) (opposite q)) []).getLast? with
  | none => s
  | some (p, _) =>
    match (s.net.flights.zipIdx.filter (fun e => decide (e.1.place = .router i q))).getLast? with
    | none => s
    | some (x, n) =>
      if x.pkt ≠ p then s
      else
        let s := s.dropFlight n
        if again then { s with net := { s.net with flights := s.net.flights ++ [(⟨p, .router i q, 0, 0⟩ : Flight)] } } else s

/-- R235: router i finds a bad link CRC on port q: the packet is discarded and replayed; after 8 failed replays both routers
mark the link failed, LINK_FAIL is logged and both ends enter the overlay. -/
def State.linkCrcError (s : State) (i q : Nat) : State :=
  let u := UnitId.tile (i / 16) (i % 16)
  let m := neighbour i q
  let um := UnitId.tile (m / 16) (m % 16)
  if s.rdi u Reg.rtrLinkState q = 2 ∨ ¬ s.liveGraph.link i q then s
  else
    let s := s.sati u Reg.rtrCrcErr q 1
    let n := s.net.links.get (linkKey i q) 0 + 1
    let s : State := { s with net := { s.net with links := s.net.links.set (linkKey i q) 0 n } }
    let s := s.replayLast i q (decide (n ≤ 8))
    if n ≤ 8 then (s.wri u Reg.rtrLinkState q 1).wri um Reg.rtrLinkState (opposite q) 1
    else
      let s := (s.wri u Reg.rtrLinkState q 2).wri um Reg.rtrLinkState (opposite q) 2
      let s := (s.attribute (i / 16)).attribute (m / 16)
      let mark (t : Tab Nat) (j p : Nat) : Tab Nat := t.set j 0 (t.get j 0 ||| 2 ^ (2 + p))
      let s := s.overlayBatch { s.overlay with tile := mark (mark s.overlay.tile i q) m (opposite q) }
      s.recTile (i / 16) (i % 16) (28 + q) 0x0E 9 q

/-- R253: the next step of a table update. `late`: step 3 is 100 µs old. -/
def State.tableUpdate (s : State) (late : Bool) : State :=
  let next := s.nextGraph
  let setU (s : State) (n : Nat) : State := { s with net := { s.net with update := n } }
  match s.net.update with
  | 0 => if next = s.tableGraph then s else setU s 1
  | 1 => setU s 2
  | 2 =>
    -- holes reported from now on start a new update
    { s with net := { s.net with newTile := next.word, newPonds := next.ponds, newLakes := next.lakes, update := 3 } }
  | 3 =>
    let esc := s.net.flights.zipIdx.filter (fun e => decide (e.1.pkt.vc = 3) &&
      (match e.1.place with | .router _ q => decide (q ≠ 4) | _ => false))
    if esc = [] then setU s 4
    else if late then
      -- escape packets whose next hop is the hole are handled as unreachable
      let stuck := esc.filter (fun e => match e.1.place with
        | .router i _ => !s.atGoal e.1 && (match s.escapeStep i e.1.pkt e.1.pkt.down with | .wait _ => true | _ => false)
        | _ => false)
      let s := stuck.reverse.foldl (fun s e => match e.1.place with
        | .router i _ => s.unreachable e.2 i e.1
        | _ => s) s
      setU s 4
    else s
  | 4 => { s with net := { s.net with
      tabTile := s.net.newTile
      tabPonds := s.net.newPonds
      tabLakes := s.net.newLakes
      epoch := s.net.epoch + 1
      again := decide (next ≠ s.updateGraph)
      update := 5 } }
  | _ => setU s (if next = s.tableGraph then 0 else 1)

/-! Multicast (R255–R259). -/

/-- R255, R256, R259: the tile's network interface sends an MCAST, unless its port has no room for it. -/
def State.mcastIssue (s : State) (g t dest : Nat) (e : Entry) : State :=
  let src := srcTile s.rank g t 0
  let d := dest % 2 ^ 48 + 0xF * 2 ^ 48 + s.rank * 2 ^ 52
  let targets := s.mcastTargets d
  let mask := (d / 2 ^ 47).testBit 0
  let tag := s.freeTag src
  let k := addrKind 6 d
  if !s.roomAt (16 * g + t) 4 (if mask then 2 else 0) 6 then s
  else if k ≠ 0 ∨ (¬ mask ∧ s.groupSites (d % 256) = []) then s.refuseLocal src tag d 1 6 .spost
  else
    let s := s.await ⟨src, tag, d, .spost, (targetPonds targets).length, 6, false⟩
    let p := mkPacket 6 false false false 31 tag src d 0 e
    s.launch (if mask then p.put 4 2 2 else p) (.router (16 * g + t) 4)

/-- R259: the answer of a target pond, from router i. -/
def State.mcastAnswer (s : State) (i : Nat) (p : Packet) (kind : Nat) : State :=
  let me := srcTile s.rank (i / 16) (i % 16) 0
  if kind = 0 then s.respond me p.src 9 1 p.tag false 1
  else (s.recTile (i / 16) (i % 16) 28 0x0A 9 (refusedDetail p.dest kind)).respond me p.src 0xA 0 p.tag false
    (nackPayload kind p.dest)

/-- R259: target tile t of pond g has taken the entry (`ok`) or is absent or refused it; the pond answers when every
target tile has. -/
def State.mcastTook (s : State) (g t : Nat) (p : Packet) (ok : Bool) : State :=
  let isMine (x : McDeliver) : Bool := decide (x.pond = g) && decide (x.pkt.src = p.src) && decide (x.pkt.tag = p.tag)
  let x : McDeliver := (s.net.mcast.find? isMine).getD
    ⟨g, p, ((s.mcastTargets p.dest).filter (fun e => decide (e.1 = g))).map (fun e => e.2.1), false⟩
  let x : McDeliver := { x with left := x.left.filter (fun y => decide (y ≠ t)), bad := x.bad || !ok }
  let rest := s.net.mcast.filter (fun y => !isMine y)
  if x.left = [] then
    ({ s with net := { s.net with mcast := rest } } : State).mcastAnswer (16 * g + 5) p
      (if !x.bad then 0 else if s.absent (queueDest s.rank g t 0 false) then 2 else 4)
  else { s with net := { s.net with mcast := rest ++ [x] } }

/-- R254, R259: at the root, the targets that the tree does not reach: a pond none of whose target tiles it reaches is answered
by the root; elsewhere the pond's answer will be negative. -/
def State.mcastLost (s : State) (i : Nat) (p : Packet) : State :=
  let targets := s.mcastTargets p.dest
  let off := targets.filter (fun e => (s.mcastPath p e).isNone)
  (targetPonds off).foldl (fun s g =>
    let mine := off.filter (fun e => decide (e.1 = g))
    if (targets.filter (fun e => decide (e.1 = g))).all (fun e => off.contains e) then
      (s.count (.tile (i / 16) (i % 16)) Reg.rtrNack Reg.rtrGwrap 1 1).mcastAnswer i p 2
    else mine.foldl (fun s e => s.mcastTook g e.2.1 p false) s) s

/-- R258: the target tile takes the entry; none while its queue refuses, or its pond's router has no room for the answer. -/
def State.mcastDeliver (s : State) (g t : Nat) (p : Packet) : Option State :=
  let d := p.dest
  let qs := (s.mcastTargets d).filter (fun e => decide (e.1 = g) && decide (e.2.1 = t))
  let tok := (d / 2 ^ 43).testBit 0
  if !s.answerRoom (16 * g + 5) false then none
  else if s.resetting g t then some ((s.counti (.pond g) Reg.pondRstAbsorb 0 Reg.pondRstWrap 0 0 1).mcastTook g t p false)
  else if s.absent (queueDest s.rank g t 0 false) || tileType t = .a || !s.granted p.src g 2 then
    some (s.mcastTook g t p false)
  else
    let go := qs.foldl (fun o e => match o with
      | none => none
      | some s' => State.push s' g t false e.2.2 ⟨tok, p.payload⟩) (some s)
    go.map (fun s => ((s.opalAbort g t).batchAll g t).mcastTook g t p true)

/-- The MCAST at the head of channel 2 of router i's input port p, with its index. -/
def State.mcastHead (s : State) (i p : Nat) : Option (Nat × Flight) :=
  (s.heads i).find? (fun e => decide (e.2.inPort = p) && decide (e.2.pkt.vc = 2) && decide (e.2.pkt.typ = 6))

/-- R257, R258: one core cycle of the local output of router i for the MCAST at the head of input port p: the copy in the hold
slot goes first; then the tile takes the entry, or it is copied into the empty slot. -/
def State.mcastLocal (s : State) (i p : Nat) : State :=
  let s := match s.heldAt i 4 with
    | none => s
    | some h =>
      match s.mcastDeliver (i / 16) (i % 16) h.pkt with
      | none => s
      | some s' => { s'.noteEject i with net := { (s'.noteEject i).net with
          holds := (s'.noteEject i).net.holds.filter (fun h => !(decide (h.tile = i) && decide (h.port = 4))) } }
  match s.mcastHead i p with
  | none => s
  | some (n, x) =>
    if x.done.testBit 4 ∨ ¬ (s.mcastBranches i x.pkt).contains 4 then s
    else
      let c : Cand := ⟨.branch, n, x.pkt, x.waited, p⟩
      if (s.heldAt i 4).isSome then s
      else match s.mcastDeliver (i / 16) (i % 16) x.pkt with
        | some s' => (s'.served 4 c).noteEject i
        | none => s.park i 4 c

/-- R256, R257: one core cycle of an MCAST at the head of its buffer: at the group root it moves to channel 2; then each branch
is sent, delivered or copied into the output's empty hold slot, and the packet leaves its buffer when none is left. -/
def State.mcastServe (s : State) (n : Nat) : State :=
  match s.net.flights[n]? with
  | none => s
  | some x =>
    match x.place with
    | .router i p =>
      if x.pkt.typ ≠ 6 ∨ ¬ s.atGoal x ∨ ¬ s.isHead i n ∨ s.lakeAsleep i = true then s
      else if x.pkt.malformed then (s.eject n i).discardTile (i / 16) (i % 16) 0x0F x.pkt
      else if x.pkt.vc ≠ 2 then
        (if s.roomAt i p 2 6 then
          ({ s with net := { s.net with flights := s.net.flights.set n { x with pkt := x.pkt.put 4 2 2 } } } : State).noteDepth i p
            (x.pkt.put 4 2 2)
        else s.noteStall i p)
      else
        -- R254: the root answers for what the tree does not reach, once (bit 6 of `done`)
        let fresh : Bool := decide (i = s.mcastRoot x.pkt) && !x.done.testBit 6
        let s : State := if fresh then
            ({ s with net := { s.net with flights := s.net.flights.set n { x with done := x.done + 2 ^ 6 } } } : State).mcastLost i x.pkt
          else s
        let bs := s.mcastBranches i x.pkt
        -- R242: no target and no branch here
        if bs = [] ∧ i ≠ s.mcastRoot x.pkt then (s.eject n i).discardTile (i / 16) (i % 16) 0x10 x.pkt
        else
          let s := (bs.filter (fun q => decide (q < 4) && !x.done.testBit q)).foldl (fun s q => s.portCycle i q none) s
          let s := if bs.contains 4 then s.mcastLocal i p else s
          match s.mcastHead i p with
          | none => s
          | some (m, y) =>
            if bs.all (fun q => y.done.testBit q) then s.dropFlight m
            else
              let s := s.noteStall i p
              { s with net := { s.net with flights := s.net.flights.set m { y with waited := y.waited + 1 } } }
    | _ => s

/-- What a command does to an MCAST. -/
def State.mcast (s : State) (a : McastAct) : State :=
  match a with
  | .issue g t dest e => s.mcastIssue g.val t.val dest.toNat e
  | .serve n => s.mcastServe n

/-- R257: the copy in the hold slot of port q of router i, held `dt` core cycles, takes part in the next cycle of its output. -/
def State.holdSlotSend (s : State) (i q dt : Nat) : State :=
  match s.heldAt i q with
  | none => s
  | some _ =>
    let s := s.counti (.tile (i / 16) (i % 16)) Reg.rtrMcHold q Reg.rtrPwrap q 3 dt
    if s.lakeAsleep i then s else if q = 4 then s.mcastLocal i 6 else s.portCycle i q none

end Sys2Proof.Machine
end

