-- ==== Sys2Proof/Machine/Vector.lean ====
section
/-! DEFINITION. The vector cores (R108–R118, R126) and tokens at a core's queue head (R177). -/

namespace Sys2Proof.Machine

/-- One lane's element: its 32-bit value and predicate bits P0–P3 (R112). -/
structure Lane where
  v : Nat
  p : Nat
  deriving DecidableEq, Repr

/-- One stage word (R126), read from the active set. -/
structure Stage where
  op : Nat
  fmt : Nat
  srcA : Nat
  srcB : Nat
  srcC : Nat
  cidx : Nat
  num : Bool
  sub : Nat
  psel : Nat
  guard_ : Nat
  deriving DecidableEq, Repr

/-- Stage n of set k of a V-core. -/
def State.stage (s : State) (g t k n : Nat) : Stage :=
  let u : UnitId := .tile g t
  let i := 6 * k + n
  ⟨s.rdi u Reg.vcoreStageOp i, s.rdi u Reg.vcoreStageFmt i, s.rdi u Reg.vcoreStageSrcA i,
    s.rdi u Reg.vcoreStageSrcB i, s.rdi u Reg.vcoreStageSrcC i, s.rdi u Reg.vcoreStageCidx i,
    decide (s.rdi u Reg.vcoreStageNum i = 1), s.rdi u Reg.vcoreStageSub i, s.rdi u Reg.vcoreStagePsel i,
    s.rdi u Reg.vcoreStageGuard i⟩

/-- The operations that read b, and those that read c (R111). -/
def opReadsB (op : Nat) : Bool :=
  [1, 2, 3, 4, 5, 6, 9, 10, 0xD, 0xE, 0xF, 0x10, 0x11, 0x12, 0x13, 0x14, 0x19].contains op
/-- FMA alone reads c. -/
def opReadsC (op : Nat) : Bool := decide (op = 4)

/-- Does the stage read operand source code `c`? -/
def Stage.reads (x : Stage) (c : Nat) : Bool :=
  decide (x.srcA = c) || (opReadsB x.op && decide (x.srcB = c)) || (opReadsC x.op && decide (x.srcC = c))

/-- R115: a configuration set is refused. -/
def setRefused (st : List Stage) : Bool :=
  let cnt (p : Stage → Bool) : Nat := (st.filter p).length
  let after : List Stage := (st.dropWhile (fun x => decide (x.op ≠ 0x16))).drop 1
  ((st.head?.map (fun x => x.reads 0)).getD false)
    || decide (1 < cnt (fun x => decide (x.op = 0x15 ∨ x.op = 0x16 ∨ x.op = 0x17)))
    || after.any (fun x => decide (x.op ≠ 0))
    || decide (2 < cnt (fun x => decide (x.op = 0xB)))
    || decide (1 < cnt (fun x => decide (x.op = 0x18 ∨ x.op = 0x19)))
    || st.any (fun x => decide (0x19 < x.op) || decide (5 < x.srcA) || decide (5 < x.srcB) || decide (5 < x.srcC)
        || decide (x.guard_ = 3) || (decide (x.op = 0x14) && decide (5 < x.sub)))

/-- The number format of a stage FMT code 0–2. -/
def stageFmt (c : Nat) : NFmt := .ofCode c

/-- A float result rounded once to the stage's format and held as the F32 of that value (R71, R108). -/
def holdF (fmt : Nat) (x : Num) : Nat :=
  let f := stageFmt fmt
  NFmt.f32.rnd (f.decode (f.rnd x))

/-- 32-bit two's-complement value. -/
def sgn32 (v : Nat) : Int := (BitVec.ofNat 32 v).toInt
/-- Low 32 bits of an integer. -/
def low32 (v : Int) : Nat := (BitVec.ofInt 32 v).toNat

/-- R80: a compare relation on floats. -/
def relF (sub : Nat) (a b : Num) : Bool :=
  match sub with
  | 0 => Num.eq a b
  | 1 => !Num.eq a b
  | 2 => Num.lt a b
  | 3 => Num.le a b
  | 4 => Num.lt b a
  | 5 => Num.le b a
  | 6 => a.isNan || b.isNan
  | _ => !(a.isNan || b.isNan)

/-- A compare relation on signed integers. -/
def relI (sub : Nat) (a b : Int) : Bool :=
  match sub with
  | 0 => decide (a = b)
  | 1 => decide (a ≠ b)
  | 2 => decide (a < b)
  | 3 => decide (a ≤ b)
  | 4 => decide (b < a)
  | 5 => decide (b ≤ a)
  | 6 => false
  | _ => true

/-- R111 CVT SUB 0: toward zero, saturating, NaN to 0. -/
def cvtToInt (x : Num) : Nat :=
  match x with
  | .nan _ _ => 0
  | .bad => 0
  | .inf neg => if neg then 0x80000000 else 0x7FFFFFFF
  | .fin neg m e =>
    let n := if 0 ≤ e then m * 2 ^ e.toNat else m / 2 ^ (-e).toNat
    if neg then (if 0x80000000 ≤ n then 0x80000000 else low32 (-(n : Int)))
    else min n 0x7FFFFFFF

/-- R111 CVT SUB 1: I32 to F32, nearest even. -/
def cvtToFloat (v : Nat) : Nat :=
  let i := sgn32 v
  NFmt.f32.rnd (.fin (decide (i < 0)) i.natAbs 0)

/-- R111, R113: combine two values by reduction kind (0 sum, 1 max, 2 min, 3 AND, 4 OR). Kinds 5–7 have no meaning: a free value
(DESIGN CHOICE, log entry 26). -/
def reduce2 (fmt sub : Nat) (num : Bool) (a b : Nat) : Nat :=
  match sub with
  | 0 => if fmt = 3 then low32 (sgn32 a + sgn32 b) else holdF fmt (numSum [NFmt.f32.decode a, NFmt.f32.decode b])
  | 1 => if fmt = 3 then (if sgn32 a < sgn32 b then b else a)
      else holdF fmt (Num.max num (NFmt.f32.decode a) (NFmt.f32.decode b))
  | 2 => if fmt = 3 then (if sgn32 b < sgn32 a then b else a)
      else holdF fmt (Num.min num (NFmt.f32.decode a) (NFmt.f32.decode b))
  | 3 => a &&& b
  | 4 => a ||| b
  | _ => Config.openStage 0x15 sub fmt a b % 2 ^ 32

/-- R112, R113: two places of the tree combine; a lane on which the stage does not act takes no part (DESIGN CHOICE, log entry 26). -/
def joinLanes (f : Nat → Nat → Nat) : Option Nat → Option Nat → Option Nat
  | some a, some b => some (f a b)
  | some a, none => some a
  | none, b => b

/-- One level of the fixed tree of R113: neighbours pair up. -/
def treeLevel (f : Nat → Nat → Nat) : List (Option Nat) → List (Option Nat)
  | a :: b :: r => joinLanes f a b :: treeLevel f r
  | l => l

/-- R113: four levels; none when the stage acts on no lane. -/
def treeReduce (f : Nat → Nat → Nat) (l : List (Option Nat)) : Option Nat :=
  ((treeLevel f (treeLevel f (treeLevel f (treeLevel f l)))).head?).join

/-- A negation that keeps the sign of a NaN, as NEG does (R72; DEDUCED, log entry 26). -/
def Num.negateQ (x : Num) : Num := if x.isNan then x.quiet else x.negate

/-- What a function table gives for an input (R114): a value from its header, or segment n evaluated at t (an F32), negated for an
odd function's negative input. -/
inductive FuncSel where
  | value (v : Num)
  | seg (n t : Nat) (odd : Bool)
  deriving DecidableEq, Repr

/-- R114: which segment, and t, the table takes for x; `rdT o` reads the F32 (or byte word) of the table at byte offset o. A table
whose MODE, SIGN or OOD byte has no meaning gives no value, so every input is invalid (R73; DEDUCED, log entry 26). An
exponent-mode table that clamps puts a negative input into segment 0 with a free t (DESIGN CHOICE, log entry 26). -/
def funcSelect (rdT : Nat → Nat) (x : Nat) : FuncSel :=
  let v := NFmt.f32.decode x
  let hdr := rdT 0
  let mode := hdr % 256
  let sign := hdr / 256 % 256
  let ood := hdr / 65536 % 256
  match v with
  | .nan _ _ => .value v.quiet
  | .bad => .value .canon
  | .inf neg => .value (if 1 < mode ∨ 2 < sign ∨ 1 < ood then .bad else NFmt.f32.decode (rdT (if neg then 20 else 16)))
  | .fin neg m _ =>
    if 1 < mode ∨ 2 < sign ∨ 1 < ood then .value .bad
    else if m = 0 then
      let z := NFmt.f32.decode (rdT 12)
      .value (if neg && sign = 1 then z.negateQ else z)
    else if mode = 0 then
      let lo := NFmt.f32.decode (rdT 4)
      let w := NFmt.f32.decode (rdT 8)
      match lo, w with
      | .fin ln lm le, .fin false wm we =>
        if wm = 0 then .value .bad
        else
          let e0 := minExp [v, lo, w] 0
          let d := sumAt e0 [v] - sumAt e0 [lo]
          let seg := d / (wm * 2 ^ (we - e0).toNat : Nat)
          let run (sg : Nat) : FuncSel :=
            .seg sg (NFmt.f32.sub x (NFmt.f32.rnd (sumCore [.fin ln lm le, .fin false (sg * wm) we]))) false
          if 0 ≤ seg ∧ seg ≤ 255 then run seg.toNat
          else if ood = 1 then run (if seg < 0 then 0 else 255)
          else .value .bad
      | _, _ => .value .bad
    else if neg && sign = 0 then
      (if ood = 1 then .seg 0 (Config.clampT x % 2 ^ 32) false else .value .bad)
    else .seg (x / 2 ^ 23 % 256) (NFmt.f32.rnd (.fin false (x % 2 ^ 23) (-23))) (neg && sign = 1)

/-- R114: the polynomial of a segment at t: three fused operations, each rounded once in F32. -/
def funcPoly (rdT : Nat → Nat) (seg t : Nat) : Num :=
  let coef (n : Nat) : Num := NFmt.f32.decode (rdT (32 + 16 * seg + 4 * n))
  let tn := NFmt.f32.decode t
  let p1 := NFmt.f32.rnd (numFma (coef 3) tn (coef 2))
  let p2 := NFmt.f32.rnd (numFma (NFmt.f32.decode p1) tn (coef 1))
  NFmt.f32.decode (NFmt.f32.rnd (numFma (NFmt.f32.decode p2) tn (coef 0)))

/-- R114: the function-table value of x. -/
def funcTable (rdT : Nat → Nat) (x : Nat) : Num :=
  match funcSelect rdT x with
  | .value v => v
  | .seg n t odd => if odd then (funcPoly rdT n t).negateQ else funcPoly rdT n t

/-- R140: bytes of pond scratchpad. -/
def State.padLimit (s : State) (g : Nat) : Nat := (8 - min 4 (s.rd (.pond g) Reg.pondMemCfgCacheMib)) * 2 ^ 20

/-- R111, R126: the memory key of a gathered element, none beyond its space. -/
def State.gathKey (s : State) (g t a : Nat) : Option Nat :=
  let u : UnitId := .tile g t
  let es := 2 ^ s.rd u Reg.vcoreGathEsize
  let o : Int := (s.rd u Reg.vcoreGathBase : Int) + sgn32 a * es
  let lim := if s.rd u Reg.vcoreGathSpace = 1 then s.padLimit g else 2 ^ 18
  if 0 ≤ o ∧ o + es ≤ lim then
    some (if s.rd u Reg.vcoreGathSpace = 1 then pondKey g o.toNat else coreKey g t o.toNat)
  else none

/-- The canonical NaN, or 0 for I32 (R126). -/
def badElem (fmt : Nat) : Nat := if fmt = 3 then 0 else 0x7FC00000

/-- R126: GATH_ERR: the status bit and the event. -/
def State.gathErr (s : State) (g t : Nat) : State :=
  (s.wr (.tile g t) Reg.vcoreStatusGathErr 1).raise g 10 t

/-- R111 GATH: the gathered value. -/
def State.gather (s : State) (g t fmt a : Nat) : Nat × State :=
  let es := 2 ^ s.rd (.tile g t) Reg.vcoreGathEsize
  match s.gathKey g t a with
  | none => (badElem fmt, s.gathErr g t)
  | some k =>
    if s.sramBad k es then
      (badElem fmt, s.sramPoison g t (if s.rd (.tile g t) Reg.vcoreGathSpace = 1 then 16 else t) k 3)
    else
      let raw := s.memNat k es
      (if (fmt = 1 ∨ fmt = 2) ∧ es = 2 then NFmt.f32.rnd ((stageFmt fmt).decode raw) else raw, s)

/-- R111 SCAT: b written; into two bytes of F16 or G16 it narrows to the nearest value, ties to even, RND and SAT playing no part
(R74; DESIGN CHOICE, log entry 26). -/
def State.scatter (s : State) (g t fmt a b : Nat) : State :=
  let es := 2 ^ s.rd (.tile g t) Reg.vcoreGathEsize
  let raw := if (fmt = 1 ∨ fmt = 2) ∧ es = 2 then (stageFmt fmt).rnd (NFmt.f32.decode b) else b
  match s.gathKey g t a with
  | none => s.gathErr g t
  | some k =>
    if s.partialBad k es then s
    else (s.putMem k (leBytes es raw)).healSram k es

/-- R111: the operations of one lane that need no other lane: the value and whether a predicate is written. `func` gives the
value of a function table. Codes of SUB that the table of R111 does not name give a free value (DESIGN CHOICE, log entry 26). -/
def laneOp (func : Nat → Nat → Num) (x : Stage) (l : Lane) (a b c : Nat) : Lane :=
  let fa := NFmt.f32.decode a
  let fb := NFmt.f32.decode b
  let fc := NFmt.f32.decode c
  let int := decide (x.fmt = 3)
  let setP (r : Bool) : Lane :=
    let cleared := if l.p.testBit x.psel then l.p - 2 ^ x.psel else l.p
    ⟨a, if r then cleared + 2 ^ x.psel else cleared⟩
  let val (v : Nat) : Lane := ⟨v, l.p⟩
  match x.op with
  | 0 => val a
  | 1 => val (if int then low32 (sgn32 a + sgn32 b) else holdF x.fmt (numSum [fa, fb]))
  | 2 => val (if int then low32 (sgn32 a - sgn32 b)
      else holdF x.fmt (match firstNan [fa, fb] with | some n => n | none => sumCore [fa, fb.negate]))
  | 3 => val (if int then low32 (sgn32 a * sgn32 b) else holdF x.fmt (Num.mul fa fb))
  | 4 => val (if int then low32 (sgn32 a * sgn32 b + sgn32 c) else holdF x.fmt (numFma fa fb fc))
  | 5 => val (reduce2 x.fmt 1 x.num a b)
  | 6 => val (reduce2 x.fmt 2 x.num a b)
  | 7 => val (if int then low32 (sgn32 a).natAbs else if fa.isNan then holdF x.fmt fa.quiet else holdF x.fmt fa.abs)
  | 8 => val (if int then low32 (-(sgn32 a)) else holdF x.fmt fa.negateQ)
  | 9 => setP (if int then relI x.sub (sgn32 a) (sgn32 b) else relF x.sub fa fb)
  | 0xA => val (if l.p.testBit x.psel then a else b)
  | 0xB => val (if int || decide (3 < x.sub) then Config.openStage 0xB x.sub x.fmt a 0 % 2 ^ 32 else holdF x.fmt (func x.sub a))
  | 0xC => val (match x.sub with
      | 0 => cvtToInt fa
      | 1 => cvtToFloat a
      | k => Config.openStage 0xC k x.fmt a 0 % 2 ^ 32)
  | 0xD => val (low32 (sgn32 a + sgn32 b))
  | 0xE => val (low32 (sgn32 a * sgn32 b))
  | 0xF => val (a &&& b)
  | 0x10 => val (a ||| b)
  | 0x11 => val (a ^^^ b)
  | 0x12 => val ((a * 2 ^ (b % 32)) % 2 ^ 32)
  | 0x13 => val (a / 2 ^ (b % 32))
  | 0x14 => setP (relI x.sub (sgn32 a) (sgn32 b))
  | _ => val a

/-- What a chunk of one core cycle carries through the stages: the lanes, the row's REDR accumulator and SCAN carry. -/
structure Chunk where
  lanes : List Lane
  redr : Option Nat
  scan : Option Nat
  deriving DecidableEq, Repr

/-- R112: a stage acts on an element. -/
def Stage.acts (x : Stage) (l : Lane) : Bool :=
  match x.guard_ with
  | 1 => l.p.testBit x.psel
  | 2 => !l.p.testBit x.psel
  | _ => true

/-- R113 SCAN: running sums over the lanes from the carry, and the carry that leaves; a lane on which the stage does not act is
passed over. -/
def scanLanes (fmt : Nat) : Option Nat → List (Option Nat) → List Nat × Option Nat
  | c, [] => ([], c)
  | c, none :: r =>
    let x := scanLanes fmt c r
    (0 :: x.1, x.2)
  | c, some v :: r =>
    let n := match c with
      | some x => reduce2 fmt 0 false x v
      | none => v
    let x := scanLanes fmt (some n) r
    (n :: x.1, x.2)

/-- The memory key of function table `tab` of a V-core (R114). -/
def State.funcKey (s : State) (g t tab : Nat) : Nat := coreKey g t (1024 * s.rd (.tile g t) Reg.vcoreFtabBase + 4128 * tab)

/-- The words of a function table in core local memory. -/
def State.funcWord (s : State) (g t tab o : Nat) : Nat := s.memNat (s.funcKey g t tab + o) 4

/-- R137: the value of x comes from an unreadable word of the table: its header, or the segment of x. -/
def State.funcBad (s : State) (g t tab x : Nat) : Bool :=
  let k := s.funcKey g t tab
  !(NFmt.f32.decode x).isNan && (s.sramBad k 24 || (match funcSelect (s.funcWord g t tab) x with
    | .seg n _ _ => s.sramBad (k + 32 + 16 * n) 16
    | .value _ => false))

/-- R114, R137: the function-table value of x; the canonical NaN from an unreadable word. -/
def State.funcValue (s : State) (g t tab x : Nat) : Num :=
  if s.funcBad g t tab x then .canon else funcTable (s.funcWord g t tab) x

/-- One stage over one chunk (R111–R114): `inA`, `inB` the inputs of the lanes, `first` for stage 0. -/
def State.runStage (s : State) (g t : Nat) (x : Stage) (inA inB : List Nat) (k : Chunk) : Chunk × State :=
  let u : UnitId := .tile g t
  let src (code n : Nat) (l : Lane) : Nat :=
    match code with
    | 0 => l.v
    | 1 => inA.getD n 0
    | 2 => inB.getD n 0
    | 3 => s.rdi u Reg.vcoreConst x.cidx
    | 4 => n
    | _ => 0
  let aOf (n : Nat) (l : Lane) : Nat := src x.srcA n l
  let base := k.lanes.mapIdx (fun n l => aOf n l)
  let acting := k.lanes.mapIdx (fun n l => if x.acts l then some (aOf n l) else none)
  if x.op = 0x15 then
    let r := treeReduce (reduce2 x.fmt x.sub x.num) acting
    ({ k with lanes := k.lanes.mapIdx (fun n l => ⟨if x.acts l then r.getD 0 else base.getD n 0, l.p⟩) }, s)
  else if x.op = 0x16 then
    let r := treeReduce (reduce2 x.fmt x.sub x.num) acting
    ({ k with
       redr := joinLanes (reduce2 x.fmt x.sub x.num) k.redr r
       lanes := k.lanes.mapIdx (fun n l => ⟨base.getD n 0, l.p⟩) }, s)
  else if x.op = 0x17 then
    let r := scanLanes x.fmt k.scan acting
    ({ k with
       scan := r.2
       lanes := k.lanes.mapIdx (fun n l => ⟨if x.acts l then r.1.getD n 0 else base.getD n 0, l.p⟩) }, s)
  else if x.op = 0x18 then
    let r := (k.lanes.zipIdx).foldl (fun (acc : List Lane × State) (ln : Lane × Nat) =>
      let a := aOf ln.2 ln.1
      if x.acts ln.1 then
        let v := acc.2.gather g t x.fmt a
        (acc.1 ++ [⟨v.1, ln.1.p⟩], v.2)
      else (acc.1 ++ [⟨a, ln.1.p⟩], acc.2)) ([], s)
    ({ k with lanes := r.1 }, r.2)
  else if x.op = 0x19 then
    let s' := (k.lanes.zipIdx).foldl (fun (acc : State) (ln : Lane × Nat) =>
      if x.acts ln.1 then acc.scatter g t x.fmt (aOf ln.2 ln.1) (src x.srcB ln.2 ln.1) else acc) s
    ({ k with lanes := k.lanes.mapIdx (fun n l => ⟨aOf n l, l.p⟩) }, s')
  else
    let lanes := k.lanes.mapIdx (fun n l =>
      if x.acts l then laneOp (s.funcValue g t) x l (aOf n l) (src x.srcB n l) (src x.srcC n l) else ⟨aOf n l, l.p⟩)
    let bad := decide (x.op = 0xB) && acting.any (fun a => a.any (s.funcBad g t x.sub))
    ({ k with lanes := lanes }, if bad then s.sramPoison g t t (s.funcKey g t x.sub) 3 else s)

/-- Stages 0–5 in order. -/
def State.runStages (s : State) (g t : Nat) (st : List Stage) (inA inB : List Nat) (k : Chunk) : Chunk × State :=
  st.foldl (fun acc x => acc.2.runStage g t x inA inB acc.1) (k, s)

/-! Streams. -/

/-- Width in bits of a stream format code (5 is I32). -/
def streamBits (c : Nat) : Nat := if c = 5 then 32 else (NFmt.ofCode c).bits
/-- R109: row length in elements. -/
def State.rowLen (s : State) (g t : Nat) : Nat :=
  let b := s.rd (.tile g t) Reg.vcoreCfgRowb
  32 * (if b = 0 then 4096 else b)
/-- Entries of a row of n elements in a stream format, scale bytes included. -/
def streamEntries (c n : Nat) : Nat := cdiv (n * streamBits c) 256 + (if c = 3 ∨ c = 4 then cdiv (n / 32) 32 else 0)

/-- R68: the F32 of an element and its scale, exact; a value beyond F32 is free (DESIGN CHOICE, log entry 26). -/
def widen (f : NFmt) (c code sc : Nat) : Nat :=
  let x := scaledElem f code sc
  let r := NFmt.f32.rnd x
  match x, NFmt.f32.decode r with
  | .fin .., .inf _ => Config.wideElem c code sc % 2 ^ 32
  | _, _ => r

/-- Element n of a row's entries, widened to F32 with its scale (R67, R68); raw for I32. -/
def streamElem (c rowLen : Nat) (es : List Entry) (n : Nat) : Nat :=
  let b := streamBits c
  let per := 256 / b
  let code := (es.getD (n / per) 0).toNat / 2 ^ (b * (n % per)) % 2 ^ b
  if c = 5 then code
  else
    let f := NFmt.ofCode c
    let sb := cdiv (rowLen * b) 256 + n / 32 / 32
    let sc := (es.getD sb 0).toNat / 2 ^ (8 * (n / 32 % 32)) % 256
    widen f c code sc

/-- Elements of a partly received row that can be widened: all received ones, or for a scaled stream none before the
row is whole. -/
def streamReady (c rowLen : Nat) (es : List Entry) : Nat :=
  if c = 3 ∨ c = 4 then (if es.length = streamEntries c rowLen then rowLen else 0)
  else min rowLen (es.length * (256 / streamBits c))

/-- R110, R76: the code of an output element in a format without scales. -/
def outCode (c : Nat) (mode : RMode) (sat : Bool) (v : Nat) : Nat :=
  if c = 5 then v else (NFmt.ofCode c).encode mode sat (NFmt.f32.decode v)

/-- R110: write as many output entries of the row as the gathered elements fill; `fin` at the row's end. -/
def State.emitOut (s : State) (g t : Nat) (v : VCore) (fin : Bool) : VCore :=
  let u : UnitId := .tile g t
  let c := s.rd u Reg.vcoreCfgOutFmt
  let rnd := s.rd u Reg.vcoreCfgRnd
  let sat := s.flag u Reg.vcoreCfgSat
  let step (l : List (BitVec 16)) (n : Nat) : List (BitVec 16) := if rnd = 2 then l.modify (n % 16) lfsrStep else l
  let val (x : Nat) : Nat := x % 2 ^ 32
  let lane (x : Nat) : Nat := x / 2 ^ 32
  -- convert one element in lane n
  let conv (acc : List Nat × List (BitVec 16)) (n : Nat) (f : BitVec 16 → Nat) : List Nat × List (BitVec 16) :=
    let l := step acc.2 n
    (acc.1 ++ [f (l.getD (n % 16) 0)], l)
  if c = 3 ∨ c = 4 then
    let f := NFmt.ofCode c
    if fin then
      let nb := cdiv v.outVals.length 32
      let block (b : Nat) : List Nat := (v.outVals.drop (32 * b)).take 32
      let r := (List.range nb).foldl (fun (acc : List Nat × List Nat × List (BitVec 16)) b =>
        let xs := (block b).map (fun x => NFmt.f32.decode (val x))
        let code := blockScale f (s.flag u Reg.vcoreCfgQclip) xs
        let e := (block b).foldl (fun a x =>
          conv a (lane x) (fun l => quantElem f (RMode.ofRnd rnd l) sat code (NFmt.f32.decode (val x))))
          ([], acc.2.2)
        (acc.1 ++ e.1, acc.2.1 ++ [code], e.2)) ([], [], v.lfsr)
      let per := 256 / f.bits
      let elems := (List.range (cdiv r.1.length per)).map (fun k =>
        (⟨false, BitVec.ofNat 256 ((((r.1.drop (per * k)).take per).mapIdx (fun i x => x * 2 ^ (f.bits * i))).sum)⟩ : QEnt))
      let scales := (List.range (cdiv nb 32)).map (fun k =>
        let l := (r.2.1.drop (32 * k)).take 32
        (⟨false, entryOf ((l ++ List.replicate (32 - l.length) 0x7F).flatMap (leBytes 1))⟩ : QEnt))
      { v with outVals := [], lfsr := r.2.2, outQ := v.outQ ++ elems ++ scales }
    else v
  else
    let b := streamBits c
    let per := 256 / b
    let n := if fin then cdiv v.outVals.length per else v.outVals.length / per
    let r := (v.outVals.take (n * per)).foldl (fun a x =>
      conv a (lane x) (fun l => outCode c (RMode.ofRnd rnd l) sat (val x))) ([], v.lfsr)
    let es := (List.range n).map (fun k =>
      (⟨false, BitVec.ofNat 256 ((((r.1.drop (per * k)).take per).mapIdx (fun i x => x * 2 ^ (b * i))).sum)⟩ : QEnt))
    { v with outVals := v.outVals.drop (n * per), lfsr := r.2, outQ := v.outQ ++ es }

/-- R112, R118: a count entry. -/
def countEntry (n : Nat) : QEnt := ⟨false, BitVec.ofNat 256 (n % 2 ^ 32)⟩

/-- Write the finished entries to output queue 0 while it takes them; `dt` cycles held count in STALL_OUT. -/
def State.flushV (s : State) (g t : Nat) : Nat → State
  | 0 => s
  | n + 1 =>
    let v := s.vcore g t
    match v.outQ with
    | [] => s
    | e :: r =>
      match s.push g t true 0 e with
      | some s' => State.flushV (s'.setVcore g t { v with outQ := r }) g t n
      | none => s

/-- R117: a row is in hand. -/
def VCore.inRow (v : VCore) : Bool := !v.inA.isEmpty || !v.inB.isEmpty || !v.outVals.isEmpty || decide (v.done ≠ 0)

/-- VCORE_SET_APPLY and the end of a drain at a row boundary (R117, R126). -/
def State.vBoundary (s : State) (g t : Nat) : State :=
  let u : UnitId := .tile g t
  let v := s.vcore g t
  if v.inRow then s
  else
    let s := match v.setNext with
      | some k => ((s.setVcore g t { v with setNext := none }).wr u Reg.vcoreCtrlSet k).wr u Reg.vcoreStatusSetPending 0
      | none => s
    if s.flag u Reg.vcoreCtrlDrain && (s.vcore g t).outQ.isEmpty then
      (s.wr u Reg.vcoreCtrlRun 0).wr u Reg.vcoreCtrlDrain 0
    else s

/-- Run every chunk of the row in hand whose elements have arrived; `fuel` bounds the chunks. -/
def State.vChunks (s : State) (g t : Nat) (st : List Stage) (per : Nat) (useB : Bool) : Nat → State
  | 0 => s
  | n + 1 =>
    let u : UnitId := .tile g t
    let v := s.vcore g t
    let len := s.rowLen g t
    let c := s.rd u Reg.vcoreCfgInFmt
    let ready := if useB then min (streamReady c len v.inA) (streamReady c len v.inB) else streamReady c len v.inA
    if len ≤ v.done then s
    else if ready < v.done + per then s
    else
      let idx := (List.range per).map (fun i => v.done + i)
      let a := idx.map (streamElem c len v.inA)
      let b := if useB then idx.map (streamElem c len v.inB) else []
      let r := s.runStages g t st a b ⟨List.replicate per ⟨0, 0⟩, v.redr, v.scan⟩
      let redr := st.any (fun x => decide (x.op = 0x16))
      let pred := s.flag u Reg.vcoreCfgOutPred
      let outs := if redr then [] else
        (r.1.lanes.zipIdx.filter (fun l => !pred || l.1.p.testBit 3)).map (fun l => l.1.v + 2 ^ 32 * l.2)
      let s := r.2
      let v := { s.vcore g t with done := v.done + per, redr := r.1.redr, scan := r.1.scan }
      let v := { v with outVals := v.outVals ++ outs, outCount := v.outCount + outs.length }
      let s := s.count u Reg.vcoreElems Reg.vcoreWrap 0 outs.length
      State.vChunks (s.setVcore g t (s.emitOut g t v false)) g t st per useB n

/-- The row in hand has passed the stages whole: its REDR result, its last entries and its count entry leave, and the
row boundary is reached. The one element of a REDR row uses lane 0 and its LFSR (R75; DESIGN CHOICE, log entry 26) and has P0–P3 at
0, so with OUT_PRED it is not written (R112; DEDUCED, log entry 26). -/
def State.vRowEnd (s : State) (g t : Nat) : State :=
  let u : UnitId := .tile g t
  let v := s.vcore g t
  if v.done < s.rowLen g t then s
  else
    let st := (List.range 6).map (s.stage g t (s.rd u Reg.vcoreCtrlSet))
    let one : Option Nat := (st.find? (fun x => decide (x.op = 0x16))).map (fun x =>
      v.redr.getD (Config.openStage 0x16 x.sub x.fmt 0 0 % 2 ^ 32))
    let one := if s.flag u Reg.vcoreCfgOutPred then none else one
    let v1 := { v with outVals := v.outVals ++ one.toList }
    let s := if one.isSome then s.count u Reg.vcoreElems Reg.vcoreWrap 0 1 else s
    let v2 := s.emitOut g t v1 true
    let v3 := if s.flag u Reg.vcoreCfgOutPred then { v2 with outQ := v2.outQ ++ [countEntry v.outCount] } else v2
    s.setVcore g t { v3 with inA := [], inB := [], done := 0, redr := none, scan := none, outCount := 0 }

/-- R177: SCALE constants apply from the row that starts. -/
def State.vApplyConst (s : State) (g t : Nat) : State :=
  let v := s.vcore g t
  if v.inRow then s
  else
    (v.constNext.foldl (fun s c => s.wri (.tile g t) Reg.vcoreConst c.1 c.2) s).setVcore g t { v with constNext := [] }

/-- The V-core may take an entry. -/
def State.vTakes (s : State) (g t : Nat) : Bool :=
  s.flag (.tile g t) Reg.vcoreCtrlRun && !(s.tileW g t).testBit 0
    && (!s.flag (.tile g t) Reg.vcoreCtrlDrain || (s.vcore g t).inRow)

/-- VCORE_ENTRY (R109–R114): one entry of queue 0, and of queue 1 where a stage reads input B, enters the row in hand;
elements that are ready pass the six stages; finished entries go to output queue 0. `dt` core cycles were lost waiting,
`gw` of them for the A-units. -/
def vcoreEntry (g t dt gw : Nat) (s : State) : State :=
  let u : UnitId := .tile g t
  let s := s.flushV g t (s.vcore g t).outQ.length
  if !(s.vcore g t).outQ.isEmpty then s.count u Reg.vcoreStallOut Reg.vcoreWrap 2 dt
  else if !s.vTakes g t || s.flag u Reg.vcoreCfgSelect then s.vBoundary g t
  else
    let s := s.vApplyConst g t
    let k := s.rd u Reg.vcoreCtrlSet
    let st := (List.range 6).map (s.stage g t k)
    let useB := st.any (fun x => x.reads 2)
    let c := s.rd u Reg.vcoreCfgInFmt
    let need := streamEntries c (s.rowLen g t)
    let wants (q : Nat) : Bool := decide ((if q = 0 then (s.vcore g t).inA.length else (s.vcore g t).inB.length) < need)
    let lacks (q : Nat) : Bool := wants q && (s.headData g t q).isNone
    let takeOne (s : State) (q : Nat) : State :=
      let v := s.vcore g t
      match (if wants q then s.headData g t q else none) with
      | some e => (s.pop g t false q).setVcore g t
          (if q = 0 then { v with inA := v.inA ++ [e] } else { v with inB := v.inB ++ [e] })
      | none => s
    let s1 := takeOne s 0
    let s1 := if useB then takeOne s1 1 else s1
    let s := if lacks 0 || (useB && lacks 1) then s1.count u Reg.vcoreStallIn Reg.vcoreWrap 1 dt else s1
    let oc := s.rd u Reg.vcoreCfgOutFmt
    let per := if c = 0 ∨ c = 5 ∨ oc = 0 ∨ oc = 5 then 8 else 16
    let s := s.vChunks g t st per useB (s.rowLen g t / per + 1)
    let s := s.vRowEnd g t
    let s := s.count u Reg.vcoreStallGath Reg.vcoreWrap 3 gw
    let s := s.flushV g t (s.vcore g t).outQ.length
    s.vBoundary g t

/-- VCORE_SET_WRITE (R117): latched while RUN is 1, and applied at once at a row boundary or with RUN = 0. -/
def vcoreSetWrite (g t n : Nat) (s : State) : State :=
  let u : UnitId := .tile g t
  if s.flag u Reg.vcoreCtrlRun then
    ((s.setVcore g t { s.vcore g t with setNext := some (n % 4) }).wr u Reg.vcoreStatusSetPending 1).vBoundary g t
  else ((s.setVcore g t { s.vcore g t with setNext := none }).wr u Reg.vcoreStatusSetPending 0).wr u Reg.vcoreCtrlSet n

/-- VCORE_DRAIN (R126): rows in hand finish, then RUN clears. -/
def vcoreDrain (g t : Nat) (s : State) : State := (s.wr (.tile g t) Reg.vcoreCtrlDrain 1).vBoundary g t

/-! Selection (R102, R118). -/

/-- R118: the order-preserving key of an F32 score. -/
def selKey (x : Nat) : Nat :=
  let v := if x = 0x80000000 then 0 else x
  if v < 0x80000000 then v + 0x80000000 else 0xFFFFFFFF - v

/-- R102: is a score selected against the threshold? -/
def selected (thr x : Nat) : Bool :=
  (NFmt.f32.decode x).isNan || Num.lt (NFmt.f32.decode thr) (NFmt.f32.decode x)

/-- R102 step 2: how many unselected scores rank before the one at index i. -/
def rankOf (scores : List (Nat × Nat)) (i key : Nat) : Nat :=
  (scores.filter (fun x => decide (key < x.2) || (decide (x.2 = key) && decide (x.1 < i)))).length

/-- R102: bit 0 SEL, bit 1 GUARD of every score of a row. -/
def selectRow (thr guard_ : Nat) (row : List Nat) : List Nat :=
  let idx := row.zipIdx.map (fun x => (x.2, x.1))
  let uns := (idx.filter (fun x => !selected thr x.2)).map (fun x => (x.1, selKey x.2))
  idx.map (fun x =>
    if selected thr x.2 then 1 else if rankOf uns x.1 (selKey x.2) < guard_ then 2 else 0)

/-- R118: bytes of a score, and of its key, in the SELBUF area: 2 for a 16-bit stream, else 4 (the F32 the score is widened to). -/
def selBytes (c : Nat) : Nat := if streamBits c = 16 then 2 else 4

/-- R118: the bytes a row occupies in the SELBUF area. -/
def selSize (c len : Nat) : Nat := 2 * selBytes c * len

/-- R118: the row in the SELBUF area of core local memory: its scores in ascending index, then the key of each score, 0 for one
that takes none. The place of each score and key in the area is the model's (DESIGN CHOICE, log entry 26). -/
def State.holdRow (s : State) (g t c : Nat) (row marks : List Nat) : State :=
  let n := selBytes c
  let score (x : Nat) : Nat := if n = 2 then (NFmt.ofCode c).rnd (NFmt.f32.decode x) else x
  let key (x : Nat) : Nat := selKey x / 2 ^ (8 * (4 - n))
  let bs := row.flatMap (fun x => leBytes n (score x))
    ++ (row.zip marks).flatMap (fun x => leBytes n (if x.2 = 1 then 0 else key x.1))
  let base := 1024 * s.rd (.tile g t) Reg.vcoreSelSelbuf
  let bs := bs.take (2 ^ 18 - base)
  (s.putMem (coreKey g t base) bs).healSram (coreKey g t base) bs.length

/-- SELECTION_ROW (R102, R118): the row at the head of queue 0 is ranked and a neuron mask or an index list leaves. The
row is taken entry by entry; the output is formed when it is whole. -/
def selectionRow (g t dt : Nat) (s : State) : State :=
  let u : UnitId := .tile g t
  let s := s.flushV g t (s.vcore g t).outQ.length
  if !(s.vcore g t).outQ.isEmpty then s.count u Reg.vcoreStallOut Reg.vcoreWrap 2 dt
  else if !s.vTakes g t || !s.flag u Reg.vcoreCfgSelect then s
  else
    let c := s.rd u Reg.vcoreCfgInFmt
    let len := s.rowLen g t
    let need := streamEntries c len
    let v := s.vcore g t
    let s := match s.headData g t 0 with
      | some e => if v.inA.length < need then (s.pop g t false 0).setVcore g t { v with inA := v.inA ++ [e] } else s
      | none => s.count u Reg.vcoreStallIn Reg.vcoreWrap 1 dt
    let v := s.vcore g t
    if v.inA.length < need then s
    else
      let row := (List.range len).map (streamElem c len v.inA)
      let marks := selectRow (s.rd u Reg.vcoreSelThresh) (s.rd u Reg.vcoreSelGuard) row
      let picks := (row.zip marks).zipIdx.filterMap (fun x => if x.1.2 = 0 then none else some (x.2, x.1.1))
      let outs : List QEnt :=
        if s.flag u Reg.vcoreCfgSelOut then
          (List.range (cdiv picks.length 4)).map (fun k =>
            (⟨false, entryOf (((picks.drop (4 * k)).take 4).flatMap (fun p => leBytes 4 p.1 ++ leBytes 4 p.2))⟩ : QEnt))
            ++ [countEntry picks.length]
        else
          (List.range (cdiv len 128)).map (fun k =>
            (⟨false, BitVec.ofNat 256 ((((marks.drop (128 * k)).take 128).mapIdx (fun i m => m * 2 ^ (2 * i))).sum)⟩ : QEnt))
      let s := (s.holdRow g t c row marks).setVcore g t { v with inA := [], outQ := outs }
      let s := s.count u Reg.vcoreElems Reg.vcoreWrap 0 (if s.flag u Reg.vcoreCfgSelOut then picks.length else len)
      let s := s.flushV g t outs.length
      s.vBoundary g t

/-- R110: writing VCORE_SEED reloads the lanes' LFSRs. -/
def State.reseedVector (s : State) (g t : Nat) : State :=
  s.setVcore g t { s.vcore g t with lfsr := (List.range 16).map (lfsrSeed (s.rd (.tile g t) Reg.vcoreSeedSeed)) }

/-- TOKEN_AT_HEAD (R177): a token other than WAIT at the head of a core's input queue q: discarded and counted, or for a V-core's
SCALE on queue 0 or 1 kept as a constant for the next row. The S-core reads every entry itself, and a steering unit the queues it
takes from (R169). -/
def tokenAtHead (g t q : Nat) (s : State) : State :=
  match s.headOf g t false q with
  | none => s
  | some e =>
    if !e.tok || s.steered g t q then s
    else
      match tileType t with
      | .m => (s.pop g t false q).sat (.tile g t) Reg.rtrTokDrop 1
      | .v =>
        let v := s.vcore g t
        if tokType e.data = 6 ∧ q < 2 then
          (s.pop g t false q).setVcore g t
            { v with constNext := v.constNext ++ [(tokArg e.data % 8, tokUser e.data % 2 ^ 32)] }
        else (s.pop g t false q).sat (.tile g t) Reg.rtrTokDrop 1
      | _ => s

end Sys2Proof.Machine
end

