-- ==== Sys2Proof/Machine/Csr.lean ====
section
/-! DEFINITION. Reading and writing control registers (R6, R61, R107, R117, R126, R127, R140, R166–R168, R197, R198,
R264, R312, R354, R435, R456). -/

namespace Sys2Proof.Machine

/-- Bits b0.. of a list of Bools as a number. -/
def bitsOf (l : List Bool) : Nat := l.zipIdx.foldl (fun a e => if e.1 then a + 2 ^ e.2 else a) 0

/-- R264: the current occupancy nibble of RTR_DEPTH. -/
def State.depthCur (s : State) (g t q vc : Nat) : Nat :=
  s.occupancy (16 * g + t) q vc false + (if vc = 3 then s.occupancy (16 * g + t) q 3 true else 0)

/-- Registers of a tile that show state kept elsewhere. -/
def State.tileView (s : State) (g t : Nat) (f : Fld) (i : Nat) : Option Nat :=
  let m := s.mcore g t
  let sc := s.score g
  let x := s.gen g t i
  let isM := decide (tileType t = .m)
  let isA := decide (tileType t = .a)
  let isS := decide (tileType t = .s)
  let isV := decide (tileType t = .v)
  let q (o : Bool) (n : Nat) := s.queue (queueKey g t o n)
  if isM && decide (f = Reg.mcoreArrayLive) then some (s.liveMask g t)
  else if isM && decide (f = Reg.mcoreArrayRetiredMap) then some (s.tileW g t / 64 % 16)
  else if isM && decide (f = Reg.mcoreStatusBusy) then some (!m.drained).toNat
  else if isM && decide (f = Reg.mcoreStatusModePending) then some m.modeNext.isSome.toNat
  else if isM && decide (f = Reg.mcoreGateStatFill) then some (s.gateFill g t)
  else if isM && decide (f = Reg.mcoreGateStatAge) then some (Min.min m.age 4095)
  else if isV && decide (f = Reg.vcoreStatusBusy) then some (s.vcore g t).inRow.toNat
  else if isS && decide (f = Reg.scoreEstatDepth) then some sc.fifo.length
  else if isA && decide (f = Reg.auStatusBusy) then
    some (bitsOf ((List.range 4).map (fun n => let y := s.gen g t n
      !(y.run.isEmpty && y.queue.isEmpty && y.chain.isNone))))
  else if isA && decide (f = Reg.auGenStatState) then
    some (if x.aborting then 3 else if (s.rd (.tile g t) Reg.auStatusErr).testBit i then 2 else if x.run.isEmpty then 0 else 1)
  else if isA && decide (f = Reg.auGenStatQdepth) then some x.queue.length
  else if isA && decide (f = Reg.auGenStatChain) then some x.chain.isSome.toNat
  else if f = Reg.rtrQoccICur then some (q false i).count
  else if f = Reg.rtrQoccOCur then some (q true i).count
  else if f = Reg.rtrQstatIwait then
    some (bitsOf ((List.range 8).map (fun n => s.waiters.any (fun w => w.at g t false n))))
  else if f = Reg.rtrQstatOwait then
    some (bitsOf ((List.range 8).map (fun n => s.waiters.any (fun w => w.at g t true n))))
  else if f = Reg.rtrQstatIspill then some (bitsOf ((List.range 8).map (fun n => decide ((q false n).l1n + (q false n).l2n ≠ 0))))
  else if f = Reg.rtrQstatOspill then some (bitsOf ((List.range 8).map (fun n => decide ((q true n).l1n + (q true n).l2n ≠ 0))))
  else if isGateUnit t i && decide (f = Reg.rtrSteerFunc) then some 4
  else if f = Reg.rtrIdFieldLink then some isA.toNat
  else if f = Reg.rtrIdWrap then some (bitsOf ((List.range 4).map (fun p => isWrap (16 * g + t) p)))
  else if f = Reg.rtrStatusEscFrozen then some (decide (3 ≤ s.net.update)).toNat
  else if f = Reg.rtrStatusEpoch then some ((s.net.epoch + s.rd (.tile g t) Reg.rtrStatusEpoch) % 256)
  else if f = Reg.rtrRslotBusy then
    some (bitsOf ((List.range 16).map (fun n => s.net.rslots.any (fun e => decide (e.1 = 16 * (16 * g + t) + n)))))
  else if f = Reg.rtrDepthVc0Cur then some (s.depthCur g t i 0)
  else if f = Reg.rtrDepthVc1 then some (s.rdi (.tile g t) f i / 16 * 16 + s.depthCur g t i 1)
  else if f = Reg.rtrDepthVc2 then some (s.rdi (.tile g t) f i / 16 * 16 + s.depthCur g t i 2)
  else if f = Reg.rtrDepthVc3 then some (s.rdi (.tile g t) f i / 16 * 16 + s.depthCur g t i 3)
  else if f = Reg.rtrLinkState then
    (if i = 5 then (if isA then none else some 3)
    else if 4 ≤ i then none
    else
      let w := s.nextGraph.word
      let j := neighbour (16 * g + t) i
      if (w.get (16 * g + t) 0).testBit (2 + i) || (w.get j 0).testBit (2 + opposite i) then some 2 else none)
  else if f = Reg.rtrLinkAsleep then
    some (if i < 4 then (s.lakeAsleep (neighbour (16 * g + t) i)).toNat else 0)
  else none

/-- R131: physical banks in use: the first 32 good ones. -/
def State.banksUsed (s : State) (g : Nat) : Nat :=
  ((List.range 34).filter (fun b => !(s.pmemOf g).mapFailed.testBit b)).take 32 |>.foldl (fun a b => a + 2 ^ b) 0

/-! Logs, partitions and totals as registers show them (R400, R412, R413, R436, R466). -/

/-- R400: the UNIT word of a record. -/
def ErrRec.unit (r : ErrRec) : Nat :=
  r.rank % 64 + r.field % 64 * 2 ^ 6 + r.pond % 512 * 2 ^ 12 + r.tile % 16 * 2 ^ 21 + r.sub % 128 * 2 ^ 25

/-- R400: the 32 bytes of a record. -/
def ErrRec.bytes (r : ErrRec) : List Byte :=
  leBytes 8 r.time ++ leBytes 4 r.unit ++ leBytes 2 r.kind ++ leBytes 1 r.op ++ leBytes 1 r.part ++ leBytes 2 (r.temp % 1024)
    ++ leBytes 2 r.rail ++ leBytes 1 r.point ++ leBytes 1 r.flags ++ leBytes 2 r.seq ++ leBytes 8 r.detail

/-- R412: record i of field f's log as bytes: the log is a ring of 1,024 entries, the newest at WRITTEN − 1. -/
def State.elogAt (s : State) (f i : Nat) : List Byte :=
  let n := s.rd (.fld f) Reg.fldElogStatWritten
  match (s.err.elog.get f [])[(n + 2 ^ 32 - 1 - i) % 1024]? with
  | some r => r.bytes
  | none => List.replicate 32 0

/-- R413: record i of the module log as bytes. -/
def State.mlogAt (s : State) (i : Nat) : List Byte :=
  let n := s.rd .hub Reg.svcMlogStatWritten
  match s.err.mlog[(n + 2 ^ 32 - 1 - i) % 65536]? with
  | some r => r.bytes
  | none => List.replicate 32 0

/-- R420: whole seconds since a pond's last passed self-test; all ones before the first. -/
def State.testAge (s : State) (g : Nat) : Nat :=
  let x := s.tests.get g PTest.none
  if x.passed = 0 then 0xFFFFFFFF else Min.min ((s.now + 1 - x.passed) / 10 ^ 9) 0xFFFFFFFF

/-- R435: what pond g's reset shows: draining, clearing, receiving a broadcast. -/
def State.rstState (s : State) (g : Nat) : Nat :=
  let l := (List.range 16).map (fun t => 16 * g + t)
  if l.all (fun i => s.closed.contains i) then (if l.all (fun i => s.drainDone.contains i) then 2 else 1)
  else if s.rd (.pond g) Reg.pondBcCfgActive = 1 ∧ s.rd (.pond g) Reg.pondBcStatMissing ≠ 0 then 5
  else 0

/-- R412: the units of field f in partitions that have an age, with it. -/
def State.agedUnits (s : State) (f : Nat) : List (Nat × Nat) :=
  (s.opal.filter (fun e => decide (fieldOf (e.1 / 16) = f) && (s.partOf (e.1 / 16)).isSome)).map (fun e => (e.1, e.2.age))
/-- The first of the units with the greatest age. -/
def eldest (l : List (Nat × Nat)) : Nat × Nat := l.foldl (fun b e => if b.2 < e.2 then e else b) (0, 0)

/-- Registers of a field supervisor that show state kept elsewhere (R412). -/
def State.fldView (s : State) (f : Nat) (r : Fld) : Option Nat :=
  let l := s.agedUnits f
  let isS (i : Nat) : Bool := decide (tileType (i % 16) = .s)
  if r = Reg.fldOpalAgeMaxMva then some (Min.min (eldest (l.filter (fun e => !isS e.1))).2 65535)
  else if r = Reg.fldOpalAgeMaxS then some (Min.min (eldest (l.filter (fun e => isS e.1))).2 65535)
  else if r = Reg.fldOpalAgePond then some (pondIn ((eldest l).1 / 16))
  else if r = Reg.fldOpalAgeTile then some ((eldest l).1 % 16)
  else none

/-- R292: EN reads 0 for a port outside the enabled set or failed in the working map. -/
def State.optView (s : State) (f : Nat) (r : Fld) (k : Nat) : Option Nat :=
  if r = Reg.optPctrlEn ∧ ((s.rd (.opt f) Reg.optSysFab192 ≠ 1 ∧ 2 ≤ k) ∨ (s.fieldW f).testBit (40 + k) = true) then some 0
  else none

/-- R389: alerts of a lake regulator in the last hour. -/
def State.pwrView (s : State) (f : Nat) (r : Fld) (l : Nat) : Option Nat :=
  if r = Reg.pwrLakeAlerts1h then
    some (Min.min (((s.lakes.get (12 * f + l) LakeSt.init).alerts.filter (fun t => decide (s.now < t + 3600000000000))).length) 4095)
  else none

/-- R466: the total that SVC_TELEM_SEL selects. -/
def State.selected (s : State) : Option Telem :=
  let d := s.rd .hub Reg.svcTelemSelAddr
  let u := csrUnit d
  if dSpace d ≠ 3 ∨ (24 < dUnit d ∨ dUnit d = 22 ∨ dUnit d = 23) ∨ (dUnit d < 24 ∧ 48 ≤ dField d) ∨ (dUnit d < 18 ∧ 288 ≤ dPondIn d) then none
  else (ctrOf u (dOff d)).map (fun c => s.telem.get (c.1.fld.key u c.2) Telem.init)

/-- Registers of the hub and the service controller that show state kept elsewhere (R351, R413, R436, R466). -/
def State.hubView (s : State) (r : Fld) (i : Nat) : Option Nat :=
  let n := s.rd .hub Reg.svcPartSelPart
  let p := s.parts.get n Part.none
  if r = Reg.svcTimeTime then some s.now
  else if r = Reg.svcMlogDataData then some (leNat (((s.mlogAt (s.rd .hub Reg.svcMlogIdxIdx)).drop (8 * i)).take 8))
  else if r = Reg.svcPartStatState then some p.state
  else if r = Reg.svcPartStatSpe then some p.spe.toNat
  else if r = Reg.svcPartStatColdPath then some p.coldPath.toNat
  else if r = Reg.svcPartStatStep then some (s.committed n)
  else if r = Reg.svcTelemTotalTotal then some ((s.selected.map (fun x => x.total)).getD 0)
  else if r = Reg.svcTelemRawRaw then some ((s.selected.map (fun x => x.raw)).getD 0)
  else if r = Reg.svcTelemFlagsValid then some s.selected.isSome.toNat
  else if r = Reg.svcTelemFlagsInexact then some ((s.selected.map (fun x => x.inexact)).getD false).toNat
  else if r = Reg.svcTelemFlagsSaturated then some ((s.selected.map (fun x => x.sat)).getD false).toNat
  else if r = Reg.svcTelemFlagsWraps then some ((s.selected.map (fun x => x.wraps)).getD 0)
  else none

/-- Registers of a pond that show state kept elsewhere. -/
def State.pondView (s : State) (g : Nat) (f : Fld) : Option Nat :=
  let m := s.pmemOf g
  let l := s.arrTab g
  if f = Reg.pondMemMapUsed then some (s.banksUsed g)
  else if f = Reg.pondMemStatCmdBusy then some m.cmd.isSome.toNat
  else if f = Reg.pondMemStatCmdPending then some m.held.isSome.toNat
  else if f = Reg.pondMemStatSplitBusy then some m.split.toNat
  else if f = Reg.pondMemStatRetirePending then some (decide (m.retire ≠ 0)).toNat
  else if f = Reg.pondRstStatState then some (s.rstState g)
  else if f = Reg.pondRstStatAttributed then some (s.tests.get g PTest.none).attr.toNat
  else if f = Reg.pondRstStatTestAge then some (s.testAge g)
  else if f = Reg.pondArrStatUsed then some l.length
  else if f = Reg.pondArrStatHeld then some (l.filter (fun e => e.held.isSome)).length
  else none

/-- DRAM registers that show the map (R168). -/
def State.dramView (s : State) (fl : Nat) (f : Fld) : Option Nat :=
  let d := s.drams.get fl DramSt.init
  if f = Reg.dramChanGood then some d.chans
  else if f = Reg.dramChanG then some (bitCount 32 d.chans)
  else if f = Reg.dramChanUsableGib then some (3 * bitCount 32 d.chans)
  else if f = Reg.dramChanFailedLive then some (decide (d.dead ≠ 0)).toNat
  else none

/-- Sensors of a lake that work (R388). -/
def State.lakeView (s : State) (w : Nat) (f : Fld) : Option Nat :=
  if f = Reg.lakeThermSensOk then some (15 - s.lakeW w / 4 % 16) else none

/-- A field as software reads it. -/
def State.view (s : State) (u : UnitId) (f : Fld) (i : Nat) : Nat :=
  if f.acc = .wo then 0
  else
    let v := match u with
      | .tile g t => s.tileView g t f i
      | .pond g => s.pondView g f
      | .dram fl => s.dramView fl f
      | .lake w => s.lakeView w f
      | .fld fl => s.fldView fl f
      | .opt fl => s.optView fl f i
      | .pwr fl => s.pwrView fl f i
      | .hub => s.hubView f i
    (v.getD (s.rdi u f i)) % 2 ^ f.width

/-- R6, R61: the 64 bits of the register at an offset; reserved bits and offsets without a register read 0. R412: the records
of a field's log. R315: with the hub, offsets from 0x5_0000 are the BAR0 offsets of the MSI-X table (DESIGN CHOICE, log entry 20). -/
def State.csrRead (s : State) (u : UnitId) (o : Nat) : Nat :=
  match u with
  | .fld f =>
    if 0x8000 ≤ o ∧ o < 0x10000 then leNat (((s.elogAt f ((o - 0x8000) / 32)).drop (o % 32)).take 8)
    else ((fieldsAt u o).map (fun e => s.view u e.1 e.2 * 2 ^ e.1.lo)).foldl (· + ·) 0
  | .hub =>
    if 0x50000 ≤ o ∧ o < 0x58000 then leNat (s.hub.msixTable.bytes (o - 0x50000) 8)
    else ((fieldsAt u o).map (fun e => s.view u e.1 e.2 * 2 ^ e.1.lo)).foldl (· + ·) 0
  | _ => ((fieldsAt u o).map (fun e => s.view u e.1 e.2 * 2 ^ e.1.lo)).foldl (· + ·) 0

/-- R198: springs' waiting bit and the rest are read through space 0x4 (R185). -/
def State.springRead (s : State) (g n word : Nat) : Nat :=
  let x := s.spring g n
  if word = 0 then x.count + x.thresh * 2 ^ 32
  else
    let waiting := s.waiters.any (fun w => decide (w.pond = g) && decide (w.spring = n))
    let held := (s.arrTab g).any (fun e => match e.held with | some h => decide (h.spring = n) | none => false)
    x.ovf.toNat + waiting.toNat * 2 + held.toNat * 4 + x.applied * 2 ^ 32

/-- COUNTER_READ_LOW (R456): a 4-byte read by a requester (0 S-core, 1 field supervisor, 2 service controller, 3 host):
the low half of a register latches its high half; the high half read next by the same requester is the latched one. -/
def State.csrRead32 (s : State) (u : UnitId) (o who : Nat) : Nat × State :=
  let k := 4 * u.idx + who
  let reg := o / 8 * 8
  let v := s.csrRead u reg
  if o % 8 = 0 then
    (v % 2 ^ 32, { s with latches := s.latches.set k (0, 0) (reg + 1, v / 2 ^ 32) })
  else
    let l := s.latches.get k (0, 0)
    ((if l.1 = reg + 1 then l.2 else v / 2 ^ 32), { s with latches := s.latches.set k (0, 0) (0, 0) })

/-! Writing. -/

/-- The value of a register's bits [63:0] after a write of `v` under a byte-lane mask. -/
def maskMerge (old v mask : Nat) : Nat := (old &&& (2 ^ 64 - 1 - mask)) ||| (v &&& mask)

/-- R6: apply a write to each field by its access code; W1S and WO fields are left to their own operations. -/
def State.csrStore (s : State) (u : UnitId) (o v mask : Nat) : State :=
  (fieldsAt u o).foldl (fun s e =>
    let f := e.1
    let m := mask / 2 ^ f.lo % 2 ^ f.width
    let new := v / 2 ^ f.lo % 2 ^ f.width
    let old := s.rdi u f e.2
    match f.acc with
    | .rw => s.wri u f e.2 ((old &&& (2 ^ f.width - 1 - m)) ||| (new &&& m))
    | .w1c => s.wri u f e.2 (old - (old &&& (new &&& m)))
    | _ => s) s

/-- Bits lo.. of a written value. -/
def slice (v lo w : Nat) : Nat := v / 2 ^ lo % 2 ^ w

/-- R61, R107: is a merged M-core register value refused? -/
def State.mRefused (s : State) (g t o v : Nat) : Bool :=
  match o with
  | 0x10 => decide (4 < slice v 1 3) || decide (4 < slice v 4 3) || decide (2 < slice v 7 3) || decide (slice v 10 2 = 3)
      || decide (slice v 15 2 = 3)
  | 0x18 => decide (slice v 0 14 % 64 ≠ 0) || decide (slice v 0 14 < 64) || decide (8192 < slice v 0 14)
      || decide (slice v 16 13 % 16 ≠ 0) || decide (slice v 16 13 < 16) || decide (4096 < slice v 16 13)
  | 0x28 => decide (slice v 8 8 = 0)
  | 0x30 => decide (slice v 8 8 = 0)
  | 0x78 => decide (slice v 2 1 = 1) && decide (s.rd (.tile g t) Reg.mcoreCtrlMode = 1)
  | _ => false

/-- M-core registers writable only with RUN = 0 (R61, R107). -/
def mStopped (o : Nat) : Bool := [0x10, 0x18, 0x28, 0x30, 0x40, 0x48, 0x78].contains o || decide (0x200 ≤ o)

/-- A write of an M-core register (R61, R107): `v` is the merged value, `mask` the bits written. -/
def State.mWrite (s : State) (g t o v mask : Nat) : State :=
  let u := UnitId.tile g t
  let run := s.flag u Reg.mcoreCtrlRun
  if o = 8 then
    let s := if mask.testBit 1 then mcoreModeWrite g t (v.testBit 1) s else s
    let s := if mask.testBit 0 then mcoreRunWrite g t (v.testBit 0) s else s
    let s := if mask.testBit 2 && v.testBit 2 then mcoreDrain g t (s.batchDrain g t) else s
    if mask.testBit 3 && v.testBit 3 then gateReleaseWrite g t s else s
  else if o = 0x20 then mcoreGateWrite g t (BitVec.ofNat 64 v) s
  else if run && mStopped o then
    -- R107: META_ERR is W1C in a register that RUN protects
    s.mIgnore g t
  else if s.mRefused g t o v then s.mIgnore g t
  else
    let s := s.csrStore u o v mask
    if o = 0x48 then s.reseedEpilogue g t else s

/-- R118, R126: is a merged V-core register value refused? -/
def vRefused (o v : Nat) : Bool :=
  match o with
  | 0x10 => decide (5 < slice v 0 3) || decide (5 < slice v 3 3) || decide (slice v 6 2 = 3)
      || (v.testBit 11 && (decide (slice v 20 12 = 0) || decide (512 < slice v 20 12)))
  | 0x30 => decide (slice v 24 2 = 3)
  | _ => false

/-- A write of a V-core register (R115, R117, R118, R126). -/
def State.vWrite (s : State) (g t o v mask : Nat) : State :=
  let u := UnitId.tile g t
  let run := s.flag u Reg.vcoreCtrlRun
  let ign := s.wr u Reg.vcoreStatusCfgWrIgn 1
  if o = 8 then
    let s := if mask / 4 % 4 ≠ 0 then vcoreSetWrite g t (slice v 2 2) s else s
    let s := if mask.testBit 0 then s.wr u Reg.vcoreCtrlRun (slice v 0 1) else s
    if mask.testBit 1 && v.testBit 1 then vcoreDrain g t (s.batchDrain g t) else s
  else if run && [0x10, 0x18, 0x20, 0x28, 0x30].contains o then ign
  else if vRefused o v then ign
  else if 0x40 ≤ o ∧ o < 0x100 then
    let set := (o - 0x40) / 0x30
    if run && decide (s.rd u Reg.vcoreCtrlSet = set) then ign
    else
      let s' := s.csrStore u o v mask
      if setRefused ((List.range 6).map (fun n => s'.stage g t set n)) then ign else s'
  else
    let s := s.csrStore u o v mask
    if o = 0x20 then s.reseedVector g t else s

/-- R127: set SCORE_CTRL.RUN: execution starts at SCORE_BOOT; cleared, the S-core stops. -/
def State.scoreRun (s : State) (g : Nat) (v : Bool) : State :=
  let u := UnitId.tile g 5
  let was := s.flag u Reg.scoreCtrlRun
  let s := s.wr u Reg.scoreCtrlRun v.toNat
  if v && !was then
    let s : State := { s with waiters := s.waiters.filter (fun w => !(decide (w.pond = g) && decide (w.place = .score))) }
    ((s.setScore g { s.score g with pc := 4 * s.rd u Reg.scoreBootEntry, stall := none, headWait := 0 }).wr u
      Reg.scoreEstatHalted 0).wr u Reg.scoreEstatInHandler 0
  else s

/-- A write of an S-core register (R127). -/
def State.sWrite (s : State) (g o v mask : Nat) : State :=
  let u := UnitId.tile g 5
  if o = 8 then (if mask.testBit 0 then s.scoreRun g (v.testBit 0) else s)
  else if s.flag u Reg.scoreCtrlRun && (o = 0x10 || o = 0x18 || (0x80 ≤ o && o < 0x100)) then s
  else if o = 0x30 && decide (slice v 0 20 = 0) then s
  else
    let s := s.csrStore u o v mask
    -- the enables of causes 2, 6 and 9 are RO 1
    if o = 0x18 then s.wr u Reg.scoreEvtEn (s.rd u Reg.scoreEvtEn ||| 0x122) else s

/-- A write of an A-unit register (R167, R153). -/
def State.aWrite (s : State) (g t o v mask : Nat) : State :=
  let u := UnitId.tile g t
  if o = 8 then
    let s := if mask.testBit 0 then s.wr u Reg.auCtrlRun (slice v 0 1) else s
    let s := if mask.testBit 1 && v.testBit 1 then auDrain g t true (s.batchDrain g t) else s
    (List.range 4).foldl (fun s n => if mask.testBit (4 + n) && v.testBit (4 + n) then abortGenerator g t n s else s) s
  else s.csrStore u o v mask

/-- R264: HW_CLR: the high-water fields of RTR_DEPTH return to 0. -/
def State.clearDepth (s : State) (g t : Nat) : State :=
  (List.range 6).foldl (fun s p =>
    let u := UnitId.tile g t
    (((s.wri u Reg.rtrDepthVc0Hw p 0).wri u Reg.rtrDepthVc1 p 0).wri u Reg.rtrDepthVc2 p 0).wri u Reg.rtrDepthVc3 p 0) s

/-- A write of a router register (R174, R180, R197, R264, R312); `svc`: over the service plane. -/
def State.rWrite (s : State) (g t o v mask : Nat) (svc : Bool) : State :=
  let u := UnitId.tile g t
  if o < 0x800 then
    let ign := s.wr u Reg.rtrStatusCfgWrIgn 1
    if !svc then ign
    else if o = 0x408 && (decide (slice v 0 8 = 0) || decide (slice v 16 16 = 0)) then ign
    else
      let s := s.csrStore u o v mask
      if o = 0x410 && mask.testBit 3 && v.testBit 3 then s.clearDepth g t else s
  else
    let ign := s.wr u Reg.rtrQstatCfgWrIgn 1
    let cfg := (0x800 ≤ o ∧ o < 0x8E0) ∨ (0xB00 ≤ o ∧ o < 0xB40)
    let steer := 0x8C0 ≤ o ∧ o < 0x8E0
    if cfg ∧ s.tileRun g t then ign
    -- R6: 1s in reserved bits are no refused value
    else if decide (tileType t = .a) && decide (0x840 ≤ o) && decide (o < 0x8C0)
        && (fieldsAt u o).any (fun e => decide (slice v e.1.lo e.1.width ≠ 0)) then ign
    else if steer ∧ isGateUnit t ((o - 0x8C0) / 8) then ign
    else if steer ∧ (4 < slice v 0 3 ∨ slice v 32 8 = 0) then ign
    else
      let s := s.csrStore u o v mask
      if steer then s.setSteer g t ((o - 0x8C0) / 8) Steer.idle else s

/-- R435: arm a broadcast receiver: all missing bits of its chunks set. -/
def State.armReceiver (s : State) (g : Nat) : State :=
  let n := s.rd (.pond g) Reg.pondBcCfgChunks
  let s := (List.range 64).foldl (fun s w =>
    s.wri (.pond g) Reg.pondBcMiss w (2 ^ (Min.min 64 (n - 64 * w)) - 1)) s
  (s.wr (.pond g) Reg.pondBcStatMissing n).wr (.pond g) Reg.pondBcStatDigestOk 0

/-! Boundaries that close (R414–R416). -/

/-- The tiles of a pond. -/
def tilesOf (g : Nat) : List Nat := (List.range 16).map (fun t => 16 * g + t)

/-- R415: generators abort their queued descriptors. -/
def State.dropQueued (s : State) (i : Nat) : State :=
  if tileType (i % 16) = .a then (List.range 4).foldl (fun s n => s.genDiscard (i / 16) (i % 16) n) s else s

/-- RUN of a tile's unit cleared. -/
def State.stopTile (s : State) (i : Nat) : State :=
  let u := UnitId.tile (i / 16) (i % 16)
  match tileType (i % 16) with
  | .m => s.wr u Reg.mcoreCtrlRun 0
  | .v => s.wr u Reg.vcoreCtrlRun 0
  | .a => s.wr u Reg.auCtrlRun 0
  | .s => s.wr u Reg.scoreCtrlRun 0

/-- R415, R416: the boundary closes around tiles: RUN cleared, queued descriptors aborted, arriving traffic absorbed. -/
def State.closeTiles (s : State) (l : List Nat) : State :=
  let s := l.foldl (fun s i => (s.stopTile i).dropQueued i) s
  { s with
    closed := s.closed ++ l.filter (fun i => !s.closed.contains i)
    drainDone := s.drainDone.filter (fun i => !l.contains i) }

/-- R208, R232: the pond is good, in no partition and not under reset. -/
def State.freePond (s : State) (g : Nat) : Bool :=
  s.goodPond g && (s.partOf g).isNone && s.closed.all (fun i => decide (i / 16 ≠ g))

/-- R414, R435: a write of POND_RST_CTRL for a pond in the free pool: COLD closes the boundary of the whole pond, each TILE bit that of
one tile; the commands COLD and TILE carry on. Any other pond discards the write. -/
def State.rstCtrl (s : State) (g v : Nat) : State :=
  if !s.freePond g then s.wr (.pond g) Reg.pondRstStatCfgWrIgn 1
  else if v.testBit 0 then s.closeTiles (tilesOf g)
  else s.closeTiles (((List.range 16).filter (fun t => v.testBit (16 + t))).map (fun t => 16 * g + t))

/-- A write of a pond register (R140, R144, R166, R198, R435). -/
def State.pWrite (s : State) (g o v mask : Nat) (svc : Bool) : State :=
  let u := UnitId.pond g
  let ign := s.wr u Reg.pondRstStatCfgWrIgn 1
  if o = 0x200 then
    if s.inRunning g ∨ 4 < slice v 0 3 then (if mask % 16 = 0 then s else ign)
    else
      let s := if mask.testBit 3 then s.wr u Reg.pondMemCfgPatrolEn (slice v 3 1) else s
      if mask % 8 ≠ 0 then cacheMib g (slice v 0 3) s else s
  else if o = 0x210 then cacheCommand g (slice v 0 2) (v.testBit 2) (slice v 3 6) (v.testBit 9) s
  else if o = 0x380 then s.rstCtrl g (v &&& mask)
  else if o = 0x3A8 ∨ (0x3C0 ≤ o ∧ o < 0x3E0) then
    if !svc then ign
    else
      let s' := s.csrStore u o v mask
      if o = 0x3A8 && mask.testBit 50 && v.testBit 50 then s'.armReceiver g else s'
  else s.csrStore u o v mask

/-- CSR_WRITE (R61) of units 0–17 and of the plain registers of the others: the bits of `mask` of the register at an
8-byte offset take those of `v`. `svc`: the write comes over the service plane. -/
def State.csrWrite (s : State) (u : UnitId) (o v mask : Nat) (svc : Bool) : State :=
  let merged := maskMerge (s.csrRead u o) v mask
  match u with
  | .tile g t =>
    if 0x400 ≤ o then s.rWrite g t o merged mask svc
    else match tileType t with
      | .m => s.mWrite g t o merged mask
      | .v => s.vWrite g t o merged mask
      | .a => s.aWrite g t o merged mask
      | .s => s.sWrite g o merged mask
  | .pond g => s.pWrite g o merged mask svc
  | .dram f =>
    if o = 0x10 && decide (slice merged 16 16 = 0) then s
    else if o = 0x18 && (decide (slice merged 0 7 = 0) || decide (100 < slice merged 0 7) || decide (slice merged 8 7 = 0)
        || decide (100 < slice merged 8 7)) then s
    else s.csrStore (.dram f) o v mask
  | _ => s.csrStore u o v mask

end Sys2Proof.Machine
end

