-- ==== Sys2Proof/Machine/Targets.lean ====
section
/-! DEFINITION. Where requests arrive: the tile array and the DRAM channel controllers (R19, R20, R155–R162, R186,
R190–R193, R221, R226, R227, R240–R242, R416). -/

namespace Sys2Proof.Machine

/-! DRAM controllers (R155). -/

/-- A field's controllers. -/
def State.dram (s : State) (f : Nat) : DramSt := s.drams.get f DramSt.init
/-- Write a field's controllers. -/
def State.setDram (s : State) (f : Nat) (d : DramSt) : State := { s with drams := s.drams.set f DramSt.init d }

/-- R155: good channels of the interleave in ascending order. -/
def DramSt.list (d : DramSt) : List Nat := (List.range 32).filter (fun c => d.chans.testBit c)
/-- R155: the channel that serves a field-window offset. -/
def DramSt.chan (d : DramSt) (o : Nat) : Nat := d.list.getD (o / 256 % Max.max d.list.length 1) 0
/-- R155: the byte address within the channel. -/
def DramSt.within (d : DramSt) (o : Nat) : Nat := o / 256 / Max.max d.list.length 1 * 256 + o % 256
/-- R155: usable bytes of the field. -/
def DramSt.usable (d : DramSt) : Nat := 3 * 2 ^ 30 * d.list.length

/-- Byte offset in the field window. -/
def dramOff (d : Nat) : Nat := d % 2 ^ 37

/-! Arriving at a target. -/

/-- The packet of flight n at its destination tile, when it is the head of its input buffer and the tile's routers are
clocked. -/
def State.atTile (s : State) (n : Nat) : Option (Nat × Nat × Packet) :=
  match s.net.flights[n]? with
  | none => none
  | some x =>
    match x.place with
    | .router i _ =>
      if s.atGoal x && (s.heads i).any (fun e => decide (e.1 = n)) && !s.lakeAsleep i then some (i / 16, i % 16, x.pkt)
      else none
    | _ => none

/-- The packet of flight n at its destination strip, with no earlier ordered packet of its sender and class before it. -/
def State.atStrip (s : State) (n : Nat) : Option (Nat × Packet) :=
  match s.net.flights[n]? with
  | none => none
  | some x =>
    match x.place with
    | .strip f =>
      let blocked := (s.net.flights.take n).any (fun y => decide (y.place = .strip f) && y.pkt.ordered && x.pkt.ordered
        && decide (y.pkt.src = x.pkt.src) && decide ((8 ≤ y.pkt.typ) = (8 ≤ x.pkt.typ)))
      if s.atGoal x && !blocked then some (f, x.pkt) else none
    | _ => none

/-! Answers of a target tile. -/

/-- SRC of the router of a tile. -/
def State.meTile (s : State) (g t : Nat) : Nat := srcTile s.rank g t 0

/-- A NACK of a kind to a request; counted arrival counts it (R190). -/
def State.nackFrom (s : State) (g t : Nat) (p : Packet) (kind : Nat) : State :=
  (s.countArrival g p).respond (s.meTile g t) p.src 0xA 0 p.tag (decide (p.typ = 3 ∨ p.typ = 7)) (nackPayload kind p.dest)

/-- R19: a refusal by the target's router, with its REFUSED record. -/
def State.refuseTile (s : State) (g t : Nat) (p : Packet) (kind : Nat) : State :=
  (s.recTile g t 32 0x0A 9 (refusedDetail p.dest kind)).nackFrom g t p kind

/-- R240: an ACK that covers one request. -/
def State.ackFrom (s : State) (g t : Nat) (p : Packet) : State :=
  (s.countArrival g p).respond (s.meTile g t) p.src 9 1 p.tag (decide (p.typ = 7)) 1

/-- R416: a closed boundary absorbs a request. -/
def State.absorb (s : State) (g t : Nat) (p : Packet) : State :=
  (s.count (.pond g) Reg.pondRstAbsorb Reg.pondRstWrap 0 1).nackFrom g t p 15

/-- R254: a failed unit at the destination: UNIT_ABSENT, counted in RTR_NACK. -/
def State.nackAbsent (s : State) (g t : Nat) (p : Packet) : State :=
  (s.count (.tile g t) Reg.rtrNack Reg.rtrGwrap 1 1).refuseTile g t p 2

/-- The unit of a strip that a malformed packet is logged at: the one DEST names, else the field supervisor. -/
def State.strayUnit (s : State) (f : Nat) (p : Packet) : Nat :=
  if dSpace p.dest = 0xC then p.dest % 128
  else if dSpace p.dest = 8 then 37
  else if dSpace p.dest = 0 then (s.dram f).chan (dramOff p.dest)
  else 36

/-- R242: a packet of TYPE `typ`, or of a reserved one, that reaches a strip and is malformed is discarded there; so is one for a
host window at a strip without a host bridge, as misdelivered. -/
def State.strayStrip (s : State) (n typ : Nat) : State :=
  match s.atStrip n with
  | none => s
  | some (f, p) =>
    if p.typ ≠ typ ∧ p.typ < 12 then s
    else if p.malformed then (s.dropFlight n).discardStrip f (s.strayUnit f p) 0x0F p
    else if dSpace p.dest = 8 ∧ ¬ [19, 20, 27, 28].contains f then (s.dropFlight n).discardStrip f 36 0x10 p
    else s

/-- Flight n, blocked at its destination, is a head that could not leave (R250). -/
def State.stalled (s : State) (n : Nat) : State :=
  match s.net.flights[n]? with
  | some x => (match x.place with | .router i p => s.noteStall i p | _ => s)
  | none => s

/-- A request of TYPE `typ` at its destination tile: discarded, absorbed, refused as absent, or served by `serve`, which
answers none when the request waits where it is. It waits while its router has no room for the response. -/
def State.arriveTile (s : State) (n typ : Nat) (serve : State → Nat → Nat → Packet → Option State) : State :=
  match s.atTile n with
  | none => s.strayStrip n typ
  | some (g, t, p) =>
    if p.typ ≠ typ ∧ p.typ < 12 then s
    else if p.malformed then (s.eject n (16 * g + t)).discardTile g t 0x0F p
    else if p.typ ≠ typ then s
    else if !s.answerRoom (16 * g + t) (decide (typ = 3 ∨ typ = 7)) then s.stalled n
    else if s.resetting g t then (s.eject n (16 * g + t)).absorb g t p
    else if s.absent p.dest then (s.eject n (16 * g + t)).nackAbsent g t p
    else match serve (s.eject n (16 * g + t)) g t p with
      | some s' => s'
      | none => s.stalled n

/-! READ and WRITE in the tile array (R20, R128, R137, R186, R240). -/

/-- R20: the sender may reach control registers of pond g: its own partition, or the service side. -/
def State.csrAllowed (s : State) (src g : Nat) : Bool :=
  srcIsStrip src || (decide (srcRank src = s.rank) && (s.partOf g).isSome && decide (s.srcPart src = s.partOf g))

/-- R19, R20, R140, R221: the kind with which pond g refuses an access of n bytes; `w` a write. -/
def State.tileKind (s : State) (g : Nat) (p : Packet) (w : Bool) : Nat :=
  let d := p.dest
  let n := p.len + 1
  match dSpace d with
  | 1 => if !s.granted p.src g w.toNat then 4 else if s.scratch g < dOff d + n then 1 else 0
  | 2 => if !s.granted p.src g w.toNat then 4 else if 2 ^ 18 < dOff d + n then 1 else 0
  | 3 => if !s.csrAllowed p.src g then 4 else 0
  | _ => if !s.granted p.src g (if w then 3 else 4) then 4 else if 1024 < dOff d + n then 1 else 0

/-- Memory key of an address in spaces 1 and 2. -/
def tileKey (d : Nat) : Nat := if dSpace d = 1 then pondKey (dPond d) (dOff d) else coreKey (dPond d) (dUnit d) (dOff d)

/-- R456: the bytes read from a register by a packet: the pond's S-core latches, anyone else reads live. -/
def State.csrBytes (s : State) (src d n : Nat) : Nat × State :=
  let u := csrUnit d
  let o := dOff d
  if n = 4 ∧ o % 4 = 0 ∧ srcTileN src = 5 ∧ srcSub src = 0 ∧ srcPond src = dPond d then s.csrRead32 u o 0
  else (leNat ((List.range n).map (fun i => BitVec.ofNat 8 (s.csrRead u ((o + i) / 8 * 8) / 2 ^ (8 * ((o + i) % 8))))), s)

/-- Bytes of a spring space read. -/
def State.springBytes (s : State) (d n : Nat) : Nat :=
  leNat ((List.range n).map (fun i => let o := dOff d + i
    BitVec.ofNat 8 (s.springRead (dPond d) (o / 16 % 64) (o % 16 / 8) / 2 ^ (8 * (o % 8)))))

/-- R240: RDATA with LEN + 1 bytes. -/
def State.dataFrom (s : State) (me : Nat) (p : Packet) (v : Nat) : State :=
  s.respond me p.src 8 p.len p.tag false (BitVec.ofNat 256 (v % 2 ^ (8 * (p.len + 1))))

/-- A READ that its target tile accepts. -/
def State.serveRead (s : State) (g t : Nat) (p : Packet) (ecc : Ecc) : State :=
  let d := p.dest
  let n := p.len + 1
  let k := s.tileKind g p false
  if k ≠ 0 then s.refuseTile g t p k
  else
    match dSpace d with
    | 3 => let r := s.csrBytes p.src d n
           r.2.dataFrom (s.meTile g t) p r.1
    | 4 => s.dataFrom (s.meTile g t) p (s.springBytes d n)
    | _ =>
      let unit := if dSpace d = 1 then 16 else dUnit d
      let s := s.sramEcc g unit (dOff d) (tileKey d) ecc
      if s.sramBad (tileKey d) n then (s.sramLoss g unit (dOff d) 9).nackFrom g t p 5
      else s.dataFrom (s.meTile g t) p (s.memNat (tileKey d) n)

/-- R465: while Geper sweeps, a write of a wrap register from a core or from the host is discarded and counted. -/
def State.wrapIgnored (s : State) (u : UnitId) (o : Nat) : Bool :=
  decide (s.rd .hub Reg.svcTelemCtrlEn = 1) && isWrapReg u o

/-- A write of n bytes at offset o of a unit's registers by a core or the host. -/
def State.csrWriteBytes (s : State) (u : UnitId) (o n v : Nat) (svc : Bool) : State :=
  (List.range (n / 8 + 2)).foldl (fun s i =>
    let r := (o / 8 + i) * 8
    let bytes := (List.range 8).filter (fun b => decide (o ≤ r + b) && decide (r + b < o + n))
    if bytes = [] then s
    else
      let val := (bytes.map (fun b => v / 2 ^ (8 * (r + b - o)) % 256 * 2 ^ (8 * b))).foldl (· + ·) 0
      let mask := (bytes.map (fun b => 255 * 2 ^ (8 * b))).foldl (· + ·) 0
      if s.wrapIgnored u r then s.sat .hub Reg.svcTelemWrIgnCount 1 else s.csrWrite u r val mask svc) s

/-- A WRITE that its target tile accepts. -/
def State.serveWrite (s : State) (g t : Nat) (p : Packet) : State :=
  let d := p.dest
  let n := p.len + 1
  let k := s.tileKind g p true
  if k ≠ 0 then s.refuseTile g t p k
  else
    match dSpace d with
    | 3 => (s.csrWriteBytes (csrUnit d) (dOff d) n p.payload.toNat false).ackFrom g t p
    | 4 => (s.springWrite g (dOff d) ((bvBytes 32 p.payload).take (Min.min n (16 - dOff d % 16)))).ackFrom g t p
    | _ =>
      if s.partialBad (tileKey d) n then s.nackFrom g t p 5
      else ((s.putMem (tileKey d) ((bvBytes 32 p.payload).take n)).healSram (tileKey d) n).ackFrom g t p

/-! QENTRY (R169, R173, R184, R190, R395). -/

/-- QENTRY: the entry goes into its queue, or waits while the queue refuses it and RTR_QSTALL counts. -/
def qentry (n : Nat) (s : State) : State :=
  s.arriveTile n 2 (fun s' g t p =>
    let d := p.dest
    if !s'.granted p.src g 2 then some (s'.refuseTile g t p 4)
    else match s'.push g t false (dQueue d) ⟨dKind d, p.payload⟩ with
      | some s' => some (((s'.opalAbort g t).batchAll g t).ackFrom g t p)
      | none => some ((s.stalled n).queueStall g t false (dQueue d) 1))

/-! SIGNAL (R185, R190–R193). -/

/-- R192: SIGACK with a grant bit. -/
def State.sigAck (s : State) (g src tag : Nat) (grant : Bool) : State :=
  s.respond (s.meTile g 5) src 0xB 0 tag true (BitVec.ofNat 256 grant.toNat)

/-- Replace a sender's entry. -/
def State.modArr (s : State) (g src : Nat) (f : ArrEnt → ArrEnt) : State :=
  s.setArrTab g ((s.arrTab g).map (fun e => if e.src = src then f e else e))

/-- R192, R193: a signal at its pond. Signals of strip units are applied at once with grant 0. -/
def State.serveSignal (s : State) (g t : Nat) (p : Packet) : State :=
  let spring := dOff p.dest / 16 % 64
  let amt := p.payload.toNat % 2 ^ 32
  let cnt := p.payload.toNat / 2 ^ 32 % 2 ^ 24
  if !s.granted p.src g 3 then s.refuseTile g t p 4
  else if srcIsStrip p.src then (s.applySignal g spring amt).sigAck g p.src p.tag false
  else
    match (s.arrTab g).find? (fun e => decide (e.src = p.src)) with
    | some e =>
      if p.counted then
        if cnt ≤ e.cnt p.parity then
          ((s.modArr g p.src (fun e => e.setCnt p.parity (e.cnt p.parity - cnt))).applySignal g spring amt).sigAck g p.src
            p.tag true
        else s.modArr g p.src (fun e => { e with held := some ⟨spring, amt, cnt, p.parity, p.tag⟩ })
      else
        let s := match e.held with | some h => s.applySignal g h.spring h.amt | none => s
        ((s.applySignal g spring amt).modArr g p.src (fun e => { e with cnt0 := 0, cnt1 := 0, held := none })).sigAck g
          p.src p.tag true
    | none =>
      if p.counted then (s.applySignal g spring amt).sigAck g p.src p.tag false
      else
        let s := s.applySignal g spring amt
        if (s.arrTab g).length < 16 then
          (s.setArrTab g (s.arrTab g ++ [(⟨p.src, 0, 0, none⟩ : ArrEnt)])).sigAck g p.src p.tag true
        else (s.sat (.pond g) Reg.pondArrDeny 1).sigAck g p.src p.tag false

/-- SIGNAL. -/
def signal (n : Nat) (s : State) : State := s.arriveTile n 3 (fun s g t p => some (s.serveSignal g t p))

/-- HELD_SIGNAL_APPLY (R192): `dt` core cycles with a signal held; a held signal whose packets have arrived is applied
and acknowledged with grant 1. -/
def heldSignalApply (g dt : Nat) (s : State) : State :=
  let s := if (s.arrTab g).any (fun e => e.held.isSome) then s.count (.pond g) Reg.pondSigHeld Reg.pondSprWrap 0 dt else s
  (s.arrTab g).foldl (fun s e =>
    match e.held with
    | none => s
    | some h =>
      if h.n ≤ e.cnt h.parity then
        ((s.modArr g e.src (fun e => { e.setCnt h.parity (e.cnt h.parity - h.n) with held := none })).applySignal g h.spring
          h.amt).sigAck g e.src h.tag true
      else s) s

/-- RELEASE (R189): the sender's entry is freed. -/
def release (n : Nat) (s : State) : State :=
  s.arriveTile n 7 (fun s g t p => some ((s.setArrTab g ((s.arrTab g).filter (fun e => decide (e.src ≠ p.src)))).ackFrom g t p))

/-! DRAM (R155–R162). -/

/-- R157: PART of a DRAM_UNCORR record. -/
def State.dramPart (s : State) (src : Nat) : Nat :=
  if srcIsStrip src || decide (srcRank src ≠ s.rank) || !s.inRunning (srcPond src) then 0xFF else s.partByte (srcPond src)

/-- R157: a burst beyond correction: counted, kept in DRAM_ERR_LAST, logged. -/
def State.dramLoss (s : State) (f o part op : Nat) : State :=
  let u := UnitId.dram f
  let ch := (s.dram f).chan o
  let b := o / 64 * 64
  let s := (s.sat u Reg.dramEccUnc 1).wr u Reg.dramErrLastOffset b
  let s := (s.wr u Reg.dramErrLastChannel ch).wr u Reg.dramErrLastValid 1
  s.recStrip f ch 7 op part (b % 2 ^ 37 + ch * 2 ^ 37 + 2 ^ 63)

/-- R157: what the ECC of a burst finds. -/
def State.dramEcc (s : State) (f o : Nat) (e : Ecc) : State :=
  match e with
  | .good => s
  | .corrected => s.sat (.dram f) Reg.dramEccCorr 1
  | .uncorrectable => { s with bad := s.bad.set (dramKey f (o / 64 * 64)) false true }

/-- R71, R81, R160, R260: combine two 32-byte operands, `a` first, in format `fmt` (0 F32, 1 F16, 2 G16) with operation
`op` (0 sum, 1 maximum, 2 minimum). -/
def combine32 (fmt op : Nat) (num : Bool) (a b : Nat) : Nat :=
  let f : NFmt := match fmt with | 0 => .f32 | 1 => .f16 | _ => .g16
  let one (x y : Nat) : Nat :=
    match op with
    | 0 => f.add x y
    | 1 => f.rnd (Num.max num (f.decode x) (f.decode y))
    | _ => f.rnd (Num.min num (f.decode x) (f.decode y))
  ((List.range (256 / f.bits)).map (fun i => one (packedAt f a i) (packedAt f b i) * 2 ^ (f.bits * i))).foldl (· + ·) 0

/-- An answer of a channel controller. -/
def State.dramAnswer (s : State) (f : Nat) (p : Packet) (typ len : Nat) (payload : BitVec 256) : State :=
  s.respond (srcStrip s.rank f ((s.dram f).chan (dramOff p.dest))) p.src typ len p.tag false payload

/-- R157, R162: a NACK of a channel controller. -/
def State.dramNack (s : State) (f : Nat) (p : Packet) (kind : Nat) : State :=
  s.dramAnswer f p 0xA 0 (nackPayload kind p.dest)

/-- A channel counter counts one. -/
def State.chCount (s : State) (f ch : Nat) (r : Fld) (bit n : Nat) : State :=
  s.counti (.dram f) r ch Reg.dramChWrap ch bit n

/-- R160, R161: one accumulate on a good burst. -/
def State.raccApply (s : State) (f : Nat) (p : Packet) : State :=
  let o := dramOff p.dest
  let v := combine32 p.len 0 false (s.memNat (dramKey f o) 32) p.payload.toNat
  let s := s.dramPut f o (leBytes 32 v)
  let s := s.wr (.dram f) Reg.dramRacc (s.rd (.dram f) Reg.dramRacc + 1)
  s.dramAnswer f p 9 1 1

/-- One write is applied and acknowledged. -/
def State.dramStore (s : State) (f : Nat) (p : Packet) : State :=
  (s.dramPut f (dramOff p.dest) ((bvBytes 32 p.payload).take (p.len + 1))).dramAnswer f p 9 1 1

/-- R156, R157, R160: requests to one burst that share a read of it, in order: the burst is read and, when they change it, written
once; a burst beyond correction is lost to each of them. -/
def State.dramServe (s : State) (f : Nat) (ps : List Packet) (ecc : Ecc) : State :=
  let d := s.dram f
  match ps with
  | [] => s
  | p :: _ =>
    let o := dramOff p.dest / 64 * 64
    let ch := d.chan o
    if d.dead.testBit ch then ps.foldl (fun s p => s.dramNack f p 5) s
    else
      let s := (s.chCount f ch Reg.dramChRd 0 1).dramEcc f o ecc
      if s.dramBad (dramKey f o) 64 || s.dramBad (dramKey f (dramOff p.dest)) (if p.typ = 4 then 32 else p.len + 1) then
        ps.foldl (fun s p => s.dramNack f p 5) (s.dramLoss f o (s.dramPart p.src) 9)
      else
        let s := if p.typ = 0 then s else s.chCount f ch Reg.dramChWr 1 1
        ps.foldl (fun s p => match p.typ with
          | 0 => s.dramAnswer f p 8 p.len (BitVec.ofNat 256 (s.memNat (dramKey f (dramOff p.dest)) (p.len + 1)))
          | 1 => s.dramStore f p
          | _ => s.raccApply f p) s

/-- R156, R157: two writes that fill a burst replace it, unread, with one write. -/
def State.dramFill (s : State) (f : Nat) (p q : Packet) : State :=
  let d := s.dram f
  let o := dramOff p.dest / 64 * 64
  let ch := d.chan o
  if d.dead.testBit ch then (s.dramNack f p 5).dramNack f q 5
  else
    let s := s.chCount f ch Reg.dramChWr 1 1
    (({ s with bad := s.bad.set (dramKey f o) false false } : State).dramStore f p).dramStore f q

/-- Burst of a queued request. -/
def burstOf (p : Packet) : Nat := dramOff p.dest / 64

/-- R157: two writes that together fill a burst. -/
def fillsBurst (p q : Packet) : Bool :=
  decide (p.typ = 1) && decide (q.typ = 1) && decide (p.len = 31) && decide (q.len = 31) && decide (burstOf p = burstOf q)
    && decide (p.dest ≠ q.dest)

/-- Serve the n-th held request if no earlier one is for the same burst (R161): a write joined by the next request for
its burst may fill the burst, and two accumulates to the two halves of a burst are applied with one read and one write (R160). -/
def State.dramTake (s : State) (f n : Nat) (ecc : Ecc) : State :=
  let d := s.dram f
  match d.queue[n]? with
  | none => s
  | some p =>
    if (d.queue.take n).any (fun q => decide (burstOf q = burstOf p)) then s
    else
      let rest := d.queue.eraseIdx n
      match rest.zipIdx.find? (fun e => decide (burstOf e.1 = burstOf p)) with
      | some (q, i) =>
        if fillsBurst p q then (s.setDram f { d with queue := rest.eraseIdx i }).dramFill f p q
        else if decide (p.typ = 4) && decide (q.typ = 4) && decide (p.dest ≠ q.dest) then
          (s.setDram f { d with queue := rest.eraseIdx i }).dramServe f [p, q] ecc
        else (s.setDram f { d with queue := rest }).dramServe f [p] ecc
      | none => (s.setDram f { d with queue := rest }).dramServe f [p] ecc

/-- R158: the stack is in the Stopped state. -/
def State.dramStopped (s : State) (f : Nat) : Bool := decide (s.rd (.dram f) Reg.dramThermState = 3)

/-- DRAM_REQUEST (R155): after `dt` service cycles of waiting for a bank, a refresh or a throttle (R159), the channel controller
serves the n-th held request; `ecc` is what the check symbols of its burst show (R157). -/
def dramRequest (f n dt : Nat) (ecc : Ecc) (s : State) : State :=
  match (s.dram f).queue[n]? with
  | none => s
  | some p =>
    if s.dramStopped f then s
    else
      let o := dramOff p.dest
      let s := s.chCount f ((s.dram f).chan o) Reg.dramChStall 2 dt
      s.dramTake f n ecc

/-- A request to space 0x0 reaches the field strip: refused, or held by its channel controller (R19, R158, R227). -/
def State.dramAccept (s : State) (f : Nat) (p : Packet) : State :=
  let d := s.dram f
  let o := dramOff p.dest
  let n := if p.typ = 4 then 32 else p.len + 1
  let ref (s : State) (k : Nat) : State :=
    (s.recStrip f (d.chan o) 0x0A 9 0xFF (refusedDetail p.dest k)).dramNack f p k
  if d.usable < o + n then ref s 1
  else if p.typ ≠ 0 ∧ s.dramReadOnly f o n then ref s 4
  else if s.dramStopped f && d.expired then s.dramNack f p 6
  else s.setDram f { d with queue := d.queue ++ [p] }

/-- A request of TYPE `typ` for DRAM at its strip. -/
def State.arriveDram (s : State) (n typ : Nat) : State :=
  match s.atStrip n with
  | none => s
  | some (f, p) =>
    if p.malformed ∨ dSpace p.dest ≠ 0 then s.strayStrip n typ
    else if p.typ ≠ typ then s
    else (s.dropFlight n).dramAccept f p

/-- READ: at its tile it is answered; at a strip the channel controller takes it. -/
def readReq (n : Nat) (ecc : Ecc) (s : State) : State :=
  match s.atTile n with
  | some _ => s.arriveTile n 0 (fun s g t p => some (s.serveRead g t p ecc))
  | none => s.arriveDram n 0

/-- WRITE. -/
def writeReq (n : Nat) (s : State) : State :=
  match s.atTile n with
  | some _ => s.arriveTile n 1 (fun s g t p => some (s.serveWrite g t p))
  | none => s.arriveDram n 1

/-- RACC (R160): taken by its channel controller, and applied at once when nothing held before it is for its burst and
the stack is not stopped; `ecc` is what the check symbols of its burst show (R157). -/
def raccReq (n : Nat) (ecc : Ecc) (s : State) : State :=
  match s.atStrip n with
  | none => s
  | some (f, p) =>
    let s' := s.arriveDram n 4
    if p.typ = 4 ∧ ¬ s'.dramStopped f ∧ (s.dram f).queue.length < (s'.dram f).queue.length then
      s'.dramTake f (s.dram f).queue.length ecc
    else s'

/-- DRAM_PATROL (R157): the patrol reads and corrects a burst; `pass` when that ends a pass over the field. A corrected burst is
written (DEDUCED, log entry 15). -/
def dramPatrol (f o : Nat) (ecc : Ecc) (pass : Bool) (s : State) : State :=
  let u := UnitId.dram f
  if s.rd u Reg.dramPatrolEn = 0 ∨ s.dramStopped f then s
  else
    let ch := (s.dram f).chan o
    let s := (s.chCount f ch Reg.dramChRd 0 1).dramEcc f o ecc
    let s := if ecc = .corrected then s.chCount f ch Reg.dramChWr 1 1 else s
    let s := if s.dramBad (dramKey f (o / 64 * 64)) 64 then s.dramLoss f o 0xFF 13 else s
    if pass then s.sat u Reg.dramPatrolPasses 1 else s

/-- R158: writes and accumulates accepted before a stop complete, with the reads of their burst before them. -/
def State.dramComplete (s : State) (f : Nat) : Nat → State
  | 0 => s
  | fuel + 1 =>
    let q := (s.dram f).queue
    match q.zipIdx.find? (fun e => decide (e.1.typ ≠ 0)
        || (q.drop e.2).any (fun x => decide (x.typ ≠ 0) && decide (burstOf x = burstOf e.1))) with
    | none => s
    | some e => State.dramComplete (s.dramTake f e.2 .good) f fuel

/-- R158: the state for a stack temperature in 0.25 °C steps, with 2 °C of hysteresis. -/
def dramThermal (old temp : Nat) : Nat :=
  let up := if 420 ≤ temp then 3 else if 380 < temp then 2 else if 340 < temp then 1 else 0
  if old ≤ up then up
  else
    let out (st : Nat) : Bool := match st with
      | 3 => decide (temp < 400) | 2 => decide (temp ≤ 372) | _ => decide (temp ≤ 332)
    if old = 3 then (if out 3 then (if 372 < temp then 2 else if 332 < temp then 1 else 0) else 3)
    else if old = 2 then (if out 2 then (if 332 < temp then 1 else 0) else 2)
    else (if out 1 then 0 else 1)

/-- DRAM_STATE (R158): the hottest stack sensor reads `temp`; a change of state is reported and posted. -/
def State.dramSample (s : State) (f temp : Nat) : State :=
  let u := UnitId.dram f
  let old := s.rd u Reg.dramThermState
  let new := dramThermal old temp
  let s := s.wr u Reg.dramThermTemp temp
  if new = old then s
  else
    let s := if new = 3 then s.dramComplete f (s.dram f).queue.length else s
    let s := s.wr u Reg.dramThermState new
    let s := if old = 3 then s.setDram f { s.dram f with expired := false } else s
    s.postEvent 0x17 0 f new 0xFF

/-- DRAM_STOPPED (R158): the stack has been stopped longer than HOLD_MS: the held requests are answered DRAM_STOPPED. -/
def dramStoppedCmd (f : Nat) (s : State) : State :=
  if !s.dramStopped f then s
  else
    let q := (s.dram f).queue
    q.foldl (fun s p => s.dramNack f p 6) (s.setDram f { s.dram f with queue := [], expired := true })

/-- CHANNEL_FAIL (R162): a channel fails in service: DATA_LOSS from then on, the overlay mark, and R26. -/
def channelFail (f ch : Nat) (s : State) : State :=
  let d := s.dram f
  if d.dead.testBit ch ∨ ¬ d.chans.testBit ch then s
  else (s.setDram f { d with dead := d.dead + 2 ^ ch }).overField f (8 + ch)

end Sys2Proof.Machine
end

