-- ==== Sys2Proof/Machine/Coll.lean ====
section
/-! DEFINITION. REDUCE at routers, collection slots and collective contexts, and the collectives themselves (R260, R261,
R294–R309). -/

namespace Sys2Proof.Machine

/-! REDUCE packets (R239, R260, R302). -/

/-- EXPECT, with 0 read as 4,096. -/
def Packet.expect (p : Packet) : Nat := if p.bits 40 12 = 0 then 4096 else p.bits 40 12
/-- CNT. -/
def Packet.cnt (p : Packet) : Nat := if p.bits 28 12 = 0 ∧ p.bits 40 12 = 0 then 4096 else p.bits 28 12
/-- OP. -/
def Packet.rop (p : Packet) : Nat := p.bits 26 2
/-- FMT. -/
def Packet.rfmt (p : Packet) : Nat := p.bits 24 2
/-- NUM: LEN bit 9. -/
def Packet.num (p : Packet) : Bool := decide (p.len % 2 = 1)
/-- ROLE: LEN bits 11–10. -/
def Packet.role (p : Packet) : Nat := p.len / 2 % 4

/-- R260, R302: form a REDUCE. -/
def mkReduce (num : Bool) (role tag expect cnt op fmt dest egress : Nat) (data : Nat) : Packet :=
  mkPacket 5 false false false (num.toNat + 2 * role) tag (expect % 4096 * 2 ^ 16 + cnt % 4096 * 2 ^ 4 + op * 4 + fmt) dest
    egress (BitVec.ofNat 256 data)

/-- R260: two REDUCEs combine. -/
def Packet.matches (a b : Packet) : Bool :=
  decide (a.tag = b.tag) && decide (a.dest = b.dest) && decide (a.rop = b.rop) && decide (a.rfmt = b.rfmt)
    && decide (a.len = b.len)

/-- R260: REDUCE n, arriving at a router, combines with one buffered there that takes the same output. -/
def State.reduceCombine (s : State) (n i : Nat) (x : Flight) : State :=
  let win := s.rd (.tile (i / 16) (i % 16)) Reg.rtrCfgCombWin
  if x.pkt.malformed ∨ win = 0 then s
  else
    let out (y : Flight) : Hop := s.hopOf i y.inPort y.pkt
    let able (e : Flight × Nat) : Bool :=
      (match e.1.place with | .router j _ => decide (j = i) | _ => false) && decide (e.2 < n) && decide (e.1.pkt.typ = 5)
        && e.1.pkt.matches x.pkt && decide (out e.1 = out x) && decide (e.1.waited ≤ x.waited + win)
    match s.net.flights.zipIdx.find? able with
    | none => s
    | some (y, m) =>
      let v := combine32 x.pkt.rfmt x.pkt.rop x.pkt.num y.pkt.payload.toNat x.pkt.payload.toNat
      let p := { y.pkt.put 28 12 (y.pkt.bits 28 12 + x.pkt.bits 28 12) with payload := BitVec.ofNat 256 v }
      let s : State := { s with net := { s.net with flights := (s.net.flights.set m { y with pkt := p }).eraseIdx n } }
      s.count (.tile (i / 16) (i % 16)) Reg.rtrCombine Reg.rtrGwrap 0 1

/-! Collection slots (R261). -/

/-- Key of a collection slot. -/
def slotKey (i n : Nat) : Nat := 16 * i + n
/-- An empty slot, never stored. -/
def RSlot.empty : RSlot := ⟨0, 0, 0, 0, false, 0, 0, 0⟩

/-- R261: a conflicting REDUCE: SLOT_ERR, POISON, REDUCE_ERROR. -/
def State.slotErr (s : State) (g t tag : Nat) : State :=
  let s := s.wr (.tile g t) Reg.rtrStatusSlotErr 1
  (s.raise g 2 t).recTile g t 32 0x11 10 (tag + 2 ^ 10)

/-- R261: a full slot writes its elements into the queue and frees itself; it holds while the queue refuses. -/
def State.slotDrain (s : State) (i n : Nat) : State :=
  match s.net.rslots.find? (fun e => decide (e.1 = slotKey i n)) with
  | none => s
  | some (_, x) =>
    if x.cnt ≠ x.expect then s
    else match s.push (i / 16) (i % 16) false (dQueue x.dest) ⟨false, x.data⟩ with
      | none => s.queueStall (i / 16) (i % 16) false (dQueue x.dest) 1
      | some s' =>
        (({ s' with net := { s'.net with rslots := Tab.del s'.net.rslots (slotKey i n) } } : State).opalAbort (i / 16)
          (i % 16)).batchAll (i / 16) (i % 16)

/-- R261: a REDUCE at the router of its queue. -/
def State.reduceSlot (s : State) (n g t : Nat) (p : Packet) : State :=
  let i := 16 * g + t
  let s := s.eject n i
  if p.malformed then s.discardTile g t 0x0F p
  else if s.resetting g t then s
  else if s.absent p.dest then s.recTile g t 32 0x11 10 (p.tag + 2 ^ 11)
  else
    let k := slotKey i (p.tag % 16)
    let put (x : RSlot) (s : State) : State :=
      ({ s with net := { s.net with rslots := s.net.rslots.set k RSlot.empty x } } : State).slotDrain i (p.tag % 16)
    match s.net.rslots.find? (fun e => decide (e.1 = k)) with
    | none =>
      if p.expect < p.cnt then s.slotErr g t p.tag
      else put ⟨p.tag, p.dest, p.rop, p.rfmt, p.num, p.cnt, p.expect, p.payload⟩ s
    | some (_, x) =>
      if x.tag ≠ p.tag ∨ x.dest ≠ p.dest ∨ x.op ≠ p.rop ∨ x.fmt ≠ p.rfmt ∨ x.num ≠ p.num ∨ x.expect < x.cnt + p.cnt then
        s.slotErr g t p.tag
      else
        let v := combine32 x.fmt x.op x.num x.data.toNat p.payload.toNat
        let s := s.count (.tile g t) Reg.rtrCombine Reg.rtrGwrap 0 1
        put { x with cnt := x.cnt + p.cnt, data := BitVec.ofNat 256 v } s

/-- SRC of a context (R302). -/
def State.ctxSrc (s : State) (f c : Nat) : Nat := srcStrip s.rank f (64 + c)

/-- R305, R306: the context signals a spring of PACE_LPOND by 1. -/
def State.collSignal (s : State) (f c : Nat) (r : CollRec) (spring : Nat) : State :=
  match s.pacePond r with
  | some g => (s.sendSignal (s.ctxSrc f c) (springAddr s.rank g spring) 1 .unitSig).2
  | none => s

/-- R302: the egress of a context's packets to a rank: ports[s mod count]. -/
def State.collPort (s : State) (dst shard : Nat) : Option Nat :=
  let direct := s.net.egress.get dst []
  let ports := if direct = [] then (match s.net.relay.get dst 0 with | 0 => [] | t + 1 => s.net.egress.get t []) else direct
  if ports = [] then none else ports[shard % ports.length]?

/-- R302: send a REDUCE from a context to the same context of another rank; none when no port serves it. -/
def State.collSend (s : State) (f c : Nat) (r : CollRec) (dst role p pos shard expect cnt data : Nat) : Option State :=
  let d := mkAddr dst 0xC (f * 2 ^ 37 + 64 + c)
  let pk (e : Nat) := mkReduce r.num role (p * 512 + pos) expect cnt r.op r.fmt d e data
  if dst = s.rank then some (s.launch (pk 0) (.strip f))
  else (s.collPort dst shard).map (fun q => s.launch (pk (q / 4 + 64 * (q % 4))) (.strip f))

/-- Send to each rank of a list; the context fails with PEER_UNREACHABLE when one has no port. -/
def State.collSendAll (s : State) (f c : Nat) (r : CollRec) (dst : List Nat) (role p pos shard expect cnt data : Nat) : State :=
  dst.foldl (fun s k =>
    if (s.cbuf f c p).isNone then s
    else (s.collSend f c r k role p pos shard expect cnt data).getD (s.collFail f c 3 shard)) s

/-- A marker to each rank of a list (R302). -/
def State.collMark (s : State) (f c : Nat) (r : CollRec) (dst : List Nat) (role p shard : Nat) : State :=
  s.collSendAll f c r dst role p 0 shard (if role = 0 then r.contrib else 1) 1 0

/-- R298: engine address of a shard's region. -/
def regionOf (base : Nat) (r : CollRec) (shard : Nat) : Nat := base + shard * r.chunks * 32
/-- R296: where the final data of this rank goes. -/
def CollRec.final (r : CollRec) : Nat := if r.kind = 3 then r.bcast else r.dst
/-- R304: engine address of a staging buffer (b: 0 L, 1 R, 2 O) at a rank. -/
def stageAddr (r : CollRec) (rank f p b : Nat) : Nat := mkAddr rank 0 (f * 2 ^ 37 + r.stage + (3 * p + b) * r.chunks * 32)

/-- A request of a context about buffer p. -/
def State.collReq (s : State) (f c p typ len dest : Nat) (data : Nat) (pur : Purpose) : State :=
  match s.cbuf f c p with
  | none => s
  | some b =>
    (s.setCbuf f c p (some { b with outst := b.outst + 1 })).sendReq (s.ctxSrc f c) typ false len dest
      (BitVec.ofNat 256 data) 1 pur |>.2

/-- R297, R304: buffer p takes a shard, if the collective has it; in memory mode +0 is written over O. -/
def State.collTake (s : State) (f c p shard : Nat) (r : CollRec) : State :=
  if shard < r.shards then
    let s := if r.mem then
        let o := r.stage + (3 * p + 2) * r.chunks * 32
        let s := (s.zeroMem (dramKey f o) (r.chunks * 32)).breakSeals f o (r.chunks * 32)
        { s with bad := s.bad.filter (fun e => !(decide (dramKey f o ≤ e.1) && decide (e.1 + 64 ≤ dramKey f o + r.chunks * 32))) }
      else s
    s.setCbuf f c p (some (CBuf.fresh shard))
  else s.setCbuf f c p none

/-- R305: a buffer is freed, PACE_SPRING is signalled, and the buffer takes its next shard. Under REDUCE a ROLE 3 marker
goes to each child. -/
def State.collFree (s : State) (f c p : Nat) (r : CollRec) (b : CBuf) : State :=
  let s := if r.kind = 0 then s.collMark f c r (s.kids b.shard) 3 p b.shard else s
  if (s.cbuf f c p).isNone then s
  else (s.collSignal f c r r.paceSpring).collTake f c p (b.shard + 96) r

/-- R306: DONE_SPRING, once. -/
def State.collDone (s : State) (f c p : Nat) (r : CollRec) : State :=
  match s.cbuf f c p with
  | none => s
  | some b => if b.done then s else (s.setCbuf f c p (some { b with done := true })).collSignal f c r r.doneSpring

/-- R305, R306: what a link-mode buffer has finished. -/
def State.linkSettle (s : State) (f c p : Nat) (r : CollRec) : State :=
  match s.cbuf f c p with
  | none => s
  | some b =>
    let ups := b.up.length
    let downs := b.down.length
    if b.outst ≠ 0 then s
    else if s.owns b.shard then
      match r.kind with
      | 0 => if ups = r.chunks then (s.collDone f c p r).collFree f c p r b else s
      | 1 => if ups = r.chunks then (s.collDone f c p r).collFree f c p r b else s
      | 2 => if downs = r.chunks then (s.collDone f c p r).collFree f c p r b else s
      | _ =>
        let s := if ups = r.chunks then s.collDone f c p r else s
        if downs = r.chunks then s.collFree f c p r b else s
    else
      match r.kind with
      | 0 => if b.m3 ≠ 0 then (s.collDone f c p r).collFree f c p r b else s
      | _ => if downs = r.chunks then (s.collDone f c p r).collFree f c p r b else s

/-- R295: the partial of a chunk from its slots. -/
def partialOf (r : CollRec) (kids : Nat) (l rr o : Nat) : Nat :=
  let add (x y : Nat) : Nat := combine32 r.fmt r.op r.num x y
  match kids with
  | 0 => o
  | 1 => add l o
  | _ => add (add l rr) o

/-- R303: when every slot of a chunk is full, its partial is formed and acted on. -/
def State.linkForm (s : State) (f c p k : Nat) (r : CollRec) : State :=
  match s.cbuf f c p with
  | none => s
  | some b =>
    let o := b.o.get k (0, 0)
    let l := b.l.get k (0, 0)
    let rr := b.r.get k (0, 0)
    let n := (s.kids b.shard).length
    if b.up.get k 0 ≠ 0 ∨ o.1 ≠ r.contrib ∨ (1 ≤ n ∧ l.1 = 0) ∨ (2 ≤ n ∧ rr.1 = 0) then s
    else
      let v := partialOf r n l.2 rr.2 o.2
      let s := s.setCbuf f c p (some { b with up := b.up.set k 0 1 })
      if s.owns b.shard then
        let s := s.collReq f c p 1 31 (regionOf r.dst r b.shard + 32 * k) v (.coll p)
        let s := if r.kind = 1 then s.collSendAll f c r (s.kids b.shard) 3 p k b.shard 0 0 v else s
        s.linkSettle f c p r
      else
        let vr := s.vrank b.shard
        let s := s.collSendAll f c r [s.rankAt b.shard ((vr - 1) / 2)] (if vr % 2 = 1 then 1 else 2) p k b.shard 0 0 v
        s.linkSettle f c p r

/-- R303: a downward chunk arrives: written, and sent on to each child. -/
def State.linkDown (s : State) (f c p k : Nat) (r : CollRec) (v : Nat) : State :=
  match s.cbuf f c p with
  | none => s
  | some b =>
    let s := s.setCbuf f c p (some { b with down := b.down.set k 0 1 })
    let s := s.collReq f c p 1 31 (regionOf r.final r b.shard + 32 * k) v (.coll p)
    (s.collSendAll f c r (s.kids b.shard) 3 p k b.shard 0 0 v).linkSettle f c p r

/-! Memory mode (R304). -/

/-- The next phase of a memory-mode buffer whose passes and requests are done. -/
def State.memNext (s : State) (f c p : Nat) (r : CollRec) (b : CBuf) : State :=
  let kids := s.kids b.shard
  let own := s.owns b.shard
  let me := s.rank
  let part := stageAddr r me f p (if kids = [] then 2 else 0)
  let set (ph : Nat) (ps : List CPass) : State := s.setCbuf f c p (some { b with phase := ph, passes := ps, pos := 0 })
  let toKids := kids.map (fun k => CollTo.write (stageAddr r k f p 0))
  match b.phase with
  | 0 =>
    if r.kind = 2 then set 3 []
    else if b.m0 = r.contrib ∧ (kids = [] ∨ b.m1 ≠ 0) ∧ (kids.length < 2 ∨ b.m2 ≠ 0) then
      let l := CollTo.racc (stageAddr r me f p 0)
      set 1 ((if 2 ≤ kids.length then [(⟨stageAddr r me f p 1, [l]⟩ : CPass)] else [])
        ++ (if 1 ≤ kids.length then [(⟨stageAddr r me f p 2, [l]⟩ : CPass)] else []))
    else s
  | 1 =>
    if own then set 2 [⟨part, [.write (regionOf r.dst r b.shard)]⟩]
    else
      let vr := s.vrank b.shard
      set 2 [⟨part, [.write (stageAddr r (s.rankAt b.shard ((vr - 1) / 2)) f p (if vr % 2 = 1 then 0 else 1))]⟩]
  | 2 =>
    if own then
      let s := s.collDone f c p r
      match r.kind with
      | 0 => s.collFree f c p r b
      | 1 => s.setCbuf f c p (some { b with phase := 4, passes := [⟨part, toKids⟩], pos := 0, done := true })
      | _ => s.setCbuf f c p (some { b with phase := 3, passes := [], pos := 0, done := true })
    else
      let vr := s.vrank b.shard
      let s := set 3 []
      s.collMark f c r [s.rankAt b.shard ((vr - 1) / 2)] (if vr % 2 = 1 then 1 else 2) p b.shard
  | 3 =>
    if own then
      (if b.started then set 4 [⟨regionOf r.final r b.shard, toKids⟩] else s)
    else if b.m3 = 0 then s
    else if r.kind = 0 then (s.collDone f c p r).collFree f c p r b
    else set 5 [⟨stageAddr r me f p 0, .write (regionOf r.final r b.shard) :: toKids⟩]
  | 4 => ((s.collMark f c r kids 3 p b.shard).collDone f c p r).collFree f c p r b
  | _ => ((s.collMark f c r kids 3 p b.shard).collDone f c p r).collFree f c p r b

/-- MEMORY_MODE_COMBINE (R304): the context issues the read of the next chunk of the pass in hand, or goes on to its next
pass or phase once every request is answered. -/
def memoryModeCombine (f c p : Nat) (s : State) : State :=
  match s.collRec c, s.cbuf f c p with
  | some r, some b =>
    if !r.mem || decide (b.outst ≠ 0) then s
    else match b.passes with
      | [] => s.memNext f c p r b
      | x :: rest =>
        if x.dst = [] then s.setCbuf f c p (some { b with passes := rest, pos := 0 })
        else if b.pos < r.chunks then
          (s.setCbuf f c p (some { b with pos := b.pos + 1 })).collReq f c p 0 31 (x.src + 32 * b.pos) 0 (.collRead p b.pos)
        else s.setCbuf f c p (some { b with passes := rest, pos := 0 })
  | _, _ => s

/-! Answers to a context. -/

/-- An answer came for buffer p. -/
def State.collDrop1 (s : State) (f c p : Nat) : State :=
  match s.cbuf f c p with
  | none => s
  | some b => s.setCbuf f c p (some { b with outst := b.outst - 1 })

/-- A write or accumulate was acknowledged. -/
def State.collAck (s : State) (f c p : Nat) : State :=
  let s := s.collDrop1 f c p
  match s.collRec c with
  | some r => if r.mem then s else s.linkSettle f c p r
  | none => s

/-- The data of a read: written, accumulated or sent to the targets of the pass. -/
def State.collData (s : State) (f c p pos v : Nat) : State :=
  let s := s.collDrop1 f c p
  match s.collRec c, s.cbuf f c p with
  | some r, some b =>
    match b.passes with
    | [] =>
      let s := s.setCbuf f c p (some { b with down := b.down.set pos 0 1 })
      (s.collSendAll f c r (s.kids b.shard) 3 p pos b.shard 0 0 v).linkSettle f c p r
    | x :: _ => x.dst.foldl (fun s t => match t with
        | .write a => s.collReq f c p 1 31 (a + 32 * pos) v (.coll p)
        | .racc a => s.collReq f c p 4 r.fmt (a + 32 * pos) v (.coll p)
        | .rank k => s.collSendAll f c r [k] 3 p pos b.shard 0 0 v) s
  | _, _ => s

/-- R307: a request of the context failed. -/
def State.collNack (s : State) (f c p kind : Nat) : State :=
  match s.cbuf f c p with
  | none => s
  | some b => s.collFail f c (if kind = 14 ∨ kind = 3 then 3 else 4) b.shard

/-! Packets at a context (R301–R303, R306, R307). -/

/-- A packet for a context that is discarded (R307). -/
def State.collDiscard (s : State) (f c : Nat) : State := s.sati (.opt f) Reg.optCdrop c 1

/-- R303: the packet breaks the window of its buffer: discarded, and the context fails. -/
def State.collWindow (s : State) (f c kind shard : Nat) : State := (s.collDiscard f c).collFail f c kind shard

/-- R306: a ROLE 3 marker that is a start marker, for kinds 2 and 3. -/
def State.isStart (s : State) (r : CollRec) (b : CBuf) (p : Packet) : Bool :=
  decide (p.role = 3) && decide (p.cnt = 1) && (decide (r.kind = 2) || decide (r.kind = 3)) && (s.owns b.shard || !r.mem)

/-- R304: a marker in memory mode. -/
def State.memMarker (s : State) (f c q : Nat) (r : CollRec) (b : CBuf) (p : Packet) : State :=
  let bad := s.collWindow f c 2 b.shard
  let kids := (s.kids b.shard).length
  match p.role with
  | 0 => if r.kind = 2 ∨ r.contrib < b.m0 + p.cnt then bad else s.setCbuf f c q (some { b with m0 := b.m0 + p.cnt })
  | 1 => if r.kind = 2 ∨ kids < 1 ∨ b.m1 ≠ 0 then bad else s.setCbuf f c q (some { b with m1 := 1 })
  | 2 => if r.kind = 2 ∨ kids < 2 ∨ b.m2 ≠ 0 then bad else s.setCbuf f c q (some { b with m2 := 1 })
  | _ => if s.owns b.shard ∨ b.m3 ≠ 0 then bad else s.setCbuf f c q (some { b with m3 := 1 })

/-- R303: a chunk or marker in link mode. -/
def State.linkPacket (s : State) (f c q : Nat) (r : CollRec) (b : CBuf) (p : Packet) : State :=
  let k := p.tag % 512
  let bad := s.collWindow f c 2 b.shard
  let kids := (s.kids b.shard).length
  if r.chunks ≤ k then bad
  else match p.role with
    | 0 =>
      let o := b.o.get k (0, 0)
      if r.kind = 2 ∨ r.contrib < o.1 + p.cnt then bad
      else
        let v := if o.1 = 0 then p.payload.toNat else combine32 r.fmt r.op r.num o.2 p.payload.toNat
        (s.setCbuf f c q (some { b with o := b.o.set k (0, 0) (o.1 + p.cnt, v) })).linkForm f c q k r
    | 1 => if r.kind = 2 ∨ kids < 1 ∨ (b.l.get k (0, 0)).1 ≠ 0 then bad
      else (s.setCbuf f c q (some { b with l := b.l.set k (0, 0) (1, p.payload.toNat) })).linkForm f c q k r
    | 2 => if r.kind = 2 ∨ kids < 2 ∨ (b.r.get k (0, 0)).1 ≠ 0 then bad
      else (s.setCbuf f c q (some { b with r := b.r.set k (0, 0) (1, p.payload.toNat) })).linkForm f c q k r
    | _ =>
      if s.owns b.shard then bad
      else if r.kind = 0 then
        (if b.m3 ≠ 0 then bad else (s.setCbuf f c q (some { b with m3 := 1 })).linkSettle f c q r)
      else if b.down.get k 0 ≠ 0 then bad
      else s.linkDown f c q k r p.payload.toNat

/-- The context and buffer that a REDUCE at strip f names. -/
def ctxOf (p : Packet) : Nat := dUnit0 p - 64
where dUnit0 (p : Packet) : Nat := p.dest % 128

/-- A REDUCE at a collective context, which waited `dt` service cycles for it (R310). `start` selects start markers, and
only them, are taken. -/
def State.collPacket (s : State) (n f : Nat) (p : Packet) (start : Bool) (dt : Nat) : State :=
  let c := ctxOf p
  let q := p.tag / 512
  let u := UnitId.opt f
  let s0 := s.dropFlight n
  let wait (s : State) : State :=
    if s.rdi u Reg.optCstatBusy c ≠ 0 then s.counti u Reg.optCwait c Reg.optCwrap c 0 dt else s
  if p.malformed ∨ p.dest % 128 < 64 ∨ 80 ≤ p.dest % 128 then (if start then s else s0.discardStrip f (p.dest % 128) 0x0F p)
  else
    match s.collRec c, s.cbuf f c q with
    | some r, some b =>
      if s.isStart r b p ≠ start then s
      else
        let s := wait s0
        if p.rop ≠ r.op ∨ p.rfmt ≠ r.fmt ∨ p.num ≠ r.num then s.collWindow f c 6 b.shard
        else if start then
          if !s.owns b.shard then s.collWindow f c 6 b.shard
          else if b.started then s.collWindow f c 2 b.shard
          else
            let s := s.setCbuf f c q (some { b with started := true })
            if r.mem then s
            else (List.range r.chunks).foldl (fun s k =>
              s.collReq f c q 0 31 (regionOf r.final r b.shard + 32 * k) 0 (.collRead q k)) s
        else if r.mem then s.memMarker f c q r b p
        else s.linkPacket f c q r b p
    | some r, none =>
      if start then s
      -- R303: a context of a running partition that holds no shard in the buffer has no use for a packet
      else if s.rdi u Reg.optCstatState c = 2 ∨ ¬ [3, 4].contains (s.parts.get r.part Part.none).state then s0.collDiscard f c
      else s0.collWindow f c (if p.rop ≠ r.op ∨ p.rfmt ≠ r.fmt ∨ p.num ≠ r.num then 6 else 2) 0
    | none, _ => if start then s else s0.collDiscard f c

/-- REDUCE (R260, R261, R303). -/
def reduceCmd (a : ReduceAct) (s : State) : State :=
  match a with
  | .slot i n => s.slotDrain i.val n.val
  | .flight n dt =>
    match s.net.flights[n]? with
    | none => s
    | some x =>
      if x.pkt.typ ≠ 5 then s
      else match s.atTile n with
        | some (g, t, p) => s.reduceSlot n g t p
        | none => match s.atStrip n with
          | some (f, p) => s.collPacket n f p false dt
          | none => match x.place with
            | .router i _ => if s.atGoal x then s else s.reduceCombine n i x
            | _ => s

/-- START_MARKER (R306). -/
def startMarker (n dt : Nat) (s : State) : State :=
  match s.atStrip n with
  | some (f, p) => if p.typ = 5 then s.collPacket n f p true dt else s
  | none => s

/-! Contributing queues (R300–R302). -/

/-- R301: an entry beyond the collective's range. -/
def State.rangeErr (s : State) (g t q kind ctx shard : Nat) : State :=
  let s := (s.pop g t true q).setBiti (.tile g t) Reg.rtrQcollRangeErr q 0
  (s.raise g 2 t).recTile g t (16 + q) 0x14 10 (kind + ctx * 2 ^ 8 + shard % 2 ^ 24 * 2 ^ 12)

/-- The entry has been sent. -/
def State.contribSent (s : State) (g t q : Nat) : State :=
  let s := s.pop g t true q
  (s.wri (.tile g t) Reg.rtrQcposSent q (s.rdi (.tile g t) Reg.rtrQcposSent q + 1)).batchAll g t

/-- A contributing queue's REDUCE to the context of its own rank. -/
def State.contribReduce (s : State) (g t : Nat) (r : CollRec) (role shard pos expect : Nat) (data : Nat) : State :=
  let d := mkAddr s.rank 0xC (shard % 48 * 2 ^ 37 + 64 + r.ctx)
  s.launch (mkReduce r.num role (shard / 48 % 2 * 512 + pos) expect 1 r.op r.fmt d 0 data) (.router (16 * g + t) 4)

/-- CONTRIBUTING_QUEUE_ENTRY (R300–R302, R304). -/
def contributingQueueEntry (g t q : Nat) (s : State) : State :=
  let u := UnitId.tile g t
  if s.rdi u Reg.rtrQcollEn q = 0 then s
  else
    match s.headOf g t true q with
    | none => if (s.queue (queueKey g t true q)).hw = [] then s else s.queueStall g t true q 1
    | some e =>
      if e.tok then (s.pop g t true q).sat u Reg.rtrTokDrop 1
      -- R196: no network credit for the REDUCE or the accumulate
      else if !s.portRoom (srcTile s.rank g t 0) (if (s.collRec (s.rdi u Reg.rtrQcollCtx q)).any (fun r => r.mem)
          && decide (s.rdi u Reg.rtrQcollMarker q = 0) then 4 else 5) false then s.queueStall g t true q 1
      else
        let c := s.rdi u Reg.rtrQcollCtx q
        let chunk := s.rdi u Reg.rtrQcollStart q + s.rdi u Reg.rtrQcposSent q
        let mark := s.rdi u Reg.rtrQcollMarker q = 1
        let named := e.data.toNat % 2 ^ 32
        match s.collRec c with
        | none => s.rangeErr g t q (if mark then 6 else 2) c (if mark then named else 0)
        | some r =>
          if mark then
            if r.shards ≤ named then s.rangeErr g t q 6 c named
            else (s.contribReduce g t r 3 named 0 1 0).contribSent g t q
          else
            let shard := chunk / r.chunks
            let pos := chunk % r.chunks
            if r.shards * r.chunks ≤ chunk then s.rangeErr g t q 2 c shard
            else if !r.mem then (s.contribReduce g t r 0 shard pos r.contrib e.data.toNat).contribSent g t q
            else
              let k := queueKey g t true q
              let x := s.net.cq.get k (0, 0)
              if x.2 ≠ 0 then s.queueStall g t true q 1
              else
                let a := stageAddr r s.rank (shard % 48) (shard / 48 % 2) 2 + 32 * pos
                let s := (s.post (srcTile s.rank g t 0) 4 false r.fmt a e.data 1 (.cq q)).2
                let y : Nat × Nat := (x.1 + 1, if pos + 1 = r.chunks then shard + 1 else 0)
                ({ s with net := { s.net with cq := s.net.cq.set k (0, 0) y } } : State).contribSent g t q

/-- R304: an accumulate of a contributing queue is answered; the last acknowledgement of a shard sends its marker. -/
def State.contribAck (s : State) (g t q : Nat) (ok : Bool) : State :=
  let k := queueKey g t true q
  let x := s.net.cq.get k (0, 0)
  let owed := if ok then x.2 else 0
  let set (v : Nat × Nat) (s : State) : State := { s with net := { s.net with cq := s.net.cq.set k (0, 0) v } }
  if x.1 ≤ 1 ∧ owed ≠ 0 then
    match s.collRec (s.rdi (.tile g t) Reg.rtrQcollCtx q) with
    | some r => (set (0, 0) s).contribReduce g t r 0 (owed - 1) 0 r.contrib 0
    | none => set (0, 0) s
  else set (x.1 - 1, owed) s

/-- COLL_TIMEOUT (R308): a context that holds a shard has accepted and sent nothing for TIMEOUT_MS. -/
def collTimeout (f c : Nat) (s : State) : State :=
  if s.rdi (.opt f) Reg.optCstatState c = 2 ∨ s.coll f c = Coll.idle then s
  else s.collFail f c 1 (s.rdi (.opt f) Reg.optCstatShard c)

/-- R297: the contexts of a partition's collectives begin: buffer p takes shard f + 48·p. -/
def State.collStart (s : State) (part : Nat) : State :=
  (s.img.colls.filter (fun r => decide (r.part = part))).foldl (fun s r =>
    (List.range 48).foldl (fun s f =>
      let s := (s.wri (.opt f) Reg.optCstatState r.ctx 0).wri (.opt f) Reg.optCstatErr r.ctx 0
      (s.collTake f r.ctx 0 f r).collTake f r.ctx 1 (f + 48) r) s) s

/-- R309: at a stop or reset of a partition its contexts fail with ABORTED. -/
def State.collAbort (s : State) (part : Nat) : State :=
  (s.img.colls.filter (fun r => decide (r.part = part))).foldl (fun s r =>
    (List.range 48).foldl (fun s f =>
      if s.rdi (.opt f) Reg.optCstatState r.ctx = 2 ∨ s.coll f r.ctx = Coll.idle then s
      else s.collFail f r.ctx 5 (s.rdi (.opt f) Reg.optCstatShard r.ctx)) s) s

end Sys2Proof.Machine
end

