-- ==== Sys2Proof/Decode.lean ====
section
/-! DEFINITION. Words that spell something: none spells a command (the table gives no bits); an S-core instruction word has the
fields of R119. -/

namespace Sys2Proof

/-- The command a word spells by the table's bits: no row has bits (DESIGN CHOICE, log entry 2). -/
def decodeTableWord (_nbits _w : Nat) : Option Instr := none

open Sys2Proof.Machine

/-- R119: opcode [31:26], rd [25:21], rs1 [20:16], rs2 [15:11], imm [15:0]. -/
def sDecode (w : Word) : SWord :=
  ⟨w.toNat / 2 ^ 26, w.toNat / 2 ^ 21 % 32, w.toNat / 2 ^ 16 % 32, w.toNat / 2 ^ 11 % 32, w.extractLsb' 0 16⟩

/-- The word with an imm. -/
def sEncode (op : BitVec 6) (rd rs1 : BitVec 5) (imm : BitVec 16) : Word := op ++ rd ++ rs1 ++ imm

/-- The word with an rs2; the bits below it are free. -/
def sEncodeR (op : BitVec 6) (rd rs1 rs2 : BitVec 5) (low : BitVec 11) : Word := sEncode op rd rs1 (rs2 ++ low)

end Sys2Proof
end

