-- ==== Sys2Proof/Machine/Scalar.lean ====
section
/-! DEFINITION. The S-core's instructions and events (R105, R119–R125, R177, R396). -/

namespace Sys2Proof.Machine

/-- The unit of pond g's S-core. -/
abbrev scoreU (g : Nat) : UnitId := .tile g 5

/-! Registers (R119). -/

/-- Register n; g0 reads 0. -/
def SCore.reg (c : SCore) (n : Nat) : Word := if n = 0 then 0 else c.regs.get n 0
/-- Write register n; g0 ignores writes. -/
def SCore.setReg (c : SCore) (n : Nat) (v : Word) : SCore := if n = 0 then c else { c with regs := c.regs.set n 0 v }
/-- Register n of pond g's S-core. -/
def State.greg (s : State) (g n : Nat) : Word := (s.score g).reg n
/-- Write register n of pond g's S-core. -/
def State.setGreg (s : State) (g n : Nat) (v : Word) : State := s.setScore g ((s.score g).setReg n v)
/-- Change the program counter. -/
def State.setPc (s : State) (g pc : Nat) : State := s.setScore g { s.score g with pc := pc % 2 ^ 32 }
/-- Set or end a stall. -/
def State.setStall (s : State) (g : Nat) (x : Option SStall) : State := s.setScore g { s.score g with stall := x }

/-! Failure (R119, R123). -/

/-- R123: the field supervisor declares the S-core dead: SCORE_DEAD, and the overlay mark. -/
def State.scoreDeadNow (s : State) (g cause : Nat) : State :=
  (s.recTile g 5 0 9 5 (2 ^ cause + 4 * s.rd (scoreU g) Reg.scoreEpcEpc * 2 ^ 16)).overTile g 5 0

/-- An event that the S-core raised about the instruction at its pc has still to be taken. -/
def State.ownEventWaits (s : State) (g cause : Nat) : Bool :=
  s.events.any (fun e => decide (e = (g, ⟨cause, 5⟩))) || (s.score g).fifo.any (fun e => decide (e = ⟨cause, 5⟩))

/-- R119: PROG_FAULT: nothing is executed; in the handler the S-core is dead (R123). Tried again before the event is taken, the
instruction raises no second event (DEDUCED, log entry 4). -/
def State.progFault (s : State) (g : Nat) : State :=
  let s := s.wr (scoreU g) Reg.scoreEpcEpc ((s.score g).pc / 4)
  if s.flag (scoreU g) Reg.scoreEstatInHandler then s.scoreDeadNow g 1
  else if s.ownEventWaits g 8 then s
  else s.raise g 8 5

/-- R119, R137: a fetch that reads an uncorrectable word raises POISON; tried again before the event is taken, it raises no second
event (DEDUCED, log entry 4). -/
def State.fetchPoison (s : State) (g : Nat) : State :=
  let s := s.wr (scoreU g) Reg.scoreEpcEpc ((s.score g).pc / 4)
  if !s.flag (scoreU g) Reg.scoreEstatInHandler && s.ownEventWaits g 2 then s
  else s.sramPoison g 5 5 (s.score g).pc 5

/-- R122: NEG_COMPLETION for a request of the S-core itself. -/
def State.negCompletion (s : State) (g : Nat) : State := s.raise g 7 5

/-! Issue (R119, R121). -/

/-- The instruction retires: SCORE_INSTR counts, the stall ends, pc moves on to `pc`. -/
def State.retireTo (s : State) (g pc : Nat) : State :=
  ((s.setStall g none).setPc g pc).count (scoreU g) Reg.scoreInstr Reg.scoreWrap 0 1

/-- The instruction retires and the next one follows. -/
def State.retire (s : State) (g : Nat) : State := s.retireTo g ((s.score g).pc + 4)

/-- R322: a stop of the pond's partition has been asked for and its S-core has passed a STEP since. -/
def State.atStop (s : State) (g : Nat) : Bool :=
  match s.partOf g with
  | none => false
  | some n =>
    let p := s.parts.get n Part.none
    p.stopAt.any (fun e => decide (e.1 = g) && decide (e.2 ≠ s.rd (scoreU g) Reg.scoreStepStep))

/-- The S-core may issue: it runs, is clocked, works, is not halted, not withheld by a forced test and not stopped at a
step boundary. -/
def State.scoreLive (s : State) (g : Nat) : Bool :=
  s.flag (scoreU g) Reg.scoreCtrlRun && s.clocked g && !(s.tileW g 5).testBit 0
    && !s.flag (scoreU g) Reg.scoreEstatHalted && !s.withheld g 5 && !s.atStop g

/-- R119: one instruction of pond g's S-core, after `dt` core cycles of interlock: `body` runs when the fetch succeeds.
`again` says which stall this instruction tries again. -/
def State.issue (s : State) (g dt : Nat) (again : SStall → Bool) (body : State → State) : State :=
  if !s.scoreLive g then s
  else
    let s := s.count (scoreU g) Reg.scoreStall Reg.scoreWrap 1 dt
    let c := s.score g
    if !(match c.stall with | none => true | some x => again x) then s
    else if 2 ^ 18 ≤ c.pc ∨ c.pc % 4 ≠ 0 then s.progFault g
    else if s.sramBad (coreKey g 5 c.pc) 4 then s.fetchPoison g
    else body s

/-- An instruction that never stalls. -/
def State.issue1 (s : State) (g dt : Nat) (body : State → State) : State := s.issue g dt (fun _ => false) body

/-- R119: the instruction word at the program counter, in core local memory. -/
def State.fetchWord (s : State) (g : Nat) : Word := BitVec.ofNat 32 (s.memNat (coreKey g 5 (s.score g).pc) 4)

/-- R119, R120: the S-core of pond g executes the instruction of opcode `op`, when that is what it fetches; opcodes 0x30–0x3F
raise PROG_FAULT whichever instruction is tried (DEDUCED, log entry 4). -/
def State.scoreCmd (s : State) (g dt op : Nat) (f : SWord → State → State) : State :=
  let w := sDecode (s.fetchWord g)
  if 2 ^ 18 ≤ (s.score g).pc ∨ (s.score g).pc % 4 ≠ 0 ∨ w.op = op ∨ s.sramBad (coreKey g 5 (s.score g).pc) 4 = true then f w s
  else if 0x30 ≤ w.op then s.issue1 g dt (fun s => s.progFault g)
  else s

/-- Sign-extended imm. -/
def sx (imm : BitVec 16) : Word := imm.signExtend 32
/-- Zero-extended imm. -/
def zx (imm : BitVec 16) : Word := imm.zeroExtend 32

/-- An instruction that computes rd from registers. -/
def State.alu (s : State) (g dt rd : Nat) (f : (Nat → Word) → Word) : State :=
  s.issue1 g dt (fun s => (s.setGreg g rd (f (s.greg g))).retire g)

/-- R120: a branch on rd and rs1. -/
def State.branch (s : State) (g dt rd rs1 : Nat) (imm : BitVec 16) (p : Word → Word → Bool) : State :=
  s.issue1 g dt (fun s =>
    if p (s.greg g rd) (s.greg g rs1) then
      s.retireTo g (BitVec.ofNat 32 (s.score g).pc + 4 * sx imm).toNat
    else s.retire g)

/-! Memory (R119–R121, R137, R140). -/

/-- Where an S-core address leads. -/
inductive SAddr where
  /-- Own core local or pond memory, as an engine address. -/
  | own (a : Nat)
  /-- Through a window, as an engine address. -/
  | win (a : Nat)
  | fault
  deriving DecidableEq, Repr

/-- R119, R140: the address map; `n` bytes, aligned. -/
def State.sAddr (s : State) (g n : Nat) (a : Word) : SAddr :=
  let v := a.toNat
  if v % n ≠ 0 then .fault
  else if v < 2 ^ 18 then .own (mkAddr s.rank 2 (coreOff g 5 v))
  else if 0x10000000 ≤ v ∧ v < 0x10800000 then
    (if v - 0x10000000 < s.scratch g then .own (mkAddr s.rank 1 (coreOff g 16 (v - 0x10000000))) else .fault)
  else if 0x20000000 ≤ v ∧ v < 0x30000000 then
    .win (s.rdi (scoreU g) Reg.scoreWinBase (v / 2 ^ 24 % 16) * 2 ^ 24 + v % 2 ^ 24)
  else .fault

/-- SRC of the S-core. -/
def State.scoreSrc (s : State) (g : Nat) : Nat := srcTile s.rank g 5 0

/-- A loaded value of n bytes as a register. -/
def loadVal (n : Nat) (sign : Bool) (v : Nat) : Word :=
  if sign then (BitVec.ofNat (8 * n) v).signExtend 32 else BitVec.ofNat 32 (v % 2 ^ (8 * n))

/-- The memory key of an own address. -/
def ownKey (a : Nat) : Nat := a % 2 ^ 52

/-- LW, LH, LBU. A load that waits for an entry of its port's buffer (R236) is tried again. -/
def State.load (s : State) (g dt n : Nat) (sign : Bool) (rd rs1 : Nat) (imm : BitVec 16) (ecc : Ecc) : State :=
  s.issue g dt (fun x => decide (x = .sig)) (fun s =>
    match s.sAddr g n (s.greg g rs1 + sx imm) with
    | .fault => s.progFault g
    | .own a =>
      let s := s.sramEcc g (if dSpace a = 1 then 16 else dUnit a) (dOff a) (ownKey a) ecc
      match s.ownRead g 5 a n 5 with
      | (s, .ok v) => (s.setGreg g rd (loadVal n sign v)).retire g
      | (s, .error _) => s.retire g
    | .win a =>
      let tag := s.freeTag (s.scoreSrc g)
      let r := s.sendReq (s.scoreSrc g) 0 false (n - 1) a 0 1 (.sload rd n sign)
      r.2.setStall g (some (if r.1 then .load rd n sign tag else .sig)))

/-- SW, SB. A posted store that waits for a sender entry (R189) is tried again. -/
def State.store (s : State) (g dt n : Nat) (rd rs1 : Nat) (imm : BitVec 16) : State :=
  s.issue g dt (fun x => decide (x = .sig)) (fun s =>
    match s.sAddr g n (s.greg g rs1 + sx imm) with
    | .fault => s.progFault g
    | .own a =>
      let w := s.ownWrite g a n ((s.greg g rd).toNat % 2 ^ (8 * n))
      (if w.2 = 0 then w.1 else w.1.negCompletion g).retire g
    | .win a =>
      let r := s.sendReq (s.scoreSrc g) 1 false (n - 1) a (BitVec.ofNat 256 ((s.greg g rd).toNat % 2 ^ (8 * n))) 1 .spost
      if r.1 then r.2.retire g else r.2.setStall g (some .sig))

/-- AMOADD. -/
def State.amoAdd (s : State) (g dt rd rs1 rs2 : Nat) : State :=
  s.issue1 g dt (fun s =>
    match s.sAddr g 4 (s.greg g rs1) with
    | .own a =>
      let add := s.greg g rs2
      match s.ownRead g 5 a 4 5 with
      | (s, .ok v) => (((s.ownWrite g a 4 (BitVec.ofNat 32 v + add).toNat).1).setGreg g rd (BitVec.ofNat 32 v)).retire g
      | (s, .error _) => s.retire g
    | _ => s.progFault g)

/-- The answer to a load through a window: data, or a negative completion that leaves rd unchanged. -/
def State.loadAnswer (s : State) (g rd n : Nat) (sign : Bool) (v : Option Nat) : State :=
  match (s.score g).stall with
  | some (.load _ _ _ _) =>
    (match v with
     | some x => s.setGreg g rd (loadVal n sign x)
     | none => s.negCompletion g).retire g
  | _ => s

/-! Control (R120). -/

/-- JAL. -/
def State.jal (s : State) (g dt rd : Nat) (imm : BitVec 16) : State :=
  s.issue1 g dt (fun s =>
    let pc := BitVec.ofNat 32 (s.score g).pc
    (s.setGreg g rd (pc + 4)).retireTo g (pc + 4 * sx imm).toNat)

/-- JALR. -/
def State.jalr (s : State) (g dt rd rs1 : Nat) (imm : BitVec 16) : State :=
  s.issue1 g dt (fun s =>
    let pc := BitVec.ofNat 32 (s.score g).pc
    let goal := s.greg g rs1 + sx imm
    (s.setGreg g rd (pc + 4)).retireTo g goal.toNat)

/-- HALT. -/
def State.halt (s : State) (g dt : Nat) : State :=
  s.issue1 g dt (fun s => (s.retire g).wr (scoreU g) Reg.scoreEstatHalted 1)

/-- RETI. -/
def State.reti (s : State) (g dt : Nat) : State :=
  s.issue1 g dt (fun s =>
    if s.flag (scoreU g) Reg.scoreEstatInHandler then
      (s.retireTo g (4 * s.rd (scoreU g) Reg.scoreEpcEpc)).wr (scoreU g) Reg.scoreEstatInHandler 0
    else s.progFault g)

/-- EVEN: the maskable enables; causes 2, 6 and 9 stay enabled. -/
def State.even (s : State) (g dt rs1 : Nat) : State :=
  s.issue1 g dt (fun s =>
    (s.wr (scoreU g) Reg.scoreEvtEn ((s.greg g rs1).toNat % 2 ^ 10 ||| 0x122)).retire g)

/-! Control registers (R120, R456). -/

/-- R120: the register an offset of CSRR and CSRW names: unit and byte offset; none for PROG_FAULT. -/
def csrOperand (a : Word) : Option (Nat × Nat) :=
  let o := a.toNat
  if o / 2 ^ 28 ≠ 0 ∨ 17 < o / 2 ^ 23 ∨ o % 4 ≠ 0 then none else some (o / 2 ^ 23, o % 2 ^ 23)

/-- The unit of the S-core's own pond by its code. -/
def ownUnit (g u : Nat) : UnitId := if u < 16 then .tile g u else if u = 16 then .pond g else .lake (lakeOf g)

/-- A failed tile answers UNIT_ABSENT: logged, and NEG_COMPLETION at the S-core. -/
def State.csrAbsent (s : State) (g u o : Nat) : State :=
  (s.recTile g (u % 16) 32 0x0A 5 (refusedDetail (mkAddr s.rank 3 (coreOff g u o)) 2)).negCompletion g

/-- CSRR. -/
def State.csrr (s : State) (g dt rd rs1 : Nat) (imm : BitVec 16) : State :=
  s.issue1 g dt (fun s =>
    match csrOperand (s.greg g rs1 + sx imm) with
    | none => s.progFault g
    | some (u, o) =>
      if u < 16 ∧ s.csrFailed g u o then (s.csrAbsent g u o).retire g
      else
        let r := s.csrRead32 (ownUnit g u) o 0
        (r.2.setGreg g rd (BitVec.ofNat 32 r.1)).retire g)

/-- CSRW. -/
def State.csrw (s : State) (g dt rd rs1 : Nat) (imm : BitVec 16) : State :=
  s.issue1 g dt (fun s =>
    match csrOperand (s.greg g rs1 + sx imm) with
    | none => s.progFault g
    | some (u, o) =>
      if u < 16 ∧ s.csrFailed g u o then (s.csrAbsent g u o).retire g
      else (s.retire g).csrWriteBytes (ownUnit g u) o 4 (s.greg g rd).toNat false)

/-! Springs, tokens and generators (R120, R146, R152, R177, R185, R187, R191). -/

/-- SIG: a spring of the own pond is signalled at once; another pond's under R191. -/
def State.sigInstr (s : State) (g dt rs1 rs2 : Nat) : State :=
  s.issue g dt (fun x => decide (x = .sig)) (fun s =>
    let v := (s.greg g rs1).toNat
    let amt := (s.greg g rs2).toNat
    let fld := v / 2 ^ 15 % 64
    let pond := v / 2 ^ 6 % 512
    let rank := v / 2 ^ 21 % 64
    if rank = s.rank ∧ pond < 288 ∧ 288 * fld + pond = g then (s.applySignal g (v % 64) amt).retire g
    else
      let r := s.sendSignal (s.scoreSrc g) (mkAddr rank 4 (fld * 2 ^ 37 + pond * 2 ^ 28 + 16 * 2 ^ 23 + 16 * (v % 64))) amt .ssig
      if r.1 then r.2.retire g else r.2.setStall g (some .sig))

/-- WAITS: the S-core becomes a waiter; WAITER_PASS ends it. -/
def State.waitsInstr (s : State) (g dt rs1 : Nat) (imm : BitVec 16) : State :=
  s.issue1 g dt (fun s =>
    let s := s.setStall g (some .waits)
    { s with waiters := s.waiters ++
      [(⟨g, .score, (s.greg g rs1).toNat % 64, imm.getLsbD 0, s.evals.get g 0⟩ : Waiter)] })

/-- POLLS. -/
def State.polls (s : State) (g dt rd rs1 : Nat) : State :=
  s.issue1 g dt (fun s => (s.setGreg g rd (BitVec.ofNat 32 (s.spring g ((s.greg g rs1).toNat % 64)).count)).retire g)

/-- TOKW: g(rs1)–g(rs1 + 7) as one entry to output queue imm[2:0], a token with imm[3]. -/
def State.tokw (s : State) (g dt rs1 : Nat) (imm : BitVec 16) : State :=
  let q := imm.toNat % 8
  s.issue g dt (fun x => decide (x = .tokw q)) (fun s =>
    if 24 < rs1 then s.progFault g
    else
      let v := ((List.range 8).map (fun i => (s.greg g (rs1 + i)).toNat * 2 ^ (32 * i))).foldl (· + ·) 0
      match s.push g 5 true q ⟨imm.getLsbD 3, BitVec.ofNat 256 v⟩ with
      | some s => s.retire g
      | none => s.setStall g (some (.tokw q)))

/-- TOKR: an entry of input queue imm[2:0] into g(rd)–g(rd + 7); LAST_TOK holds its kind. -/
def State.tokr (s : State) (g dt rd : Nat) (imm : BitVec 16) : State :=
  let q := imm.toNat % 8
  s.issue g dt (fun x => decide (x = .tokr q)) (fun s =>
    if 24 < rd then s.progFault g
    else match s.headOf g 5 false q with
      | none => s.setStall g (some (.tokr q))
      | some e =>
        let s := (s.pop g 5 false q).wr (scoreU g) Reg.rtrQstatLastTok e.tok.toNat
        ((List.range 8).foldl (fun s i => s.setGreg g (rd + i) (BitVec.ofNat 32 (e.data.toNat / 2 ^ (32 * i)))) s).retire g)

/-- TOKQ. -/
def State.tokq (s : State) (g dt rd : Nat) (imm : BitVec 16) : State :=
  s.issue1 g dt (fun s =>
    (s.setGreg g rd (BitVec.ofNat 32 (s.queue (queueKey g 5 false (imm.toNat % 8))).count)).retire g)

/-- AGGO: the descriptor at rs2 is queued at a generator; rd takes its handle. -/
def State.aggo (s : State) (g dt rd rs1 rs2 : Nat) : State :=
  s.issue g dt (fun x => decide (x = .aggo)) (fun s =>
    let t := (s.greg g rs1).toNat % 16
    let n := (s.greg g rs1).toNat / 16 % 4
    if tileType t ≠ .a then s.progFault g
    else match s.sAddr g 32 (s.greg g rs2) with
      | .own a =>
        if (s.tileW g t).testBit 0 then (s.negCompletion g).retire g
        else if 4 ≤ (s.gen g t n).queue.length then
          s.setStall g (some .aggo)
        else match s.ownRead g t a 128 5 with
          | (s, .error _) => s.retire g
          | (s, .ok v) =>
            let r := s.genQueue g t n (BitVec.ofNat 1024 v) (if dSpace a = 2 then 0 else 1)
            (r.1.setGreg g rd (BitVec.ofNat 32 r.2)).retire g
      | _ => s.progFault g)

/-- AGST. -/
def State.agst (s : State) (g dt rd rs1 : Nat) : State :=
  s.alu g dt rd (fun r => BitVec.ofNat 32 (s.genStatus g (r rs1).toNat))

/-- EVT. -/
def State.evt (s : State) (g dt rs1 rs2 : Nat) (imm : BitVec 16) : State :=
  s.issue1 g dt (fun s =>
    (s.recTile g 5 0 (0x8000 + imm.toNat % 2 ^ 15) 5 ((s.greg g rs1).toNat + (s.greg g rs2).toNat * 2 ^ 32)).retire g)

/-- R120: every earlier write, signal and token of the S-core has been accepted. -/
def State.fenced (s : State) (g : Nat) : Bool :=
  s.net.outst.all (fun o => decide (o.src ≠ s.scoreSrc g) || decide (o.purpose = .release))
    && (List.range 8).all (fun q => decide (s.rdi (scoreU g) Reg.rtrQcollEn q = 1)
      || decide ((s.queue (queueKey g 5 true q)).count = 0))

/-- FENCE. -/
def State.fence (s : State) (g dt : Nat) : State :=
  s.issue g dt (fun x => decide (x = .fence)) (fun s =>
    if s.fenced g then s.retire g else s.setStall g (some .fence))

/-- R351: edges of the beat in progress in lake w. -/
def State.beatEdges (s : State) (w : Nat) : Nat := s.rd (.lake w) Reg.lakeClkStatN

/-- TIMEL at core cycle `c` of the beat: rd takes the low half, the high half is latched. -/
def State.timel (s : State) (g dt rd c : Nat) : State :=
  s.issue1 g dt (fun s =>
    let w := lakeOf g
    let v := s.lakeNow w c (s.beatEdges w)
    let s := s.setScore g { s.score g with timeh := v / 2 ^ 32 }
    (s.setGreg g rd (BitVec.ofNat 32 v)).retire g)

/-- TIMEH. -/
def State.timeh (s : State) (g dt rd : Nat) : State :=
  s.issue1 g dt (fun s => (s.setGreg g rd (BitVec.ofNat 32 (s.score g).timeh)).retire g)

/-- IDLE: until the next event. -/
def State.idle (s : State) (g dt : Nat) : State := s.issue1 g dt (fun s => s.setStall g (some .idle))

/-- OPAL: a hint for the tiles of a mask. -/
def State.opalHint (s : State) (g dt rs1 rs2 : Nat) : State :=
  s.issue1 g dt (fun s =>
    ((s.wr (scoreU g) Reg.scoreOpalIdle (s.greg g rs1).toNat).wr (scoreU g) Reg.scoreOpalMask (s.greg g rs2).toNat).retire g)

/-! STEP (R105, R124, R396). -/

/-- R392, R396: the bound at which a unit is due for a forced test. -/
def forcedBound (t : Nat) : Nat := if tileType t = .s then 3584 else 1792

/-- R396: the unit is due. -/
def State.opalDue (s : State) (g t : Nat) : Bool :=
  !(s.tileW g t).testBit 0 && (decide (forcedBound t ≤ (s.opalOf g t).age) || (s.opalOf g t).due)

/-- R396: at a STEP the due unit of greatest age starts its forced test. -/
def State.forcedTest (s : State) (g : Nat) : State :=
  let f := UnitId.fld (fieldOf g)
  if s.rd f Reg.fldOpalCfgForceEn = 0 then s
  else
    match (List.range 16).filter (s.opalDue g) with
    | [] => s
    | t0 :: r =>
      let t := r.foldl (fun b x => if (s.opalOf g b).age < (s.opalOf g x).age then x else b) t0
      let s := s.setOpal g t { s.opalOf g t with active := true, forced := true }
      s.count f Reg.fldOpalForced Reg.fldOpalWrap 2 1

/-- STEP. -/
def State.stepInstr (s : State) (g dt : Nat) : State :=
  s.issue1 g dt (fun s =>
    let u := scoreU g
    let s := s.retire g
    let n := s.rd u Reg.scoreStepStep
    let c := s.score g
    let s := if c.misses = 0 then s
      else (s.recTile g 5 0 5 5 (c.misses % 2 ^ 32 + n * 2 ^ 32)).setScore g { c with misses := 0 }
    let s := (s.wr u Reg.scoreStepStep (n + 1)).forcedTest g
    (List.range 16).foldl (fun s t => s.setOpal g t { s.opalOf g t with age := (s.opalOf g t).age + 1 }) s)

/-! Events (R120, R122, R123). -/

/-- Is a cause enabled? -/
def State.causeOn (s : State) (g cause : Nat) : Bool := (s.rd (scoreU g) Reg.scoreEvtEn).testBit (cause - 1)

/-- R122: one event enters the FIFO, is discarded as disabled, or waits (none). -/
def State.enter (s : State) (g : Nat) (e : SEvent) : Option State :=
  if !s.causeOn g e.cause then some (s.sat (scoreU g) Reg.scoreEvents 1)
  else if 16 ≤ (s.score g).fifo.length then none
  else
    let s := (s.opalAbort g 5).setScore g { s.score g with fifo := (s.score g).fifo ++ [e] }
    let s := if e.cause = 2 ∨ e.cause = 6 ∨ e.cause = 9 then s.wr (scoreU g) Reg.scoreEstatHalted 0 else s
    -- in the handler no event is taken, so the next event ends IDLE
    some (if (s.score g).stall = some .idle && s.flag (scoreU g) Reg.scoreEstatInHandler then s.retire g else s)

/-- R122: order of events of one core cycle. -/
def SEvent.before (a b : SEvent) : Bool := decide (a.cause < b.cause) || (decide (a.cause = b.cause) && decide (a.src ≤ b.src))

/-- Insertion by R122's order. -/
def sortEvents (l : List SEvent) : List SEvent :=
  l.foldl (fun acc e => (acc.filter (fun x => x.before e)) ++ [e] ++ (acc.filter (fun x => !x.before e))) []

/-- EVENT_ENQUEUE (R122): the first `k` events raised for pond g arrive in one core cycle; those that find the FIFO full
stay with their sources. -/
def eventEnqueue (g k : Nat) (s : State) : State :=
  let mine := (s.events.filter (fun e => decide (e.1 = g))).map (fun e => e.2)
  let others := s.events.filter (fun e => decide (e.1 ≠ g))
  let r := (sortEvents (mine.take k)).foldl (fun (a : State × List SEvent) e =>
    match a.1.enter g e with
    | some s => (s, a.2)
    | none => (a.1, a.2 ++ [e])) (s, ([] : List SEvent))
  { r.1 with events := ((r.2 ++ mine.drop k).map (fun e => (g, e))) ++ others }

/-- EVENT_TAKE (R122): the S-core takes the head event. -/
def eventTake (g : Nat) (s : State) : State :=
  let c := s.score g
  let free := match c.stall with
    | none => true
    | some x => match x with
      | .waits => true | .tokr _ => true | .tokw _ => true | .idle => true | _ => false
  if !s.scoreLive g || s.flag (scoreU g) Reg.scoreEstatInHandler || !free then s
  else match c.fifo with
    | [] => s
    | e :: rest =>
      let u := scoreU g
      let s := s.wr u Reg.scoreEpcEpc (c.pc / 4)
      let s := ((s.wr u Reg.scoreEstatCause e.cause).wr u Reg.scoreEstatSrc e.src).wr u Reg.scoreEstatInHandler 1
      let s : State := { s with waiters := s.waiters.filter (fun w => !(decide (w.pond = g) && decide (w.place = .score))) }
      s.setScore g { c with fifo := rest, stall := none, headWait := 0, pc := 4 * s.rd u Reg.scoreEvtVec }

/-- SCORE_DEAD (R123): the FIFO head has waited `us` µs more; beyond the limit the S-core is declared dead. -/
def scoreDead (g us : Nat) (s : State) : State :=
  let c := s.score g
  if c.fifo = [] ∨ ¬ s.flag (scoreU g) Reg.scoreCtrlRun ∨ ¬ s.clocked g ∨ (s.tileW g 5).testBit 0 then s
  else
    let w := c.headWait + us
    let s := s.setScore g { c with headWait := w }
    if s.rd (scoreU g) Reg.scoreWdogTimeout < w then s.scoreDeadNow g 0 else s

end Sys2Proof.Machine
end

