-- ==== Sys2Proof/Machine/Host.lean ====
section
/-! DEFINITION. The host interface: slots, SUBMIT, DMA, the host window, hub springs, the completion log and the apertures
(R314–R329). -/

namespace Sys2Proof.Machine

/-! Commands (R318–R324). -/

/-- `w` bytes of a descriptor at offset `o`. -/
def HCmd.f (c : HCmd) (o w : Nat) : Nat := c.raw.toNat / 2 ^ (8 * o) % 2 ^ (8 * w)

/-- The accepted command in a slot. -/
def State.cmdAt (s : State) (slot : Nat) : Option HCmd := s.hub.cmds.find? (fun c => decide (c.slot = slot))

/-- Change the command in a slot. -/
def State.modCmd (s : State) (slot : Nat) (f : HCmd → HCmd) : State :=
  { s with hub := { s.hub with cmds := s.hub.cmds.map (fun c => if c.slot = slot then f c else c) } }

/-- Trust commands (R320, R444). -/
def isTrust (op : Nat) : Bool := decide (0x10 ≤ op) && decide (op ≤ 0x13)
/-- DMA commands. -/
def isDma (op : Nat) : Bool := decide (op = 7) || decide (op = 8)
/-- Commands that name a partition. -/
def isPart (op : Nat) : Bool := decide (3 ≤ op) && decide (op ≤ 6)

/-- The commands accepted before this one that have not completed. -/
def State.earlier (s : State) (c : HCmd) : List HCmd :=
  (s.hub.cmds.takeWhile (fun x => decide (x.slot ≠ c.slot))).filter (fun x => !x.done)

/-- R321, R323, R324, R431, R444: the command may start. -/
def State.mayStart (s : State) (c : HCmd) : Bool :=
  let e := s.earlier c
  (!c.fence || e.isEmpty) && (decide (c.part = 0xFF) || e.all (fun x => decide (x.part ≠ c.part)))
    && (!isDma c.op || e.all (fun x => !(isDma x.op && decide (x.engine = c.engine))))
    && (!isTrust c.op || e.all (fun x => !isTrust x.op))
    && (!s.hub.warm || isTrust c.op || decide (c.op = 0x0D))

/-- R314: a command under way whose slot a host-interface reset has freed; it goes on, and no completion follows. -/
def HCmd.slotless (c : HCmd) : Bool := decide (1024 ≤ c.slot)

/-- R314: the slot of a command under way is freed: it keeps its place among the commands under a number no slot has. -/
def HCmd.freed (c : HCmd) : HCmd := { c with slot := c.slot % 1024 + 1024 * (c.handle + 1) }

/-- The accepted command in a slot, if it has the opcode, is not complete, and has started or may start; before it, one under
way that a host-interface reset took from the slot. -/
def State.command (s : State) (slot op : Nat) : Option HCmd :=
  match s.hub.cmds.find? (fun c => c.slotless && decide (c.slot % 1024 = slot) && decide (c.op = op)) with
  | some c => some c
  | none =>
    match s.cmdAt slot with
    | some c => if c.op = op && !c.done && (c.launched || s.mayStart c) then some c else none
    | none => none

/-- The command's completion is formed; its slot is freed once the record is written (R318, R327). -/
def State.finish (s : State) (c : HCmd) (cls code aux detail : Nat) : State :=
  if c.slotless then { s with hub := { s.hub with cmds := s.hub.cmds.filter (fun x => decide (x.slot ≠ c.slot)) } }
  else (s.modCmd c.slot (fun x => { x with done := true })).postCompletion c.handle cls code c.op c.part aux detail c.vec false

/-- R362, R431: every BUSY command that names a partition completes with ABORTED; a LOAD under way names those of its image
(DEDUCED, log entry 36). -/
def State.abortPartCommands (s : State) (code : Nat) : State :=
  (s.hub.cmds.filter (fun c => !c.done && (decide (c.part ≠ 0xFF) || (decide (c.op = 2) && c.launched)))).foldl (fun s c => s.finish c 5 code 0 0) s

/-- NOP. -/
def nopCmd (slot : Nat) (s : State) : State :=
  match s.command slot 0 with
  | some c => s.finish c 0 0 0 0
  | none => s

/-- SYSTEM (R278, R322): stored for the next bring-up. -/
def systemCmd (slot : Nat) (s : State) : State :=
  match s.command slot 1 with
  | some c => ({ s with hub := { s.hub with sysRank := c.f 16 1, sysSize := c.f 17 1 } } : State).finish c 0 0 0 0
  | none => s

/-- R314: the hub may write host memory. -/
def State.hostWrites (s : State) : Bool := s.hub.busMaster && s.flag .hub Reg.hubCtrlClogEn

/-! Slots and SUBMIT (R316, R318–R322). -/

/-- The 256 bytes of a slot. -/
def State.slotRaw (s : State) (n : Nat) : BitVec 2048 := BitVec.ofNat 2048 (leNat (s.hub.slots.bytes (256 * n) 256))

/-- SLOT_WRITE: a FREE slot takes the bytes; a BUSY slot discards the write and counts it. -/
def slotWrite (n o : Nat) (bs : List Byte) (s : State) : State :=
  if (s.cmdAt n).isSome then s.sat .hub Reg.hubSlotWrIgn 1
  else { s with hub := { s.hub with slots := s.hub.slots.putBytes (256 * n + o) (bs.take (256 - o)) } }

/-- What a host read returned. -/
def State.answer (s : State) (status : Nat) (bs : List Byte) : State :=
  { s with hub := { s.hub with reply := ⟨status, bs⟩ } }

/-- Argument bytes that an opcode names (R322, R323): offset and length. -/
def argSpans (op : Nat) : List (Nat × Nat) :=
  match op with
  | 0x01 => [(16, 2)]
  | 0x02 => [(16, 16)]
  | 0x03 => [(16, 1)]
  | 0x05 => [(16, 1)]
  | 0x06 => [(16, 1), (24, 16)]
  | 0x07 => [(16, 25), (44, 17), (64, 4)]
  | 0x08 => [(16, 25), (44, 17), (64, 4)]
  | 0x09 => [(16, 1), (20, 4)]
  | 0x0A => [(16, 8), (24, 4)]
  | 0x0B => [(16, 17), (40, 8)]
  | 0x0C => [(16, 8)]
  | 0x0D => [(16, 1)]
  | 0x10 => [(16, 16)]
  | 0x11 => [(16, 1)]
  | 0x12 => [(16, 16)]
  | 0x13 => [(16, 32)]
  | _ => []

/-- R322: the opcode exists. -/
def opcodeOk (op : Nat) : Bool := decide (op ≤ 0x0D) || isTrust op

/-- An engine address of this rank in one of the spaces. -/
def State.hostAddrOk (s : State) (a : Nat) (spaces : List Nat) : Bool :=
  decide (a < 2 ^ 58) && decide (dRank a = s.rank) && spaces.contains (dSpace a)

/-- R323: the layout of a DMA command. -/
def State.dmaOk (s : State) (c : HCmd) : Bool :=
  let fl := c.f 60 1
  let len := c.f 24 8
  let tgt := c.f 32 8
  decide (fl < 16) && decide (len % 32 = 0) && decide (32 ≤ len) && decide (len ≤ 2 ^ 34) && decide (c.f 40 1 < 64)
    && (!fl.testBit 0 || (decide (1 ≤ c.f 64 4) && decide (c.f 64 4 ≤ 65536)))
    && (!fl.testBit 3 || s.hostAddrOk (c.f 48 8) [4])
    && (if fl.testBit 1 then decide (c.op = 7) && s.hostAddrOk tgt [0xE] && decide (tgt % 2 ^ 21 = 0)
          && decide (tgt / 2 ^ 43 % 32 = 0)
        else s.hostAddrOk tgt [0, 1, 2] && decide (tgt % 32 = 0))

/-- R320, R321: the descriptor has the layout and ranges of its command. -/
def State.descOk (s : State) (c : HCmd) : Bool :=
  let b (o : Nat) : Nat := c.f o 1
  decide (c.f 6 10 = 0) && decide (b 1 < 2) && decide (c.vec < 2048)
    && (if isPart c.op then decide (c.part < 64) else decide (c.part = 0xFF))
    && (if isDma c.op then decide (b 5 < 8) || decide (b 5 = 0xFF) else decide (b 5 = 0) || decide (b 5 = 0xFF))
    && (List.range 240).all (fun i => decide (b (16 + i) = 0)
        || (argSpans c.op).any (fun x => decide (x.1 ≤ 16 + i) && decide (16 + i < x.1 + x.2)))
    && (match c.op with
        | 0x01 => decide (b 16 < 64) && decide (1 ≤ b 17) && decide (b 17 ≤ 64)
        | 0x03 => decide (b 16 < 2)
        | 0x05 => decide (b 16 < 2)
        | 0x06 => decide (b 16 < 2)
        | 0x07 => s.dmaOk c
        | 0x08 => s.dmaOk c
        | 0x09 => decide (b 16 < 64)
        | 0x0A => s.hostAddrOk (c.f 16 8) [4]
        | 0x0B => s.hostAddrOk (c.f 16 8) [0] && decide (b 32 < 2) && decide (0 < c.f 24 8)
        | 0x0C => decide (6000 ≤ c.f 16 4) && decide (c.f 16 4 ≤ 25000) && decide (1 ≤ c.f 20 4) && decide (c.f 20 4 ≤ 500)
        | 0x0D => decide (b 16 < 2)
        | 0x11 => decide (b 16 < 2)
        | _ => true)

/-- R232: the PART_MASKs of the LOADs under way that `p` selects. -/
def State.loadMasks (s : State) (p : HCmd → Bool) : Nat :=
  (s.hub.cmds.filter (fun c => decide (c.op = 2) && c.launched && !c.done && p c)).foldl
    (fun m c => m ||| s.memNat (c.f 16 8 % 2 ^ 48 + 0x20) 8) 0
/-- R232: the PART_MASKs of loads past step 4. -/
def State.loadMask (s : State) : Nat := s.loadMasks (fun _ => true)
/-- R232: those of loads whose step 5 has torn the partitions down. -/
def State.loadApplied (s : State) : Nat := s.loadMasks (fun c => decide (3 ≤ c.stage))

/-- R320: the refusal of a descriptor in a FREE slot; 0 when it is accepted. -/
def State.refusal (s : State) (c : HCmd) : Nat :=
  let p := s.parts.get c.part Part.none
  if !opcodeOk c.op then 2
  else if s.trust.recovery && !(decide (c.op = 0) || decide (c.op = 0x10) || decide (c.op = 0x11)) then 7
  else if s.rd .hub Reg.svcPwrStatState ≠ 4 && !(decide (c.op ≤ 1) || decide (c.op = 0x0D) || isTrust c.op) then 7
  else if !s.descOk c then 3
  else if (c.op = 6 && decide (c.f 16 1 = 1) && !s.hasLicence 4) || (c.op = 1 && decide (32 < c.f 17 1) && !s.hasLicence 1)
    then 4
  else if isPart c.op && decide (c.op ≠ 5) && !s.hub.warm && s.loadMask.testBit c.part then 6
  else if isPart c.op && (decide (p.state = 0) || s.hub.warm) then 5
  else if c.op = 6 && decide (c.f 16 1 = 1) && (!p.flags.testBit 1 || decide (c.f 32 8 < 4096 + p.sites.length * 12 * 2 ^ 20))
    then 3
  else if s.rd .hub Reg.hubCtrlClogEn = 0 then 8
  else 0

/-- R321: the least-loaded DMA engine. -/
def State.leastEngine (s : State) : Nat :=
  let load (e : Nat) : Nat := (s.hub.cmds.filter (fun c => !c.done && isDma c.op && decide (c.engine = e))).length
  (List.range 8).foldl (fun b e => if load e < load b then e else b) 0

/-- R331: HUB_DMA_STAT of an engine follows its commands. -/
def State.dmaShow (s : State) (e : Nat) : State :=
  let l := s.hub.cmds.filter (fun c => !c.done && isDma c.op && decide (c.engine = e))
  let st := match l with
    | [] => 0
    | c :: _ => if !c.launched then 0 else if (c.f 60 1).testBit 2 && !c.passed then 1 else if c.stage = 0 then 2 else 3
  let run := match l with | c :: _ => if c.launched then 1 else 0 | [] => 0
  let s := s.wri .hub Reg.hubDmaStatState e st
  let s := s.wri .hub Reg.hubDmaStatQdepth e (l.length - run)
  s.wri .hub Reg.hubDmaStatSlot e (match l with | c :: _ => if c.launched then c.slot else 0 | [] => 0)

/-- SUBMIT (R318–R320): a read of a slot's SUBMIT register answers the handle or the refusal code. -/
def submit (n : Nat) (s : State) : State :=
  let ref (s : State) (code : Nat) : State := (s.sat .hub Reg.hubRefused 1).answer 0 (leBytes 8 code)
  if (s.cmdAt n).isSome then ref s 1
  else
    let raw := s.slotRaw n
    let b (o w : Nat) : Nat := raw.toNat / 2 ^ (8 * o) % 2 ^ (8 * w)
    let c : HCmd := ⟨n, 0, b 0 1, (b 1 1).testBit 0, b 2 2, b 4 1, b 5 1, raw, false, false, false, 0, 0, 0, 0, 0, s.now⟩
    let k := s.refusal c
    if k ≠ 0 then ref s k
    else
      let g := s.hub.gen + 1
      let h := g * 1024 + n
      let e := if isDma c.op then (if c.engine = 0xFF then s.leastEngine else c.engine) else 0xFF
      let s := s.count .hub Reg.hubCmds Reg.hubWrap 0 1
      let s : State := { s with hub := { s.hub with
        gen := g
        warm := s.hub.warm || (decide (c.op = 0x0D) && decide (c.f 16 1 = 0) && decide (s.rd .hub Reg.svcPwrStatState = 4))
        cmds := s.hub.cmds ++ [({ c with handle := h, engine := e } : HCmd)] } }
      (if isDma c.op then s.dmaShow e else s).answer 0 (leBytes 8 h)

/-! Hub springs (R325). -/

/-- The hub spring a command waits on and its threshold; none when it does not wait. -/
def HCmd.waitsOn (c : HCmd) : Option (Nat × Nat) :=
  if c.done || c.passed || !c.launched then none
  else if c.op = 9 then some (c.f 16 1, c.f 20 4)
  else if isDma c.op && (c.f 60 1).testBit 2 then some (c.f 40 1, c.f 44 4)
  else none

/-- R325: waiters of hub spring m pass in order of acceptance while COUNT is at or above their threshold; one that does
not pass holds those after it, except a threshold of 0. A WAIT_HUB that passes completes. -/
def State.hubPass (s : State) (m : Nat) : State :=
  let go (a : Bool × State) (c : HCmd) : Bool × State :=
    match c.waitsOn with
    | none => a
    | some (n, thr) =>
      let s := a.2
      let cnt := s.rdi .hub Reg.hubHsprCount m
      if n ≠ m then a
      else if thr ≠ 0 ∧ (a.1 ∨ cnt < thr) then (true, s)
      else
        let s := (s.wri .hub Reg.hubHsprCount m (cnt - thr)).modCmd c.slot (fun x => { x with passed := true })
        (a.1, if c.op = 9 then s.finish c 0 0 0 0 else s.dmaShow c.engine)
  (s.hub.cmds.foldl go (false, s)).2

/-- WAIT_HUB: the command waits, or passes at once. -/
def waitHub (slot : Nat) (s : State) : State :=
  match s.command slot 9 with
  | some c => (s.modCmd slot (fun x => { x with launched := true })).hubPass (c.f 16 1)
  | none => s

/-- HUB_HSPR: the host replaces a hub spring's counter. -/
def hubHspr (m v : Nat) (s : State) : State := (s.wri .hub Reg.hubHsprCount m v).hubPass m

/-- R325: `amt` is added to hub spring m, saturating. -/
def State.hubAdd (s : State) (m amt : Nat) : State :=
  (s.wri .hub Reg.hubHsprCount m (Min.min (s.rdi .hub Reg.hubHsprCount m + amt) 0xFFFFFFFF)).hubPass m

/-! Requests of the hub (R252, R323, R331). -/

/-- R252: SRC of a hub packet to an address: the bridge nearest its field. -/
def State.hubSrc (s : State) (d : Nat) : Nat := srcStrip s.rank (nearBridge (dField d)) 37

/-- The host address of byte `pos` of a transfer, through the scatter list with SGL. -/
def State.hostAddr (s : State) (c : HCmd) (pos : Nat) : Nat :=
  if (c.f 60 1).testBit 0 then
    let go (a : Nat × Option Nat) (i : Nat) : Nat × Option Nat :=
      match a.2 with
      | some _ => a
      | none =>
        let e := c.f 16 8 + 16 * i
        let len := leNat (s.hostMem.bytes (e + 8) 4)
        if a.1 < len then (0, some (leNat (s.hostMem.bytes e 8) + a.1)) else (a.1 - len, none)
    ((List.range (c.f 64 4)).foldl go (pos, none)).2.getD 0
  else c.f 16 8 + pos

/-- R323: the scatter list has zero reserved bytes and lengths that sum to LEN. -/
def State.sglOk (s : State) (c : HCmd) : Bool :=
  !(c.f 60 1).testBit 0 ||
    (decide (((List.range (c.f 64 4)).map (fun i => leNat (s.hostMem.bytes (c.f 16 8 + 16 * i + 8) 4))).sum = c.f 24 8)
      && (List.range (c.f 64 4)).all (fun i => decide (leNat (s.hostMem.bytes (c.f 16 8 + 16 * i + 12) 4) = 0)))

/-- 32 bytes of host memory at a transfer's position, byte by byte. -/
def State.hostData (s : State) (c : HCmd) (pos : Nat) : List Byte :=
  (List.range 32).map (fun i => s.hostMem.byte (s.hostAddr c (pos + i)))

/-- The transfer's engine address at a position. -/
def HCmd.target (c : HCmd) (pos : Nat) : Nat := if (c.f 60 1).testBit 1 then c.f 32 8 else c.f 32 8 + pos

/-- Start a transfer: its wait, if any, begins. -/
def State.dmaLaunch (s : State) (c : HCmd) : State :=
  if c.launched then s
  else
    let s := s.modCmd c.slot (fun x => { x with launched := true, passed := !(c.f 60 1).testBit 2 })
    let s := if (c.f 60 1).testBit 2 then s.hubPass (c.f 40 1) else s
    s.dmaShow c.engine

/-- DMA_IN, DMA_OUT (R323): the transfer starts, or its engine issues the next 32-byte request. -/
def State.dmaStep (s : State) (slot op : Nat) : State :=
  match s.command slot op with
  | none => s
  | some c0 =>
    let s := s.dmaLaunch c0
    match s.cmdAt slot with
    | none => s
    | some c =>
      let pos := 32 * c.issued
      if !c.passed || decide (c.kind ≠ 0) || decide (c.f 24 8 ≤ pos) || !(if op = 7 then s.hub.busMaster else s.hostWrites) then s
      else if !s.sglOk c then s.modCmd slot (fun x => { x with kind := 1 })
      else
        let d := c.target pos
        let s := s.modCmd slot (fun x => { x with issued := x.issued + 1, outst := x.outst + 1 })
        if op = 7 then
          let q := (c.f 60 1).testBit 1
          (s.sendReq (s.hubSrc d) (if q then 2 else 1) q 31 d (entryOf (s.hostData c pos)) 1 (.hubDma slot pos)).2
        else (s.sendReq (s.hubSrc d) 0 false 31 d 0 1 (.hubDma slot pos)).2

/-- DMA_IN. -/
def dmaIn (slot : Nat) (s : State) : State := s.dmaStep slot 7
/-- DMA_OUT. -/
def dmaOut (slot : Nat) (s : State) : State := s.dmaStep slot 8

/-- DMA_DONE (R323): every request is answered: the command fails with its kind, signals POST_SIG, or completes. -/
def dmaDone (slot : Nat) (s : State) : State :=
  match s.cmdAt slot with
  | none => s
  | some c =>
    if !isDma c.op || c.done || !c.launched || decide (c.outst ≠ 0) then s
    else if c.kind ≠ 0 then (s.finish c 3 c.kind 0 (32 * c.moved)).dmaShow c.engine
    else if 32 * c.issued < c.f 24 8 then s
    else if (c.f 60 1).testBit 3 ∧ c.stage = 0 then
      let d := c.f 48 8
      let s := s.modCmd slot (fun x => { x with stage := 1, outst := 1 })
      ((s.sendSignal (s.hubSrc d) d (c.f 56 4) (.hubSig slot)).2).dmaShow c.engine
    else (s.finish c 0 0 0 0).dmaShow c.engine

/-- HOST_SIGNAL: the SIGNAL command's request leaves; its acknowledgement completes it. -/
def hostSignal (slot : Nat) (s : State) : State :=
  match s.command slot 0x0A with
  | none => s
  | some c =>
    if c.launched then s
    else
      let d := c.f 16 8
      (s.modCmd slot (fun x => { x with launched := true })).sendSignal (s.hubSrc d) d (c.f 24 4) (.hubSig slot) |>.2

/-! Answers to the hub. -/

/-- A write of a transfer was acknowledged. -/
def State.dmaAck (s : State) (slot : Nat) : State :=
  (s.modCmd slot (fun x => { x with outst := x.outst - 1, moved := x.moved + 1 })).count .hub Reg.hubDmaIn Reg.hubWrap 1 1

/-- The data of a transfer's read: issued to host memory. -/
def State.dmaData (s : State) (slot pos v : Nat) : State :=
  match s.cmdAt slot with
  | none => s
  | some c =>
    let m := (leBytes 32 v).zipIdx.foldl (fun (m : Tab Byte) e => m.set (s.hostAddr c (pos + e.2)) 0 e.1) s.hostMem
    (({ s with hostMem := m } : State).modCmd slot (fun x => { x with outst := x.outst - 1, moved := x.moved + 1 })).count
      .hub Reg.hubDmaOut Reg.hubWrap 2 1

/-- A request of a transfer failed with a kind. -/
def State.dmaNack (s : State) (slot kind : Nat) : State :=
  s.modCmd slot (fun x => { x with outst := x.outst - 1, kind := if x.kind = 0 then kind else x.kind })

/-- The signal of a command was acknowledged (kind 0) or failed. -/
def State.hubSigAnswer (s : State) (slot kind : Nat) : State :=
  match s.cmdAt slot with
  | none => s
  | some c =>
    if c.op = 0x0A then s.finish c (if kind = 0 then 0 else 3) kind 0 0
    else s.modCmd slot (fun x => { x with outst := 0, stage := 2, kind := kind })

/-- R324: the wait of a transfer depends on a partition: its target or its signal lies in one of its ponds. -/
def State.dmaDepends (s : State) (c : HCmd) (part : Nat) : Bool :=
  let here (d : Nat) : Bool := decide (s.partOf (dPond d) = some part)
  ([1, 2, 0xE].contains (dSpace (c.f 32 8)) && here (c.f 32 8)) || ((c.f 60 1).testBit 3 && here (c.f 48 8))

/-- R324: STOP, TEARDOWN and KILL fail the transfers whose PRE_WAIT has not passed. -/
def State.abortDmaWaits (s : State) (part : Nat) : State :=
  (s.hub.cmds.filter (fun c => !c.done && isDma c.op && (c.f 60 1).testBit 2 && !c.passed && s.dmaDepends c part)).foldl
    (fun s c => (s.finish c 5 2 0 0).dmaShow c.engine) s

/-! Host window (R314, R325). -/

/-- An answer of the hub to a request that arrived at bridge f. -/
def State.hubAnswer (s : State) (f : Nat) (p : Packet) (typ len : Nat) (payload : BitVec 256) : State :=
  s.respond (srcStrip s.rank f 37) p.src typ len p.tag false payload

/-- R19: the hub refuses a host-window request. -/
def State.hubRefuse (s : State) (f : Nat) (p : Packet) (kind : Nat) : State :=
  (s.recStrip f 37 0x0A 9 0xFF (refusedDetail p.dest kind)).hubAnswer f p 0xA 0 (nackPayload kind p.dest)

/-- A flight for space 0x8 at its bridge. -/
def State.atBridge (s : State) (n : Nat) : Option (Nat × Packet) :=
  match s.atStrip n with
  | some (f, p) => if dSpace p.dest = 8 ∧ (p.typ = 0 ∨ p.typ = 1) then some (f, p) else none
  | none => none

/-- A host-window request of window class `notify` at its bridge. -/
def State.hostWindow (s : State) (n : Nat) (notify : Bool) : State :=
  match s.atBridge n with
  | none => s
  | some (f, p) =>
    let w := p.dest / 2 ^ 44 % 16
    let o := p.dest % 2 ^ 44
    if (w == 15) != notify then s
    else
      let s := s.dropFlight n
      if p.malformed then s.discardStrip f 37 0x0F p
      else if ¬ [19, 20, 27, 28].contains f then s.discardStrip f 36 0x10 p
      else if !s.hostWrites then s.hubRefuse f p 2
      else if notify then
        if p.typ = 1 ∧ o % 32 = 0 ∧ o < 2048 then
          (s.hubAdd (o / 32) (p.payload.toNat % 2 ^ (8 * Min.min 4 (p.len + 1)))).hubAnswer f p 9 1 1
        else s.hubRefuse f p 1
      else
        let size := s.rdi .hub Reg.hubHwinSizeSize w * 4096
        let a := s.rdi .hub Reg.hubHwinBaseBase w * 4096 + o
        if size < o + p.len + 1 then s.hubRefuse f p 1
        else if p.typ = 0 then
          s.hubAnswer f p 8 p.len (BitVec.ofNat 256 (leNat (s.hostMem.bytes a (p.len + 1))))
        else
          ({ s with hostMem := s.hostMem.putBytes a ((bvBytes 32 p.payload).take (p.len + 1)) } : State).hubAnswer f p 9 1 1

/-- HOST_WINDOW_REQUEST. -/
def hostWindowRequest (n : Nat) (s : State) : State := s.hostWindow n false
/-- NOTIFY_WRITE. -/
def notifyWrite (n : Nat) (s : State) : State := s.hostWindow n true

/-! The completion log (R326, R329). -/

/-- CLOG_EN: a write of the enable; from 0 to 1 it also zeroes HEAD and TAIL. -/
def clogEn (v : Bool) (s : State) : State :=
  let was := s.flag .hub Reg.hubCtrlClogEn
  let s := s.wr .hub Reg.hubCtrlClogEn v.toNat
  if v && !was then ((s.wr .hub Reg.hubClogHeadHead 0).wr .hub Reg.hubClogTailTail 0).settleLog else s

/-- CLOG_HEAD: the host returns entries. -/
def clogHead (v : Nat) (s : State) : State :=
  let h := s.rd .hub Reg.hubClogHeadHead
  let t := s.rd .hub Reg.hubClogTailTail
  let d (x : Nat) : Nat := (x + 2 ^ 32 - h) % 2 ^ 32
  if d (v % 2 ^ 32) ≤ d t then (s.wr .hub Reg.hubClogHeadHead v).settleLog else s.wr .hub Reg.hubStatusClogErr 1

/-- BUS_MASTER_ENABLE (R314): the host writes Bus Master Enable over a link that has trained to `width` lanes at `rate` (the
codes of HUB_STATUS). -/
def busMasterEnable (v : Bool) (width rate : Nat) (s : State) : State :=
  (({ s with hub := { s.hub with busMaster := v } } : State).wr .hub Reg.hubStatusLinkWidth width |>.wr .hub
    Reg.hubStatusLinkRate rate).settleLog

/-- R314: the command goes on when the host interface is reset: one under way that acts on partitions, the engine or the cap. -/
def HCmd.goesOn (c : HCmd) : Bool := c.launched && !c.done && (isPart c.op || [2, 0xC, 0xD].contains c.op)

/-- R314: the host interface is reset; partitions keep running, and the answers to requests of stopped transfers do nothing. -/
def State.hostReset (s : State) : State :=
  let s : State := { s with
    hub := { s.hub with
      held := []
      lost := 0
      slots := []
      cmds := (s.hub.cmds.filter HCmd.goesOn).map (fun c => if c.slotless then c else c.freed)
      warm := s.hub.cmds.any (fun c => c.goesOn && decide (c.op = 0x0D) && decide (c.f 16 1 = 0)) }
    parts := s.parts.map (fun e => (e.1, { e.2 with spe := false }))
    net := { s.net with outst := s.net.outst.map (fun o => match o.purpose with
      | .hubDma _ _ => { o with purpose := .hubAcc }
      | .hubSig _ => { o with purpose := .hubAcc }
      | _ => o) } }
  let s := (List.range 8).foldl State.dmaShow s
  let s := (s.wr .hub Reg.hubCtrlClogEn 0).wr .hub Reg.hubClogHeadHead 0
  let s := (s.wr .hub Reg.hubClogTailTail 0).wr .hub Reg.hubStatusCompletionBackpressure 0
  let s := (List.range 15).foldl (fun s w => (s.wri .hub Reg.hubHwinBaseBase w 0).wri .hub Reg.hubHwinSizeSize w 0) s
  s.wr .hub Reg.hubBar2BaseBase 0

/-! Apertures (R316, R317). -/

/-- HUB_CSR_WIN: the pond of the tile window. -/
def hubCsrWin (f p : Nat) (s : State) : State :=
  if 48 ≤ f ∨ 288 ≤ p then s.wr .hub Reg.hubStatusWinErr 1
  else (s.wr .hub Reg.hubCsrWinField f).wr .hub Reg.hubCsrWinPond p

/-- HUB_BAR2_BASE: the aperture moves. -/
def hubBar2Base (v : Nat) (s : State) : State :=
  if 96 ≤ v then s.wr .hub Reg.hubStatusWinErr 1 else s.wr .hub Reg.hubBar2BaseBase v

/-- The wafer has power: states 3 and 4 (R359). -/
def State.waferOn (s : State) : Bool :=
  let st := s.rd .hub Reg.svcPwrStatState
  decide (st = 3) || decide (st = 4) || decide (st = 5)

/-- R317: field and field-window offset of a BAR2 access; none when it is refused as out of range. -/
def State.bar2At (s : State) (o n : Nat) : Option (Nat × Nat) :=
  let b := s.rd .hub Reg.hubBar2BaseBase
  let f := b / 2
  let off := b % 2 * 2 ^ 36 + o
  if 2 ^ 36 < o + n ∨ (s.dram f).usable < off + n ∨ ¬ s.waferOn ∨ s.dramStopped f then none else some (f, off)

/-- R157, R162: some burst of a range answers DATA_LOSS to a read, or to a write that does not replace it whole. -/
def State.dramLost (s : State) (f o n : Nat) (wr : Bool) : Bool :=
  let d := s.dram f
  (List.range (n / 64 + 2)).any (fun i =>
    let b := (o / 64 + i) * 64
    decide (b < o + n) && (d.dead.testBit (d.chan b)
      || (s.dramBad (dramKey f b) 64 && !(wr && decide (o ≤ b) && decide (b + 64 ≤ o + n)))))

/-- R168: the bursts of a range that an access of the aperture reads and writes: one that it writes in part is read first (R156). -/
def State.barBursts (s : State) (f o n : Nat) (wr : Bool) : State :=
  (List.range (n / 64 + 2)).foldl (fun s i =>
    let b := (o / 64 + i) * 64
    let ch := (s.dram f).chan b
    if o + n ≤ b ∨ n = 0 then s
    else
      let s := if wr && decide (o ≤ b) && decide (b + 64 ≤ o + n) then s else s.chCount f ch Reg.dramChRd 0 1
      if wr then s.chCount f ch Reg.dramChWr 1 1 else s) s

/-- BAR2_ACCESS (R317). -/
def bar2Access (a : Bar2) (s : State) : State :=
  let err (s : State) : State := s.wr .hub Reg.hubStatusBar2Err 1
  match a with
  | .read o n =>
    match s.bar2At o.toNat n with
    | none => (err s).answer 1 []
    | some (f, off) =>
      if s.dramLost f off n false then (s.dramLoss f off 0xFF 9).answer 2 [] else (s.barBursts f off n false).answer 0 (s.mem.bytes (dramKey f off) n)
  | .write o bs =>
    match s.bar2At o.toNat bs.length with
    | none => err s
    | some (f, off) =>
      if s.dramReadOnly f off bs.length then
        err (s.sat .hub Reg.hubSlotWrIgnBar2Deny 1)
      else if s.dramLost f off bs.length true then err s
      else
        let s := (s.barBursts f off bs.length true).dramPut f off bs
        { s with bad := s.bad.filter (fun e => !(decide (dramKey f off ≤ e.1) && decide (e.1 + 64 ≤ dramKey f off + bs.length)
            && decide (e.1 < 2 ^ 48))) }

/-- R316: only aligned 4-byte and 8-byte accesses. -/
def regOpOk (o n : Nat) : Bool := (decide (n = 4) || decide (n = 8)) && decide (o % n = 0)

/-- R316, R456: a register read over BAR0. -/
def State.barRead (s : State) (u : UnitId) (o n : Nat) : State :=
  if n = 4 then
    let r := s.csrRead32 u o 3
    r.2.answer 0 (leBytes 4 r.1)
  else ({ s with latches := s.latches.set (4 * u.idx + 3) (0, 0) (0, 0) } : State).answer 0 (leBytes 8 (s.csrRead u o))

/-- TILE_WINDOW_ACCESS (R315, R316): units 0–17 of the pond that HUB_CSR_WIN selects, over the service plane. -/
def tileWindowAccess (a : RegOp) (s : State) : State :=
  let g := 288 * s.rd .hub Reg.hubCsrWinField + s.rd .hub Reg.hubCsrWinPond
  let win (s : State) : State := s.wr .hub Reg.hubStatusWinErr 1
  let gone (u o : Nat) : Bool := !s.waferOn || !s.goodPond g || s.lakeGone (lakeOf g) || (decide (u < 16) && s.csrFailed g u o)
  match a with
  | .read o n =>
    let u := o / 4096
    if !regOpOk o n then s.answer 1 []
    else if 18 ≤ u then s.answer 0 (leBytes n 0)
    else if gone u (o % 4096) then (win s).answer 1 []
    else s.barRead (ownUnit g u) (o % 4096) n
  | .write o n v =>
    let u := o / 4096
    if !regOpOk o n then s.answer 1 []
    else if 18 ≤ u then s
    else if gone u (o % 4096) then win s
    else s.csrWriteBytes (ownUnit g u) (o % 4096) n v true

/-- PTM_EXCHANGE (R313). -/
def ptmExchange (host : Nat) (s : State) : State :=
  ((s.wr .hub Reg.hubPtmGtGt s.now).wr .hub Reg.hubPtmHostHost host).wr .hub Reg.hubStatusPtmValid 1

end Sys2Proof.Machine
end

