-- ==== Sys2Proof/Machine/Answers.lean ====
section
/-! DEFINITION. Responses at their requesters, and requests that time out (R189–R193, R238, R240, R416). -/

namespace Sys2Proof.Machine

/-- How a request was answered: data, an acknowledgement, a SIGACK with its grant bit, or a kind of failure. -/
inductive Reply1 where
  | data (v : Nat)
  | ack
  | sigack (grant : Bool)
  | nack (kind : Nat)
  deriving DecidableEq, Repr

/-- The kind of a failure; 0 where there is none. -/
def Reply1.kind : Reply1 → Nat
  | .nack k => k
  | _ => 0

/-- R189, R191, R193: what an answer does to the sender's table. -/
def State.senderAnswered (s : State) (o : Outst) (r : Reply1) : State :=
  let key := pondDest o.dest
  if srcIsStrip o.src then s
  -- the answer to a RELEASE frees the evicted entry
  else if o.typ = 7 then
    s.setSenderTab o.src ((s.senderTab o.src).filter (fun e => !(decide (e.dest = key) && e.rel)))
  else if o.tab then s.modSender o.src key (fun e => { e with out := e.out - 1 })
  else if o.typ = 3 then
    match r with
    | .nack _ => s.modSender o.src key (fun e => { e with pend := false, grant := false, clean := false })
    | .sigack b => s.modSender o.src key (fun e => { e with pend := false, grant := b })
    | _ => s.modSender o.src key (fun e => { e with pend := false })
  else s

/-- The unit that sent the request acts on its answer (R120, R141, R144, R153, R238, R304, R307, R323, R328). -/
def State.unitAnswered (s : State) (o : Outst) (r : Reply1) : State :=
  let g := srcPond o.src
  let t := srcTileN o.src
  let n := srcSub o.src - 1
  let f := srcField o.src
  let c := srcUnit o.src - 64
  match o.purpose, r with
  | .sload rd size sign, .data v => s.loadAnswer g rd size sign (some v)
  | .sload rd size sign, .nack _ => s.loadAnswer g rd size sign none
  | .spost, .nack _ => s.negCompletion g
  | .ssig, .nack _ => s.negCompletion g
  | .gread h into, .data v => s.genData g t n h into v
  | .gread h _, .nack k => s.genNack g t n h k
  | .gwrite h, .nack k => s.genNack g t n h k
  | .gwrite h, _ => s.genAck g t n h
  | .gsig h, .nack k => s.genNack g t n h k
  | .gsig h, _ => s.genSigAck g t n h
  | .oq, .nack _ => if t = 5 then s.negCompletion g else s
  | .writeback, _ => s.setPmem g { s.pmemOf g with wbOut := (s.pmemOf g).wbOut - 1 }
  | .fill l p, .data v => s.fillPart g l p (some (BitVec.ofNat 256 v)) 0
  | .fill l p, .nack k => s.fillPart g l p none k
  | .hubDma slot pos, .data v => s.dmaData slot pos v
  | .hubDma slot _, .nack k => s.dmaNack slot k
  | .hubDma slot _, _ => s.dmaAck slot
  | .hubSig slot, _ => s.hubSigAnswer slot r.kind
  | .coll p, .nack k => s.collNack f c p k
  | .coll p, _ => s.collAck f c p
  | .collRead p pos, .data v => s.collData f c p pos v
  | .collRead p _, .nack k => s.collNack f c p k
  | .cq q, .nack _ => s.contribAck g t q false
  | .cq q, _ => s.contribAck g t q true
  | _, _ => s

/-- Request i has `n` of its answers: it is forgotten once none is due. -/
def State.settle (s : State) (i n : Nat) (o : Outst) : State :=
  { s with net := { s.net with
    outst := if o.due ≤ n then s.net.outst.eraseIdx i else s.net.outst.set i { o with due := o.due - n } } }

/-- An answer to request i. -/
def State.answered (s : State) (i : Nat) (r : Reply1) : State :=
  match s.net.outst[i]? with
  | none => s
  | some o =>
    let s := s.settle i 1 o
    -- R416: the units behind a closed boundary take no effect
    if !srcIsStrip o.src && s.resetting (srcPond o.src) (srcTileN o.src) then s.senderAnswered o r
    else (s.senderAnswered o r).unitAnswered o r

/-- The response of flight n at its destination. -/
def State.atRequester (s : State) (n : Nat) : Option Packet :=
  match s.atTile n with
  | some (_, _, p) => if 8 ≤ p.typ then some p else none
  | none =>
    match s.atStrip n with
    | some (_, p) => if 8 ≤ p.typ then some p else none
    | none => none

/-- R242: a broken packet is discarded where it arrives. -/
def State.discardHere (s : State) (n kind : Nat) (p : Packet) : State :=
  match s.atTile n with
  | some (g, t, _) => (s.eject n (16 * g + t)).discardTile g t kind p
  | none => (s.dropFlight n).discardStrip (dField p.dest) (p.dest % 128) kind p

/-- R238: a response with no request, or after its timeout, is discarded and counted. -/
def State.discardLate (s : State) (n : Nat) : State :=
  match s.atTile n with
  | some (g, t, _) => (s.eject n (16 * g + t)).sat (.tile g t) Reg.rtrDiscard 1
  | none => s.dropFlight n

/-- A response is consumed where it arrives. -/
def State.consume (s : State) (n : Nat) : State :=
  match s.atTile n with
  | some (g, t, _) => s.eject n (16 * g + t)
  | none => s.dropFlight n

/-- R238: a request to `dest` is one that the target unit with identity `src` answers: a tile of the pond addressed, or the
strip unit: the channel controller of the address on this wafer. -/
def State.answersFor (s : State) (dest src : Nat) : Bool :=
  decide (dRank dest = srcRank src) &&
    (if srcIsStrip src then
      (match dSpace dest with
        | 0 => decide (dField dest = srcField src)
            && (decide (dRank dest ≠ s.rank) || decide ((s.dram (dField dest)).chan (dramOff dest) = srcUnit src))
        | 0xC => decide (dField dest = srcField src) && decide (dest % 128 = srcUnit src)
        | 8 => decide (srcUnit src = 37)
        | _ => false)
    else decide (dPond dest = srcPond src))

/-- The oldest request answered by an ACK that a sender has at the unit that answers, for an ACK that covers several (R238). -/
def State.oldestOf (s : State) (p : Packet) : Option Nat :=
  s.net.outst.findIdx? (fun o => decide (destOfSrc o.src = p.dest) && s.answersFor o.dest p.src
    && [1, 2, 4, 7].contains o.typ)

/-- An ACK that covers k more requests of the sender. -/
def State.ackMore (s : State) (p : Packet) : Nat → State
  | 0 => s
  | k + 1 =>
    match s.oldestOf p with
    | some i => State.ackMore (s.answered i .ack) p k
    | none => s

/-- R314: data of a DMA_OUT waits while the hub may not write host memory. -/
def State.dataWaits (s : State) (i : Nat) : Bool :=
  match s.net.outst[i]? with
  | some o => (match o.purpose with | .hubDma _ _ => !s.hostWrites | _ => false)
  | none => false

/-- A response of TYPE `typ` is consumed by its requester. -/
def State.response (s : State) (n typ : Nat) (r : Packet → Reply1) : State :=
  match s.atRequester n with
  | none => s
  | some p =>
    if p.malformed then s.discardHere n 0x0F p
    else if p.typ ≠ typ then s
    else
      match s.net.outst.findIdx? (fun o => decide (destOfSrc o.src = p.dest) && decide (o.tag = p.tag)) with
      | none => s.discardLate n
      | some i =>
        if typ = 8 && s.dataWaits i then s
        else
          let s := (s.consume n).answered i (r p)
          if typ = 9 then s.ackMore p (p.payload.toNat % 65536 - 1) else s

/-- RDATA (R240): the data of a READ. -/
def rdata (n : Nat) (s : State) : State :=
  s.response n 8 (fun p => .data (p.payload.toNat % 2 ^ (8 * (p.len + 1))))
/-- ACK. -/
def ackCmd (n : Nat) (s : State) : State := s.response n 9 (fun _ => .ack)
/-- NACK: byte 0 is the kind. -/
def nackCmd (n : Nat) (s : State) : State := s.response n 0xA (fun p => .nack (p.payload.toNat % 256))
/-- SIGACK: bit 0 is the grant. -/
def sigackCmd (n : Nat) (s : State) : State := s.response n 0xB (fun p => .sigack (p.payload.toNat.testBit 0))

/-- RESPONSE_TIMEOUT (R238): the i-th unanswered request counts as answered with NO_RESPONSE. -/
def responseTimeout (i : Nat) (s : State) : State :=
  match s.net.outst[i]? with
  | none => s
  | some o => ({ s with net := { s.net with outst := s.net.outst.set i { o with due := 1 } } } : State).answered i (.nack 12)

end Sys2Proof.Machine
end

