-- ==== Sys2Proof/Machine/Crypto.lean ====
section
/-! DEFINITION. SHA-256, ECDSA P-256 verification and CRC-32 as the spec names them (R202, R226, R267, R428, R437; their
constants are the published standards', PRESUMED, log entry 19). -/

namespace Sys2Proof.Machine

/-! SHA-256. -/

/-- The integer part of the k-th root of n, for a root below 2^b: one bit of the root from k bits of n. -/
def rootBits (k n : Nat) : Nat → Nat
  | 0 => 0
  | b + 1 =>
    let r := 2 * rootBits k (n / 2 ^ k) b
    if (r + 1) ^ k ≤ n then r + 1 else r

/-- The first 32 bits of the fraction of the k-th root of p. -/
def rootFrac (k p : Nat) : BitVec 32 := BitVec.ofNat 32 (rootBits k (p * 2 ^ (32 * k)) 40)

/-- The 64 primes below 312. -/
def smallPrimes : List Nat :=
  (List.range 312).filter (fun p => decide (2 ≤ p) && (List.range 18).all (fun d => decide (d < 2 ∨ p ≤ d ∨ p % d ≠ 0)))

/-- Round constants: the standard takes them from the cube roots of the first 64 primes. -/
def shaK : List (BitVec 32) := smallPrimes.map (rootFrac 3)

/-- Initial hash value: from the square roots of the first 8 primes. -/
def shaH0 : List (BitVec 32) := (smallPrimes.take 8).map (rootFrac 2)

/-- Big-endian number of bytes. -/
def beNat (bs : List Byte) : Nat := bs.foldl (fun a b => 256 * a + b.toNat) 0
/-- n bytes of a number, big-endian. -/
def beBytes (n v : Nat) : List Byte := (leBytes n v).reverse

/-- The exclusive or of a word turned right by two amounts and by a third (`turn`) or shifted right by it. -/
def shaMix (w : BitVec 32) (i j k : Nat) (turn : Bool) : BitVec 32 :=
  w.rotateRight i ^^^ w.rotateRight j ^^^ (if turn then w.rotateRight k else w >>> k)

/-- The words of a block, extended to 64: each new one from those 2, 7, 15 and 16 places before it. -/
def shaSched (block : List Byte) : List (BitVec 32) :=
  let first := (List.range 16).map (fun i => BitVec.ofNat 32 (beNat ((block.drop (4 * i)).take 4)))
  ((List.range 48).foldl (fun (back : List (BitVec 32)) _ =>
    let at_ (n : Nat) := back.getD (n - 1) 0
    (at_ 16 + shaMix (at_ 15) 7 18 3 false + at_ 7 + shaMix (at_ 2) 17 19 10 false) :: back) first.reverse).reverse

/-- One round on the eight working words, the first last. -/
def shaRound (v : List (BitVec 32)) (kw : BitVec 32) : List (BitVec 32) :=
  let w (n : Nat) := v.getD n 0
  let choose := (w 4 &&& w 5) ||| (~~~(w 4) &&& w 6)
  let most := (w 0 &&& (w 1 ||| w 2)) ||| (w 1 &&& w 2)
  let t := w 7 + kw + choose + shaMix (w 4) 6 11 25 true
  (t + most + shaMix (w 0) 2 13 22 true) :: ((v.take 7).modify 3 (· + t))

/-- One 64-byte block. -/
def shaBlock (h : List (BitVec 32)) (block : List Byte) : List (BitVec 32) :=
  let r := (List.zipWith (· + ·) shaK (shaSched block)).foldl shaRound h
  List.zipWith (· + ·) h r

/-- Padding of a message. -/
def shaPad (m : List Byte) : List Byte :=
  m ++ [0x80] ++ List.replicate ((119 - m.length % 64) % 64) 0 ++ beBytes 8 (8 * m.length)

/-- The SHA-256 of bytes, as 32 bytes. -/
def sha256 (m : List Byte) : List Byte :=
  let p := shaPad m
  let h := (List.range (p.length / 64)).foldl (fun h i => shaBlock h ((p.drop (64 * i)).take 64)) shaH0
  (h.map (fun w => beBytes 4 w.toNat)).flatten

/-- The SHA-256 of bytes as a little-endian number of its 32 bytes. -/
def shaNat (m : List Byte) : Nat := leNat (sha256 m)

/-! ECDSA on P-256. -/

/-- Field prime. -/
def p256p : Nat := 0xffffffff00000001000000000000000000000000ffffffffffffffffffffffff
/-- Group order. -/
def p256n : Nat := 0xffffffff00000000ffffffffffffffffbce6faada7179e84f3b9cac2fc632551
/-- Curve constant b. -/
def p256b : Nat := 0x5ac635d8aa3a93e7b3ebbd55769886bc651d06b0cc53b0f63bce3c3e27d2604b
/-- Base point. -/
def p256g : Nat × Nat :=
  (0x6b17d1f2e12c4247f8bce6e563a440f277037d812deb33a0f4a13945d898c296,
   0x4fe342e2fe1a7f9b8ee7eb4a7c0f9e162bce33576b315ececbb6406837bf51f5)

/-- Modular power for exponents of up to `k` bits. -/
def powMod (m b e : Nat) : Nat → Nat
  | 0 => 1 % m
  | k + 1 =>
    let h := powMod m b (e / 2) k
    if e % 2 = 1 then h * h % m * b % m else h * h % m

/-- Inverse modulo a prime. -/
def invMod (m a : Nat) : Nat := powMod m (a % m) (m - 2) 256

/-- Point addition; none is the point at infinity. -/
def ecAdd (x y : Option (Nat × Nat)) : Option (Nat × Nat) :=
  match x, y with
  | none, q => q
  | p, none => p
  | some (x1, y1), some (x2, y2) =>
    if x1 = x2 ∧ (y1 + y2) % p256p = 0 then none
    else
      let l := if x1 = x2 then 3 * (x1 * x1 + p256p - 1) % p256p * invMod p256p (2 * y1) % p256p
        else (y2 + p256p - y1) % p256p * invMod p256p (x2 + p256p - x1) % p256p
      let x3 := (l * l + 2 * p256p - x1 - x2) % p256p
      some (x3, (l * (x1 + p256p - x3) + p256p - y1) % p256p)

/-- Scalar multiplication for scalars of up to `k` bits. -/
def ecMul (p : Option (Nat × Nat)) (e : Nat) : Nat → Option (Nat × Nat)
  | 0 => none
  | k + 1 =>
    let h := ecMul p (e / 2) k
    let d := ecAdd h h
    if e % 2 = 1 then ecAdd d p else d

/-- The point lies on the curve. -/
def ecOn (x y : Nat) : Bool :=
  decide (x < p256p) && decide (y < p256p)
    && decide (y * y % p256p = (x * x % p256p * x + (p256p - 3) * x + p256b) % p256p)

/-- Verify the signature (r, s), 64 big-endian bytes, over a message under a key of 64 bytes. -/
def ecdsaOk (key msg sig : List Byte) : Bool :=
  let qx := beNat (key.take 32)
  let qy := beNat ((key.drop 32).take 32)
  let r := beNat (sig.take 32)
  let s := beNat ((sig.drop 32).take 32)
  if ecOn qx qy ∧ 0 < r ∧ r < p256n ∧ 0 < s ∧ s < p256n then
    let z := beNat (sha256 msg)
    let w := invMod p256n s
    match ecAdd (ecMul (some p256g) (z * w % p256n) 256) (ecMul (some (qx, qy)) (r * w % p256n) 256) with
    | some (x, _) => decide (x % p256n = r)
    | none => false
  else false

/-! CRC-32 (R267). -/

/-- One byte into the CRC-32 register (reflected, polynomial 0x04C11DB7). -/
def crc32Step (c : Nat) (b : Byte) : Nat :=
  (List.range 8).foldl (fun x _ => if x % 2 = 1 then (x / 2) ^^^ 0xEDB88320 else x / 2) (c ^^^ b.toNat)

/-- The CRC-32 of bytes. -/
def crc32 (bs : List Byte) : Nat := (bs.foldl crc32Step 0xFFFFFFFF) ^^^ 0xFFFFFFFF

end Sys2Proof.Machine
end

