-- ==== Sys2Proof/Machine/Image.lean ====
section
/-! DEFINITION. The configuration image: its container, its records and where each record's bytes go (R199–R225, R298). -/

namespace Sys2Proof.Machine

/-! Reading the staged image (R199–R203). `b` is the offset of the image in space 0x0. -/

/-- Little-endian number of n bytes at image offset o. -/
def State.imgN (s : State) (b o n : Nat) : Nat := s.memNat (b + o) n

/-- R201: a section: its index, TYPE, PART, body offset, body length, record count. -/
structure Sec where
  i : Nat
  typ : Nat
  part : Nat
  off : Nat
  size : Nat
  recs : Nat
  deriving DecidableEq, Repr

/-- R200: number of sections. -/
def State.imgS (s : State) (b : Nat) : Nat := Min.min (s.imgN b 0x28 4) 16384

/-- The section table. -/
def State.secs (s : State) (b : Nat) : List Sec :=
  (List.range (s.imgS b)).map (fun i =>
    let o := 0x100 + 64 * i
    ⟨i, s.imgN b o 2, s.imgN b (o + 2) 1, s.imgN b (o + 8) 8, s.imgN b (o + 16) 8, s.imgN b (o + 24) 4⟩)

/-- R203: record width of the types whose records have one; 0 for blocks. -/
def recWidth (typ : Nat) : Nat :=
  match typ with
  | 1 => 32 | 2 => 16 | 3 => 8 | 5 => 16 | 6 => 16 | 7 => 16 | 9 => 16 | 0xA => 16 | 0xE => 64 | 0xF => 64
  | _ => 0

/-- Bytes of the record at image offset o of a section of this type. -/
def State.recBytes (s : State) (b typ o : Nat) : Nat :=
  match typ with
  | 4 => 8 + 16 * s.imgN b (o + 4) 4
  | 8 => 8 + 8 * s.imgN b (o + 2) 2
  | 0xB => 16 + 128 * s.imgN b (o + 4) 2
  | 0xC => 32 + s.imgN b (o + 4) 4
  | 0xD => 32 + (if s.imgN b (o + 3) 1 = 0 then (s.imgN b (o + 4) 4 + 31) / 32 * 32 else 0)
  | _ => recWidth typ

/-- Image offsets of the records of a section, as far as they lie inside it. -/
def State.recOffs (s : State) (b typ fin : Nat) : Nat → Nat → List Nat
  | 0, _ => []
  | n + 1, o =>
    let w := s.recBytes b typ o
    if w = 0 ∨ fin < o + w then [] else o :: State.recOffs s b typ fin n (o + w)

/-- R201: a record: section, index in it, image offset, partition. -/
structure Rec where
  sec : Nat
  idx : Nat
  off : Nat
  part : Nat
  deriving DecidableEq, Repr

/-- The records of a section. -/
def State.secRecs (s : State) (b : Nat) (x : Sec) : List Rec :=
  (s.recOffs b x.typ (x.off + x.size) (Min.min x.recs x.size) x.off).zipIdx.map (fun e => ⟨x.i, e.2, e.1, x.part⟩)

/-- All records of a type in table order. -/
def State.recsOf (s : State) (b typ : Nat) : List Rec :=
  ((s.secs b).filter (fun x => decide (x.typ = typ))).flatMap (s.secRecs b)

/-- The records of a type and a partition. -/
def State.recsIn (s : State) (b typ part : Nat) : List Rec := (s.recsOf b typ).filter (fun r => decide (r.part = part))

/-! Container checks (R202). -/

/-- All n bytes from o are zero. -/
def State.imgZero (s : State) (b o n : Nat) : Bool := (s.mem.bytes (b + o) n).all (fun x => decide (x = 0))

/-- R202 step 1: the header. -/
def State.headOk (s : State) (b len : Nat) : Bool :=
  let L := s.imgN b 8 8
  let ns := s.imgN b 0x28 4
  decide (s.imgN b 0 4 = 0x43464749) && decide (s.imgN b 4 2 = 1) && decide (s.imgN b 6 2 < 2) && decide (L = len)
    && decide (L % 32 = 0) && decide (512 ≤ L) && decide (L ≤ 2 ^ 30) && decide (s.imgN b 0x10 8 ≠ 0)
    && decide (1 ≤ ns) && decide (ns ≤ 16384) && decide (s.imgN b 0x2C 1 < 64) && decide (1 ≤ s.imgN b 0x2D 1)
    && decide (s.imgN b 0x2D 1 ≤ 64) && decide (s.imgN b 0x2E 2 < 32) && s.imgZero b 0x78 136
    && decide (0x100 + 64 * ns + 128 ≤ L)

/-- R202 step 1: one entry of the section table, whose body lies after that of the entry before and before the signature block. -/
def State.entryOk (s : State) (b : Nat) (x : Sec) : Bool :=
  let prior : Nat := (((s.secs b)[x.i - 1]?).map (fun y => if x.i = 0 then 0 else y.off + y.size)).getD 0
  s.imgZero b (0x103 + 64 * x.i) 5 && s.imgZero b (0x11C + 64 * x.i) 4 && decide (x.off % 32 = 0)
    && decide (0x100 + 64 * s.imgN b 0x28 4 ≤ x.off) && decide (x.off + x.size ≤ s.imgN b 8 8 - 128) && decide (prior ≤ x.off)

/-- R202 step 1. -/
def State.formatOk (s : State) (b len : Nat) : Bool := s.headOk b len && (s.secs b).all (s.entryOk b)

/-- R202: the code of the first failed step, 0 when the image is accepted; `keyHash` is the enrolled hash. -/
def State.containerCode (s : State) (b len : Nat) (keyHash : Nat) : Nat :=
  if !s.formatOk b len then 1
  else
    let L := s.imgN b 8 8
    let key := s.mem.bytes (b + (L - 128)) 64
    let kh := shaNat key
    if kh ≠ s.imgN b 0x50 32 ∨ kh ≠ keyHash ∨ keyHash = 0 then 2
    else if !ecdsaOk key (s.mem.bytes b (L - 128)) (s.mem.bytes (b + (L - 64)) 64) then 3
    else if shaNat (s.mem.bytes (b + 0x100) (64 * s.imgN b 0x28 4)) ≠ s.imgN b 0x30 32 then 4
    else if (s.secs b).any (fun x => decide (shaNat (s.mem.bytes (b + x.off) x.size) ≠ s.imgN b (0x120 + 64 * x.i) 32)) then 4
    else 0

/-! Fields of records. -/

/-- R205: the PARTITION record of a partition. -/
def State.partRec (s : State) (b p : Nat) : Option Rec := (s.recsIn b 1 p)[0]?
/-- R207: the PLACEMENT entry of a logical pond. -/
def State.placeRec (s : State) (b p lp : Nat) : Option Rec := (s.recsIn b 2 p).find? (fun r => decide (s.imgN b r.off 2 = lp))
/-- PONDS. -/
def State.imgPonds (s : State) (b p : Nat) : Nat :=
  match s.partRec b p with
  | some r => s.imgN b (r.off + 4) 2
  | none => 0
/-- FLAGS of a partition. -/
def State.imgFlags (s : State) (b p : Nat) : Nat :=
  match s.partRec b p with
  | some r => s.imgN b (r.off + 2) 2
  | none => 0

/-- R211: the TILE_FUNC record of a position of a logical pond: the specific one, else the one for every pond. -/
def State.funcRec (s : State) (b p lp pos : Nat) : Option Rec :=
  let l := (s.recsIn b 3 p).filter (fun r => decide (s.imgN b (r.off + 2) 1 = pos))
  match l.find? (fun r => decide (s.imgN b r.off 2 = lp)) with
  | some r => some r
  | none => l.find? (fun r => decide (s.imgN b r.off 2 = 0xFFFF))
/-- R211: FUNC; 0 with no record. -/
def State.funcOf (s : State) (b p lp pos : Nat) : Nat :=
  match s.funcRec b p lp pos with
  | some r => s.imgN b (r.off + 3) 1 % 16
  | none => 0
/-- R211: MIN_ARRAYS. -/
def State.minArrays (s : State) (b p lp pos : Nat) : Nat :=
  match s.funcRec b p lp pos with
  | some r => s.imgN b (r.off + 3) 1 / 16 % 4 + 1
  | none => 1
/-- R212: the register block of an INDEX. -/
def State.blockRec (s : State) (b p idx : Nat) : Option Rec := (s.recsIn b 4 p).find? (fun r => decide (s.imgN b r.off 4 = idx))
/-- The register block of a tile, or of POND_ at position 16. -/
def State.tileBlock (s : State) (b p lp pos : Nat) : Option Rec :=
  match s.funcRec b p lp pos with
  | some r => s.blockRec b p (s.imgN b (r.off + 4) 4)
  | none => none
/-- R223: the program of a logical pond. -/
def State.progRec (s : State) (b p lp : Nat) : Option Rec :=
  let l := s.recsIn b 0xC p
  match l.find? (fun r => decide (s.imgN b r.off 2 = lp)) with
  | some r => some r
  | none => l.find? (fun r => decide (s.imgN b r.off 2 = 0xFFFF))

/-! Where the image's words go (R212, R222–R224). -/

/-- A range of a section's body and where it is written: a register of unit `unit` at `dst`, or memory of the tile (or of
the scratchpad for unit 16) from offset `dst`. -/
structure IWrite where
  unit : Nat
  reg : Bool
  dst : Nat
  len : Nat
  sec : Nat
  src : Nat
  deriving DecidableEq, Repr

/-- Register block entries of a logical pond. -/
def State.regWrites (s : State) (b p lp : Nat) : List IWrite :=
  (List.range 17).flatMap (fun pos =>
    match s.tileBlock b p lp pos with
    | some r => (List.range (s.imgN b (r.off + 4) 4)).map (fun i =>
        let o := r.off + 8 + 16 * i
        ⟨pos, true, s.imgN b o 4, 8, r.sec, o + 8⟩)
    | none => [])

/-- Its program and its generators' descriptors. -/
def State.codeWrites (s : State) (b p lp : Nat) : List IWrite :=
  (match s.progRec b p lp with
    | some r => [(⟨5, false, s.imgN b (r.off + 8) 4, s.imgN b (r.off + 4) 4, r.sec, r.off + 32⟩ : IWrite)]
    | none => [])
  ++ ((s.recsIn b 0xB p).filter (fun r => decide (s.imgN b r.off 2 = lp))).map (fun r =>
      (⟨16, false, s.imgN b (r.off + 8) 4, 128 * s.imgN b (r.off + 4) 2, r.sec, r.off + 16⟩ : IWrite))

/-- The preloads of a logical pond. -/
def State.preloads (s : State) (b p lp : Nat) : List Rec :=
  (s.recsIn b 0xD p).filter (fun r => decide (s.imgN b r.off 2 = lp))

/-- Its inline preloads. -/
def State.inlineWrites (s : State) (b p lp : Nat) : List IWrite :=
  ((s.preloads b p lp).filter (fun r => decide (s.imgN b (r.off + 3) 1 = 0))).map (fun r =>
    ⟨s.imgN b (r.off + 2) 1, false, s.imgN b (r.off + 8) 4, s.imgN b (r.off + 4) 4, r.sec, r.off + 32⟩)

/-! Fix-ups (R214–R216). -/

/-- A fix-up: the section and image offset of its word, KIND, TPART, TRANK. -/
structure Fix where
  sec : Nat
  at_ : Nat
  kind : Nat
  tpart : Nat
  trank : Nat
  deriving DecidableEq, Repr

/-- The fix-ups of a partition. -/
def State.fixes (s : State) (b p : Nat) : List Fix :=
  let tab := s.secs b
  (s.recsIn b 5 p).map (fun r =>
    let n := s.imgN b r.off 2
    ⟨n, (tab.getD n ⟨0, 0, 0, 0, 0, 0⟩).off + s.imgN b (r.off + 4) 4, s.imgN b (r.off + 8) 1, s.imgN b (r.off + 9) 1,
      s.imgN b (r.off + 10) 1⟩)

/-- Low bit of the 15 bits that a fix-up of a KIND replaces. -/
def fixLow (kind : Nat) : Nat := if kind < 2 then 28 else 15
/-- R215: the 15 bits of a word set to a site. -/
def fixPut (kind v g : Nat) : Nat :=
  let lo := fixLow kind
  v - v / 2 ^ lo % 2 ^ 15 * 2 ^ lo + (g / 288 * 2 ^ 9 + g % 288) * 2 ^ lo
/-- The logical pond in a word. -/
def fixLp (kind v : Nat) : Nat := v / 2 ^ fixLow kind % 2 ^ 15

/-- The site of a logical pond of a partition, of this rank or of another's export. -/
def State.siteOf (s : State) (f : Fix) (lp : Nat) : Option Nat :=
  if f.kind % 2 = 0 then
    ((s.parts.get f.tpart Part.none).sites.find? (fun x => decide (x.1 = lp))).map (fun x => x.2)
  else (s.img.peers.find? (fun x => decide (x.rank = f.trank) && decide (x.part = f.tpart) && decide (x.lpond = lp))).map
    (fun x => x.site)

/-- Bytes of the image from offset o, with the fix-ups of their words resolved. -/
def State.fixedBytes (s : State) (b : Nat) (fx : List Fix) (o n : Nat) : List Byte :=
  let raw := s.mem.bytes (b + o) n
  (fx.filter (fun f => decide (o ≤ f.at_) && decide (f.at_ + 8 ≤ o + n))).foldl (fun bs f =>
    let v := s.imgN b f.at_ 8
    match s.siteOf f (fixLp f.kind v) with
    | some g => bs.take (f.at_ - o) ++ leBytes 8 (fixPut f.kind v g) ++ bs.drop (f.at_ - o + 8)
    | none => bs) raw

/-- The unit of a position of a pond. -/
def posUnit (g pos : Nat) : UnitId := if pos = 16 then .pond g else .tile g pos
/-- The memory key of an offset at a position of a pond. -/
def posKey (g pos o : Nat) : Nat := if pos = 16 then pondKey g o else coreKey g pos o

/-- R212: the loader's write of a register. The stages of a V-core are judged as whole sets when the image is checked (R115). -/
def State.loaderWrite (s : State) (g pos o v : Nat) : State :=
  if pos < 16 ∧ tileType pos = .v ∧ 0x40 ≤ o ∧ o < 0x100 then s.csrStore (posUnit g pos) o v (2 ^ 64 - 1)
  else s.csrWrite (posUnit g pos) o v (if pos = 16 ∧ o = 0x200 then 8 else 2 ^ 64 - 1) true

/-- Carry out a write of the image in pond g: memory written whole has good check bits (R421). -/
def State.imgWrite (s : State) (b : Nat) (fx : List Fix) (g : Nat) (w : IWrite) : State :=
  let bs := s.fixedBytes b fx w.src w.len
  if w.reg then s.loaderWrite g w.unit w.dst (leNat bs)
  else (s.putMem (posKey g w.unit w.dst) bs).healSram (posKey g w.unit w.dst) w.len

/-! Writing a pond's configuration (R211–R213, R217, R222–R224). -/

/-- R217: RTR_QDEST of one wiring record in pond g. -/
def State.wire (s : State) (b g lp : Nat) (r : Rec) : State :=
  let fl := s.imgN b (r.off + 6) 1
  let remote := fl.testBit 1
  let dp := s.imgN b (r.off + 7) 1
  let dlp := if fl.testBit 2 then lp else s.imgN b (r.off + 8) 2
  let rank := if remote then s.imgN b (r.off + 10) 1 else s.rank
  let f : Fix := ⟨0, 0, if remote then 1 else 0, dp, rank⟩
  let d := if fl.testBit 2 then some g else s.siteOf f dlp
  let u := UnitId.tile g (s.imgN b (r.off + 2) 1)
  let q := s.imgN b (r.off + 3) 1
  let d' := d.getD 0
  let s' := ((s.wri u Reg.rtrQdestQueue q (s.imgN b (r.off + 5) 1)).wri u Reg.rtrQdestTile q (s.imgN b (r.off + 4) 1)).wri u
    Reg.rtrQdestPond q (d' % 288)
  let s' := ((s'.wri u Reg.rtrQdestField q (d' / 288)).wri u Reg.rtrQdestRank q rank).wri u Reg.rtrQdestUnord q (fl % 2)
  s'.wri u Reg.rtrQdestValid q (if d.isSome then 1 else 0)

/-- The wiring records of a logical pond: those for every pond first, so that the specific ones stand. -/
def State.wireRecs (s : State) (b p lp : Nat) : List Rec :=
  let l := s.recsIn b 6 p
  l.filter (fun r => decide (s.imgN b r.off 2 = 0xFFFF)) ++ l.filter (fun r => decide (s.imgN b r.off 2 = lp))

/-- R217: the wiring records in force for a logical pond: the last of those for each output queue. -/
def State.wiresOf (s : State) (b p lp : Nat) : List Rec :=
  let q (r : Rec) : Nat × Nat := (s.imgN b (r.off + 2) 1, s.imgN b (r.off + 3) 1)
  (s.wireRecs b p lp).zipIdx.filterMap (fun e =>
    if ((s.wireRecs b p lp).drop (e.2 + 1)).any (fun r => decide (q r = q e.1)) then none else some e.1)

/-- R217: write the wiring of a pond. -/
def State.wirePond (s : State) (b p lp g : Nat) : State := (s.wiresOf b p lp).foldl (fun s r => s.wire b g lp r) s

/-- R59, R211, R223: what the functions and the program fix in a pond's registers. -/
def State.funcRegs (s : State) (b p lp g : Nat) : State :=
  let s := (List.range 16).foldl (fun s t =>
    let u := UnitId.tile g t
    match s.funcOf b p lp t with
    | 1 => (s.wr u Reg.mcoreCtrlMode 0).wr u Reg.mcoreCfgChkEn (s.imgFlags b p % 2)
    | 2 => (s.wr u Reg.mcoreCtrlMode 1).wr u Reg.mcoreCfgChkEn (s.imgFlags b p % 2)
    | 3 => s.wr u Reg.vcoreCfgSelect 0
    | 4 => s.wr u Reg.vcoreCfgSelect 1
    | _ => s) s
  match s.progRec b p lp with
  | none => s
  | some r =>
    let u := UnitId.tile g 5
    ((s.wr u Reg.scoreBootEntry (s.imgN b (r.off + 12) 4)).wr u Reg.scoreEvtVec (s.imgN b (r.off + 16) 4)).wr u Reg.scoreEvtEn
      (s.imgN b (r.off + 20) 2 ||| 0x122)

/-- R212–R223: the registers, wiring, program and descriptors of a pond, written from the staging region. -/
def State.configure (s : State) (b p lp g : Nat) : State :=
  let fx := s.fixes b p
  let s := (s.regWrites b p lp).foldl (fun s w => s.imgWrite b fx g w) s
  let s := (s.codeWrites b p lp).foldl (fun s w => s.imgWrite b fx g w) s
  (s.funcRegs b p lp g).wirePond b p lp g

/-- R224: one preload: inline, copied from a weight reference, or zero. -/
def State.preload (s : State) (b : Nat) (fx : List Fix) (g : Nat) (r : Rec) : State :=
  let unit := s.imgN b (r.off + 2) 1
  let n := s.imgN b (r.off + 4) 4
  let k := posKey g unit (s.imgN b (r.off + 8) 4)
  match s.imgN b (r.off + 3) 1 with
  | 0 => s.imgWrite b fx g ⟨unit, false, s.imgN b (r.off + 8) 4, n, r.sec, r.off + 32⟩
  | 1 =>
    match s.img.refs.find? (fun x => decide (x.index = s.imgN b (r.off + 12) 4)) with
    | some x => (s.putMem k (s.mem.bytes (x.base % 2 ^ 48 + s.imgN b (r.off + 16) 8) n)).healSram k n
    | none => s
  | _ => (s.zeroMem k n).healSram k n

/-- R224: the preloads of a pond in section order. -/
def State.preloadPond (s : State) (b p lp g : Nat) : State :=
  let fx := s.fixes b p
  (s.preloads b p lp).foldl (fun s r => s.preload b fx g r) s

/-- R220: the springs of a pond: 0 without a record, specific records over those for every pond. -/
def State.springInit (s : State) (b p lp g : Nat) : State :=
  let l := s.recsIn b 9 p
  let s : State := { s with springs := s.springs.clear (fun k => decide (k / 64 = g)) }
  (l.filter (fun r => decide (s.imgN b r.off 2 = 0xFFFF)) ++ l.filter (fun r => decide (s.imgN b r.off 2 = lp))).foldl
    (fun s r => (List.range (s.imgN b (r.off + 3) 1)).foldl (fun s i =>
      s.setSpring g (s.imgN b (r.off + 2) 1 + i)
        { Spring.zero with count := s.imgN b (r.off + 4) 4, thresh := s.imgN b (r.off + 8) 4 }) s) s

/-- R222: queue the first START descriptors of each program block. -/
def State.queuePrograms (s : State) (b p lp g : Nat) : State :=
  ((s.recsIn b 0xB p).filter (fun r => decide (s.imgN b r.off 2 = lp))).foldl (fun s r =>
    (List.range (s.imgN b (r.off + 6) 1)).foldl (fun s i =>
      let raw := BitVec.ofNat 1024 (s.memNat (pondKey g (s.imgN b (r.off + 8) 4 + 128 * i)) 128)
      (s.genQueue g (s.imgN b (r.off + 2) 1) (s.imgN b (r.off + 3) 1) raw 1).1) s) s

/-- R61, R421 step 6: a start sets RUN in the vector cores, A-units and S-core of a pond that have a function; the M-cores'
RUN is set by the S-core's program (DEDUCED, log entry 22). The S-core starts at its entry with g1. -/
def State.runPond (s : State) (b p lp g g1 : Nat) : State :=
  let s := (List.range 16).foldl (fun s t =>
    match s.funcOf b p lp t with
    | 3 => s.wr (.tile g t) Reg.vcoreCtrlRun 1
    | 4 => s.wr (.tile g t) Reg.vcoreCtrlRun 1
    | 5 => s.wr (.tile g t) Reg.auCtrlRun 1
    | _ => s) s
  (s.setScore g ((s.score g).setReg 1 (BitVec.ofNat 32 g1))).scoreRun g true

end Sys2Proof.Machine
end

