-- ==== Sys2Proof/Machine/Reset.lean ====
section
/-! DEFINITION. Boundaries, drains, tile resets, pond cold resets and the scrub (R24, R131, R414–R423, R493). -/

namespace Sys2Proof.Machine

/-! What a boundary closes over (R414–R416). -/

/-- The tiles of a boundary (index 16·pond + tile). -/
def State.tilesIn (s : State) (b : Boundary) : List Nat :=
  match b with
  | .tile g t => [16 * g.val + t.val]
  | .pond g => tilesOf g
  | .part n => (s.pondsOf n).flatMap tilesOf

/-- RUN of a tile's unit set; the wait of an S-core's FIFO head starts again (R123). -/
def State.runTile (s : State) (i : Nat) : State :=
  let u := UnitId.tile (i / 16) (i % 16)
  match tileType (i % 16) with
  | .m => s.wr u Reg.mcoreCtrlRun 1
  | .v => s.wr u Reg.vcoreCtrlRun 1
  | .a => s.wr u Reg.auCtrlRun 1
  | .s => (s.wr u Reg.scoreCtrlRun 1).setScore (i / 16) { s.score (i / 16) with headWait := 0 }

/-- The boundary opens again. -/
def State.openTiles (s : State) (l : List Nat) : State :=
  { s with
    closed := s.closed.filter (fun i => !l.contains i)
    drainDone := s.drainDone.filter (fun i => !l.contains i) }

/-- The drain of every tile has ended. -/
def State.drainOver (s : State) (l : List Nat) : Bool := l.all (fun i => s.drainDone.contains i)

/-- Nothing remains to drain: no request of the tiles is unanswered and, unless only requests count, their output queues
are empty. -/
def State.quiet (s : State) (l : List Nat) (queues : Bool) : Bool :=
  s.net.outst.all (fun o => srcIsStrip o.src || !l.contains (16 * srcPond o.src + srcTileN o.src))
    && (!queues || l.all (fun i => (List.range 8).all (fun q => decide ((s.queue (queueKey (i / 16) (i % 16) true q)).count = 0))))

/-- R415: entries still in the output queues of a tile are discarded and counted. -/
def State.dropOutputs (s : State) (i : Nat) (counted : Bool) : State :=
  (List.range 8).foldl (fun s q =>
    let k := queueKey (i / 16) (i % 16) true q
    let n := (s.queue k).count
    let s := s.setQueue k TQueue.empty
    if counted then s.sat (.pond (i / 16)) Reg.pondRstDiscard n else s) s

/-- R415: requests of these tiles still unanswered count as NO_RESPONSE. -/
def State.failRequests (s : State) (l : List Nat) : State :=
  let go (s : State) (_ : Nat) : State :=
    match s.net.outst.findIdx? (fun o => !srcIsStrip o.src && l.contains (16 * srcPond o.src + srcTileN o.src)) with
    | some i => responseTimeout i s
    | none => s
  (List.range s.net.outst.length).foldl go s

/-! Clearing (R421 step 3, R493 step 3). -/

/-- Counters and wrap bits of a router (R264). -/
def rtrCounter (o : Nat) : Bool :=
  (decide (0x440 ≤ o) && decide (o ≤ 0x460)) || (decide (0x500 ≤ o) && decide (o < 0x680) && decide (o % 64 ≠ 0x30))

/-- The queues, steering units, sender table, generators, core state, collection slots (R261) and registers of a tile, at reset. -/
def State.clearTile (s : State) (i : Nat) : State :=
  let s := s.resetRegs (fun u o => decide (u = i)
    && (decide (o < 0x400) || rtrCounter o || (decide (0x800 ≤ o) && decide (o < 0xC00))))
  let s : State := { s with
    queues := s.queues.clear (fun k => decide (k / 16 = i))
    steers := s.steers.clear (fun k => decide (k / 4 = i))
    senders := s.senders.clear (fun k => decide (k / 8 = i))
    gens := s.gens.clear (fun k => decide (k / 4 = i))
    net := { s.net with rslots := s.net.rslots.clear (fun k => decide (k / 16 = i)) }
    mcores := s.mcores.clear (fun k => decide (k = i))
    vcores := s.vcores.clear (fun k => decide (k = i))
    waiters := s.waiters.filter (fun w => !(decide (w.pond = i / 16) && (match w.place with
      | .queue t _ _ => decide (t = i % 16)
      | .score => decide (i % 16 = 5)))) }
  let s := s.rebase (fun u => decide (u = .tile (i / 16) (i % 16)))
  if i % 16 = 5 then s.setScore (i / 16) SCore.init else s

/-- A pond at reset: every register, but with `keep` POND_MEM_CFG.CACHE_MIB and what the routers show of their links and
epoch; queues, springs, arrival and sender tables,
collection slots, generators, event FIFO; cache tags invalid. -/
def State.clearPond (s : State) (g : Nat) (keep : Bool) : State :=
  let c := s.rd (.pond g) Reg.pondMemCfgCacheMib
  let m := s.pmemOf g
  let s := (tilesOf g).foldl State.clearTile s
  let s := s.resetRegs (fun u o => (decide (u / 16 = g) && decide (u < 221184)
    && !(keep && (decide (o = 0x410) || (decide (0x500 ≤ o) && decide (o % 64 = 0x30))))) || decide (u = 221184 + g))
  let s := if keep then s.wr (.pond g) Reg.pondMemCfgCacheMib c else s
  let s : State := { s with
    springs := s.springs.clear (fun k => decide (k / 64 = g))
    evals := s.evals.clear (fun k => decide (k = g))
    arrivals := s.arrivals.clear (fun k => decide (k = g))
    events := s.events.filter (fun e => decide (e.1 ≠ g))
    opal := s.opal.map (fun e => if e.1 / 16 = g then (e.1, { e.2 with active := false, forced := false }) else e)
    net := { s.net with
      rslots := s.net.rslots.clear (fun k => decide (k / 256 = g))
      cq := s.net.cq.clear (fun k => decide (k / 256 = g)) } }
  (s.rebase (fun u => decide (u = .pond g))).setPmem g { PondMem.init with mapFailed := m.mapFailed, corr := m.corr, retire := m.retire }

/-! Memories (R418, R423). -/

/-- Zero, with good check bits, the core local memory of tile t. -/
def State.zeroTile (s : State) (g t : Nat) : State :=
  if tileType t = .a then s else (s.zeroMem (coreKey g t 0) (2 ^ 18)).healSram (coreKey g t 0) (2 ^ 18)

/-- Zero every byte of pond memory and of the pond's core local memories. -/
def State.zeroPond (s : State) (g : Nat) : State :=
  let s := (s.zeroMem (pondKey g 0) (2 ^ 23)).healSram (pondKey g 0) (2 ^ 23)
  (List.range 16).foldl (fun s t => s.zeroTile g t) s

/-! Self-test (R24, R417). -/

/-- The tile word a self-test leaves in the overlay. -/
def TestFail.tileWord (x : TestFail) (t : Nat) : Nat :=
  (x.cores.getLsbD t).toNat + 2 * (x.routers.getLsbD t).toNat
    + ((List.range 4).map (fun q => 2 ^ (2 + q) * (x.links.getLsbD (4 * t + q)).toNat)).sum
    + (if tileType t = .m then ((List.range 4).map (fun a => 2 ^ (6 + a) * (x.arrays.getLsbD (4 * t + a)).toNat)).sum else 0)

/-- R24: a link of pond g that fails is marked at its far end too. -/
def TestFail.farEnds (x : TestFail) (g : Nat) (w : Tab Nat) : Tab Nat :=
  ((List.range 64).filter (fun k => x.links.getLsbD k)).foldl (fun (w : Tab Nat) k =>
    let j := neighbour (16 * g + k / 4) (k % 4)
    w.set j 0 (w.get j 0 ||| 2 ^ (2 + opposite (k % 4)))) w

/-- R24, R417: the overlay entries of a pond's units after a self-test: a unit that fails is marked, one that passes is
cleared. -/
def State.selfTest (s : State) (g : Nat) (x : TestFail) : State :=
  let m := s.overlay
  let tile := (List.range 16).foldl (fun (w : Tab Nat) t => w.set (16 * g + t) 0 (x.tileWord t)) m.tile
  let s := s.overlayBatch { m with
    tile := x.farEnds g tile
    pond := m.pond.set g 0 x.banks.toNat }
  if s.goodPond g then { s with tests := s.tests.set g PTest.none ⟨s.now + 1, false⟩ } else s.attribute g

/-- R420: a pond qualifies for the warm fast path. -/
def State.warmOk (s : State) (g : Nat) : Bool :=
  let x := s.tests.get g PTest.none
  decide (x.passed ≠ 0) && decide ((s.now + 1 - x.passed) / 10 ^ 9 < 86400) && !x.attr

/-- R139: the banks and core-local banks that await retirement are retired with the units that the self-test fails. -/
def TestFail.retiring (x : TestFail) (retire : Nat) : TestFail :=
  { x with banks := x.banks ||| BitVec.ofNat 34 retire, cores := x.cores ||| BitVec.ofNat 16 (retire / 2 ^ 34) }

/-- R418 steps 4–6: self-test, memories zero, overlay updated, bank map rebuilt, every register at its reset value. -/
def State.coldPond (s : State) (g : Nat) (x : TestFail) : State :=
  let s := ((s.clearPond g false).zeroPond g).selfTest g (x.retiring (s.pmemOf g).retire)
  let s := (List.range 16).foldl (fun s t => s.wr (.tile g t) Reg.rtrStatusEpoch (256 - s.net.epoch % 256)) s
  s.setPmem g { PondMem.init with mapFailed := s.pondW g % 2 ^ 34 }

/-- What the self-test of pond g finds in a list of outcomes. -/
def testOf (l : List (PondIx × TestFail)) (g : Nat) : TestFail :=
  ((l.find? (fun e => decide (e.1.val = g))).map (fun e => e.2)).getD TestFail.clean

/-- R423: the scrub of a pond; one named in `bad` reads back a word that is not zero and takes a cold reset. -/
def State.scrub (s : State) (g : Nat) (bad : List (PondIx × TestFail)) : State :=
  let s := s.zeroPond g
  if bad.any (fun e => decide (e.1.val = g)) then
    ((s.recTile g 5 0 6 0 (2 ^ 23)).sat (.pond g) Reg.pondEccUnc 1).coldPond g (testOf bad g)
  else s

/-! Holes (R418 steps 3 and 7). -/

/-- A pond's routers leave the working graph. -/
def State.cutPond (s : State) (g : Nat) : State :=
  { s with net := { s.net with cutPonds := g :: s.net.cutPonds.filter (fun x => decide (x ≠ g)) } }
/-- They return to it. -/
def State.uncutPond (s : State) (g : Nat) : State :=
  { s with net := { s.net with cutPonds := s.net.cutPonds.filter (fun x => decide (x ≠ g)) } }

/-! TILE, COLD (R418, R493). -/

/-- TILE (R493): asked for a unit written to the overlay map, or for a pond in no partition, the tile's boundary closes;
asked again once the drain has ended, the tile is cleared, its core local memory zeroed, and it returns to service. `bad`:
a word does not read back as zero. -/
def tileReset (g t : Nat) (bad : Bool) (s : State) : State :=
  let i := 16 * g + t
  if !s.closed.contains i then
    if (s.overlay.tile.get i 0).testBit 0 || (s.partOf g).isNone then s.closeTiles [i] else s
  else if !s.drainDone.contains i then s
  else
    let s := (s.clearTile i).zeroTile g t
    (if bad then (s.recTile g t 0 6 0 0).overTile g t 0 else s).openTiles [i]

/-- COLD (R418): a pond in no partition closes its boundary; asked again once the drain has ended, it takes the self-test
with the outcome `x` and returns. -/
def coldReset (g : Nat) (x : TestFail) (s : State) : State :=
  let l := tilesOf g
  if (s.partOf g).isSome then s
  else if !l.all (fun i => s.closed.contains i) then s.closeTiles l
  else if !s.drainOver l then s
  else (((s.coldPond g x).openTiles l).uncutPond g)

end Sys2Proof.Machine
end

