-- ==== Sys2Proof/Machine/Trust.lean ====
section
/-! DEFINITION. The service controller's root of trust: firmware bundles and the boot ROM, the configuration key, licences,
attestation and the IDE stream (R437–R454). -/

namespace Sys2Proof.Machine

/-! What the registers show (R454). -/

/-- Slot n of the flash: 0 A, 1 B. -/
def TrustSt.slot (x : TrustSt) (n : Nat) : FwSlot := if n = 0 then x.slotA else x.slotB

/-- Write a slot of the flash. -/
def TrustSt.setSlot (x : TrustSt) (n : Nat) (v : FwSlot) : TrustSt :=
  if n = 0 then { x with slotA := v } else { x with slotB := v }

/-- SVC_TRUST_STAT and SVC_FW_STAT follow the trust state. -/
def State.trustShow (s : State) : State :=
  let x := s.trust
  let s := (s.wr .hub Reg.svcTrustStatKeyEnrolled (if x.configKey = 0 then 0 else 1)).wr .hub Reg.svcTrustStatSession
    x.session.toNat
  let s := (s.wr .hub Reg.svcFwStatRunning x.running).wr .hub Reg.svcFwStatActive x.active
  let s := (s.wr .hub Reg.svcFwStatTrialSet (if x.trial = 0 then 0 else 1)).wr .hub Reg.svcFwStatRecovery x.recovery.toNat
  (s.wr .hub Reg.svcFwStatSvn (x.slot x.running).svn).wr .hub Reg.svcFwStatC x.c

/-! Firmware bundles (R442–R445). -/

/-- Little-endian number in bytes. -/
def byteNat (bs : List Byte) (o n : Nat) : Nat := leNat ((bs.drop o).take n)
/-- n bytes from o are zero. -/
def zeroAt (bs : List Byte) (o n : Nat) : Bool := ((bs.drop o).take n).all (fun x => decide (x = 0))

/-- R442: OFFSET and SIZE of component c. -/
def bundleComp (bs : List Byte) (c : Nat) : Nat × Nat := (byteNat bs (32 + 48 * c) 8, byteNat bs (40 + 48 * c) 8)

/-- R442, R444, R452: the code a bundle is refused with, 0 when it is valid and not rolled back. -/
def bundleCode (bs : List Byte) (c : Nat) : Nat :=
  let L := byteNat bs 16 8
  if !(decide (384 ≤ bs.length) && decide (bs.length ≤ 2 ^ 26) && decide (byteNat bs 0 4 = 0x4657424E)
      && decide (byteNat bs 4 2 = 1) && zeroAt bs 6 2 && decide (byteNat bs 8 1 ≤ 64) && zeroAt bs 9 7
      && decide (L = bs.length) && decide (L % 32 = 0) && zeroAt bs 176 80
      && [0, 1, 2].all (fun i => decide ((bundleComp bs i).1 + (bundleComp bs i).2 ≤ L - 128))) then 1
  else
    let key := (bs.drop (L - 128)).take 64
    if shaNat key ≠ shaNat Config.firmwareKey then 2
    else if !ecdsaOk key (bs.take (L - 128)) ((bs.drop (L - 64)).take 64) then 3
    else if !([0, 1, 2].all (fun i =>
        decide (shaNat ((bs.drop (bundleComp bs i).1).take (bundleComp bs i).2) = byteNat bs (48 + 48 * i) 32))) then 1
    else if byteNat bs 8 1 < c then 7
    else 0

/-- A valid bundle as the flash keeps it. -/
def bundleSlot (bs : List Byte) : FwSlot :=
  ⟨true, byteNat bs 8 1, byteNat bs 48 32, byteNat bs 96 32, byteNat bs 144 32⟩

/-- A trust command's refusal (R452). -/
def State.trustRefuse (s : State) (c : HCmd) (code : Nat) : State := s.finish c 7 code 0 0

/-- FW_STAGE (R444): `flash`: the slot was written and read back. -/
def fwStage (slot : Nat) (flash : Bool) (s : State) : State :=
  match s.command slot 0x10 with
  | none => s
  | some c =>
    if !s.hub.busMaster then s
    else
      let bs := s.hostMem.bytes (c.f 16 8) (Min.min (c.f 24 8) (2 ^ 26 + 1))
      let k := bundleCode bs s.trust.c
      if k ≠ 0 then s.trustRefuse c k
      else
        let n := 1 - s.trust.running
        let s := ({ s with trust := { (s.trust.setSlot n (if flash then bundleSlot bs else FwSlot.empty)) with
          trial := 0 } } : State).trustShow
        if flash then s.finish c 0 0 0 0 else s.trustRefuse c 10

/-- FW_ACTIVATE with COMMIT = 0: the staged slot is tried at the next hub boot. -/
def fwActivate (slot : Nat) (s : State) : State :=
  match s.command slot 0x11 with
  | none => s
  | some c =>
    let n := 1 - s.trust.running
    if c.f 16 1 ≠ 0 then s
    else if !(s.trust.slot n).valid then s.trustRefuse c 9
    else (({ s with trust := { s.trust with trial := n + 1 } } : State).trustShow).finish c 0 0 0 0

/-- FW_ACTIVATE with COMMIT = 1 (R445): the running slot becomes ACTIVE and C rises to its SVN. -/
def fwActivateCommit (slot : Nat) (s : State) : State :=
  match s.command slot 0x11 with
  | none => s
  | some c =>
    let x := s.trust
    if c.f 16 1 ≠ 1 then s
    else if !(x.slot x.running).valid then s.trustRefuse c 9
    else (({ s with trust := { x with
              active := x.running
              c := Max.max x.c (x.slot x.running).svn } } : State).trustShow).finish c 0 0 0 0

/-! Configuration key (R446). -/

/-- ENROLL_KEY. -/
def enrollKey (slot : Nat) (s : State) : State :=
  match s.command slot 0x13 with
  | none => s
  | some c =>
    if !s.hub.busMaster then s
    else
      let bs := s.hostMem.bytes (c.f 16 8) 64
      if s.trust.configKey ≠ 0 then s.trustRefuse c 8
      else if c.f 24 4 ≠ 0x454E524C then s.trustRefuse c 1
      else if !ecOn (beNat (bs.take 32)) (beNat (bs.drop 32)) then s.trustRefuse c 2
      else (({ s with trust := { s.trust with configKey := shaNat bs } } : State).trustShow).finish c 0 0 0 0

/-! Licences (R447–R450). -/

/-- R448 checks 1–3: 0 or the code of the first that fails. -/
def licenceCode (b : List Byte) : Nat :=
  let f := byteNat b 24 4
  if !(decide (b.length = 160) && decide (byteNat b 0 4 = 0x4C434E53) && decide (byteNat b 4 2 = 1) && zeroAt b 6 2
      && zeroAt b 32 64 && decide (f ≠ 0) && decide (f < 32) && decide (byteNat b 28 4 ≠ 0)) then 1
  else if (b.drop 8).take 16 ≠ Config.moduleSerial then 4
  else if !ecdsaOk Config.licenceKey (b.take 96) (b.drop 96) then 3
  else 0

/-- FEATURES of a blob. -/
def licFeatures (b : List Byte) : Nat := byteNat b 24 4 % 32

/-- LICENCE_INSTALL (R448): `flash`: the slot was written and read back. -/
def licenceInstall (slot : Nat) (flash : Bool) (s : State) : State :=
  match s.command slot 0x12 with
  | none => s
  | some c =>
    if !s.hub.busMaster then s
    else
      let b := s.hostMem.bytes (c.f 16 8) 160
      let k := licenceCode b
      if k ≠ 0 then s.trustRefuse c k
      else if s.trust.lics.any (fun e => decide (byteNat e.2 28 4 = byteNat b 28 4)) then s.trustRefuse c 5
      else
        match (List.range 16).find? (fun n => (s.trust.lics.get n []).isEmpty) with
        | none => s.trustRefuse c 6
        | some n =>
          if !flash then s.trustRefuse c 10
          else
            let s : State := { s with trust := { s.trust with lics := s.trust.lics.set n [] b } }
            let s := ((s.wri .hub Reg.svcLicSlotFeatures n (licFeatures b)).wri .hub Reg.svcLicSlotUsed n 1).wri .hub
              Reg.svcLicSlotIssue n (byteNat b 28 4)
            (s.wr .hub Reg.svcLicEffFeatures (s.rd .hub Reg.svcLicEffFeatures ||| licFeatures b)).finish c 0 0 0 0

/-- R449: verify slot n again: its registers, and LICENCE_FAULT for one that newly fails or fails at a boot. -/
def State.verifySlot (s : State) (n : Nat) : State × Bool :=
  let b := s.trust.lics.get n []
  if b.isEmpty then (s, false)
  else
    let s := ((s.wri .hub Reg.svcLicSlotFeatures n (licFeatures b)).wri .hub Reg.svcLicSlotUsed n 1).wri .hub
      Reg.svcLicSlotIssue n (byteNat b 28 4)
    if licenceCode b = 0 then (s.wri .hub Reg.svcLicSlotBad n 0, true)
    else ((s.wri .hub Reg.svcLicSlotBad n 1).postEvent 0x19 0 n (licFeatures b) 0xFF, false)

/-- R449: at each hub boot, every slot is verified and the effective set formed. -/
def State.verifyLicences (s : State) : State :=
  let r := (List.range 16).foldl (fun (a : State × Nat) n =>
    let x := a.1.verifySlot n
    (x.1, if x.2 then a.2 ||| licFeatures (x.1.trust.lics.get n []) else a.2)) (s, 0)
  r.1.wr .hub Reg.svcLicEffFeatures r.2

/-- R449: a use of a feature: the slots that carry it are verified; none that verifies takes it out of the effective
set. -/
def State.useLicence (s : State) (bit : Nat) : State × Bool :=
  let slots := (List.range 16).filter (fun n => (licFeatures (s.trust.lics.get n [])).testBit bit)
  let r := slots.foldl (fun (a : State × Bool) n => let x := a.1.verifySlot n; (x.1, a.2 || x.2)) (s, false)
  if r.2 then r else (r.1.clrBiti .hub Reg.svcLicEffFeatures 0 bit, false)

/-! Boot (R443). -/

/-- A slot boots: its bundle is valid, its SVN is at least C, and it reaches state 1 in time. -/
def TrustSt.boots (x : TrustSt) (n : Nat) (up : Bool) : Bool := (x.slot n).valid && decide (x.c ≤ (x.slot n).svn) && up

/-- R21, R22: a map has the magic, version and body length of the layout and the flag of its kind (0 factory, 1 overlay). -/
def DMap.shaped (m : DMap) (kind : Nat) : Bool :=
  decide (m.magic = 0x444D4150) && decide (m.version = 1) && decide (m.flags = kind) && decide (m.bodyLen = 553920)

/-- R21: firmware that starts verifies the defect maps: the module leaves service-only only with a factory map that verifies
(MAIN_ENABLE), and an overlay whose signature does not verify is refused: the map then counts as empty. -/
def State.verifyMaps (s : State) : State :=
  let ok := s.factory.shaped 0 && ecdsaOk Config.mapKey s.factory.bytes s.factory.sig
  let good := s.overlay.shaped 1 && (decide (s.overlay.seq = 0) || decide (s.overlay.sig = Config.deviceSign s.overlay.bytes))
  { s with
    overlay := if good then s.overlay else DMap.empty
    pwr := { s.pwr with mapOk := ok } }

/-- The hub runs firmware from a slot in state 1, or is in recovery. -/
def State.booted (s : State) (slot : Option Nat) : State :=
  let x := { s.trust with
    trial := 0
    failed := 0
    running := slot.getD s.trust.active
    recovery := slot.isNone
    conn := 0
    exchange := false
    session := false }
  let s := ({ s with trust := x } : State).trustShow
  if slot.isNone then s else ((s.wr .hub Reg.svcPwrStatState 1).verifyLicences).verifyMaps

/-- R443 steps 2–5: ACTIVE, then the other slot. -/
def TrustSt.bootActive (x : TrustSt) (up : Nat → Bool) : Option Nat :=
  if x.boots x.active (up x.active) then some x.active
  else if x.boots (1 - x.active) (up (1 - x.active)) then some (1 - x.active)
  else none

/-- The hub is out of reset and has not booted. -/
def State.mayBoot (s : State) : Bool :=
  decide (s.rd .hub Reg.svcPwrStatState = 0) && decide (s.rd .hub Reg.svcPwrStatAuxOk = 1) && !s.pwr.modReset

/-- HUB_BOOT: `a` and `b` say whether slots A and B reach state 1 within 2 s. A trial that does not clears TRIAL and makes
the hub restart (FW_TRIAL_FAILED follows). -/
def hubBoot (a b : Bool) (s : State) : State :=
  let up (n : Nat) : Bool := if n = 0 then a else b
  let x := s.trust
  if !s.mayBoot || decide (x.failed ≠ 0) then s
  else if x.trial = 0 then (s.wr .hub Reg.svcFwStatTrialFailed 0).booted (x.bootActive up)
  else if x.boots (x.trial - 1) (up (x.trial - 1)) then (s.wr .hub Reg.svcFwStatTrialFailed 0).booted (some (x.trial - 1))
  else
    ({ s with trust := { x with
      trial := 0
      failed := x.trial } } : State).trustShow

/-- FW_TRIAL_FAILED: after a trial that failed the hub restarts and boots ACTIVE; its firmware posts the failure. -/
def fwTrialFailed (a b : Bool) (s : State) : State :=
  let up (n : Nat) : Bool := if n = 0 then a else b
  let n := s.trust.failed
  if !s.mayBoot || decide (n = 0) then s
  else
    let s := (s.booted (s.trust.bootActive up)).wr .hub Reg.svcFwStatTrialFailed 1
    if s.trust.recovery then s else s.postEvent 0x1A 0 (n - 1) (s.trust.slot (n - 1)).svn 0xFF

/-! Attestation (R439–R441). -/

/-- R440: a measurement block. -/
def State.measurement (s : State) (i : Nat) : List Byte :=
  let x := s.trust
  let f := x.slot x.running
  match i with
  | 1 => leBytes 32 f.hub
  | 2 => leBytes 32 f.geper
  | 3 => leBytes 32 f.sup
  | 4 => leBytes 1 f.svn ++ leBytes 1 x.c
  | 5 => leBytes 32 x.configKey
  | 6 =>
    if s.img.staged.isEmpty then List.replicate 32 0
    else sha256 (s.img.staged.flatMap (fun m => leBytes 8 m.image ++ leBytes 32 m.digest))
  | 7 =>
    if x.lics.isEmpty then List.replicate 32 0
    else
      let ins (b : List Byte) (l : List (List Byte)) : List (List Byte) :=
        l.takeWhile (fun y => decide (byteNat y 28 4 < byteNat b 28 4)) ++ [b]
          ++ l.dropWhile (fun y => decide (byteNat y 28 4 < byteNat b 28 4))
      sha256 ((x.lics.foldr (fun e l => ins e.2 l) []).flatMap id)
  | _ => []

/-- A message that the connection's state does not admit is answered with an error. -/
def State.spdm (s : State) (ok : Bool) (s' : State) (bs : List Byte) : State :=
  if s.rd .hub Reg.svcPwrStatState = 0 then s.answer 1 []
  else if ok then s'.answer 0 bs else s.answer 1 []

/-- The connection after a message (PRESUMED, log entry 21). -/
def State.spdmConn (s : State) (n : Nat) : State := { s with trust := { s.trust with conn := n } }

/-- GET_VERSION: the connection starts anew; version 1.2. -/
def getVersion (s : State) : State :=
  s.spdm true (({ s with trust := { s.trust with
    conn := 1
    exchange := false
    session := false } } : State).trustShow) (leBytes 1 0x12)
/-- GET_CAPABILITIES. -/
def getCapabilities (s : State) : State := s.spdm (decide (s.trust.conn = 1)) (s.spdmConn 2) []
/-- NEGOTIATE_ALGORITHMS: `ok`: the requester offers the algorithms of R439. -/
def negotiateAlgorithms (ok : Bool) (s : State) : State := s.spdm (decide (s.trust.conn = 2) && ok) (s.spdmConn 3) []
/-- GET_DIGESTS: the digest of slot 0's chain. -/
def getDigests (s : State) : State := s.spdm (decide (s.trust.conn = 3)) s (sha256 Config.certChain)
/-- GET_CERTIFICATE: `n` bytes of the chain of a slot from offset `o`. -/
def getCertificate (slot o n : Nat) (s : State) : State :=
  s.spdm (decide (s.trust.conn = 3) && decide (slot = 0)) s ((Config.certChain.drop o).take n)
/-- CHALLENGE: the digest of the chain, and a signature with the device identity key over it and the nonce. -/
def challenge (slot : Nat) (nonce : Entry) (s : State) : State :=
  let m := sha256 Config.certChain ++ bvBytes 32 nonce
  s.spdm (decide (s.trust.conn = 3) && decide (slot = 0)) s (m ++ Config.deviceSign m)
/-- GET_MEASUREMENTS: block `i`, or every block for 0xFF, signed with the nonce. -/
def getMeasurements (i : Nat) (nonce : Entry) (s : State) : State :=
  let bs := if i = 0xFF then (List.range 7).flatMap (fun k => s.measurement (k + 1)) else s.measurement i
  let m := bs ++ bvBytes 32 nonce
  s.spdm (decide (s.trust.conn = 3) && (decide (i = 0xFF) || (decide (1 ≤ i) && decide (i ≤ 7)))) s
    (m ++ Config.deviceSign m)
/-- KEY_EXCHANGE: ends an open session. -/
def keyExchange (slot : Nat) (nonce : Entry) (s : State) : State :=
  let m := sha256 Config.certChain ++ bvBytes 32 nonce
  s.spdm (decide (s.trust.conn = 3) && decide (slot = 0))
    (({ s with trust := { s.trust with
      exchange := true
      session := false } } : State).trustShow) (Config.deviceSign m)
/-- FINISH: `ok`: the requester's verify data is right. The session opens. -/
def finishMsg (ok : Bool) (s : State) : State :=
  s.spdm (s.trust.exchange && ok)
    (({ s with trust := { s.trust with
      exchange := false
      session := true } } : State).trustShow) []
/-- END_SESSION. -/
def endSession (s : State) : State :=
  s.spdm s.trust.session (({ s with trust := { s.trust with session := false } } : State).trustShow) []

/-! The IDE stream (R451). -/

/-- KEY_PROG: `key` into a set of a direction and a sub-stream, which is not the one in use. -/
def keyProg (set dir sub : Nat) (key : Entry) (s : State) : State :=
  let k := 8 * dir + sub
  if !s.trust.session || decide (s.trust.sets.get k 0 = set + 1) then s.answer 1 []
  else ({ s with trust := { s.trust with keys := s.trust.keys.set (16 * set + k) 0 (key.toNat + 1) } } : State).answer 0 []

/-- K_SET_GO: the direction and sub-stream switch to a set that holds a key; the stream is Secure once each has switched. -/
def kSetGo (set dir sub : Nat) (s : State) : State :=
  let k := 8 * dir + sub
  if !s.trust.session || decide (s.trust.keys.get (16 * set + k) 0 = 0) then s.answer 1 []
  else
    let s : State := { s with trust := { s.trust with sets := s.trust.sets.set k 0 (set + 1) } }
    let all := (List.range 2).all (fun d => (List.range 3).all (fun b => decide (s.trust.sets.get (8 * d + b) 0 ≠ 0)))
    (if all then s.wr .hub Reg.hubStatusIdeActive 1 else s).answer 0 []

/-- R451: the stream ends: Insecure, its keys erased, reported by AER. -/
def State.ideEnd (s : State) : State :=
  let was := s.flag .hub Reg.hubStatusIdeActive
  ({ s with trust := { s.trust with
    keys := []
    sets := []
    aer := s.trust.aer || was } } : State).wr .hub Reg.hubStatusIdeActive 0

/-- IDE_INTEGRITY_FAIL: a received TLP fails its integrity check. -/
def ideIntegrityFail (s : State) : State := if s.flag .hub Reg.hubStatusIdeActive then s.ideEnd else s

/-- The PCI Express link is down. -/
def State.pcieDown (s : State) : State := (s.wr .hub Reg.hubStatusLinkWidth 0).wr .hub Reg.hubStatusLinkRate 0

/-- HOST_INTERFACE_RESET (R314, R451): a Function Level Reset, a hot reset or link-down. -/
def hostInterfaceReset (down : Bool) (s : State) : State :=
  let s := s.hostReset.ideEnd
  if down then s.pcieDown else s
/-- PERST (R482). -/
def perst (s : State) : State := s.hostReset.ideEnd.pcieDown

end Sys2Proof.Machine
end

