-- ==== Sys2Proof/Machine/Parts.lean ====
section
/-! DEFINITION. Partitions: sites, the running set, start, stop, teardown, kill, faults and recovery (R16, R206–R210, R215,
R216, R322, R373, R406–R411, R419–R427). -/

namespace Sys2Proof.Machine

/-! Placement (R208, R210). -/

/-- R42, R208: every tile with a function has a good core, every such M-core enough live arrays. -/
def State.funcsOk (s : State) (b p lp g : Nat) : Bool :=
  (List.range 16).all (fun t =>
    decide (s.funcOf b p lp t = 0) || (!(s.tileW g t).testBit 0
      && (!decide (tileType t = .m) || decide (s.minArrays b p lp t ≤ 4 - bitCount 4 (s.tileW g t / 64)))))

/-- R208: pond g is acceptable for a logical pond; `mine` says which partitions' ponds may be taken. -/
def State.acceptable (s : State) (b p lp g : Nat) (mine : Nat → Bool) : Bool :=
  s.goodPond g && s.funcsOk b p lp g
    && (match s.partOf g with
        | none => s.closed.all (fun i => decide (i / 16 ≠ g)) && s.parts.all (fun e => e.2.moves.all (fun m => decide (m.2.2 ≠ g)))
        | some n => mine n)

/-- R207: the candidates of a logical pond in order; 0xFFFF for none. -/
def State.candidates (s : State) (b p lp : Nat) : List Nat :=
  match s.placeRec b p lp with
  | some r => (List.range 4).map (fun i => s.imgN b (r.off + 2 + 2 * i) 2)
  | none => []

/-- R210: the first candidate that is acceptable, free and not the current site. -/
def State.newSite (s : State) (b p lp : Nat) : Option Nat :=
  let now := ((s.parts.get p Part.none).sites.find? (fun x => decide (x.1 = lp))).map (fun x => x.2)
  (s.candidates b p lp).find? (fun c => decide (c < numPonds) && decide (some c ≠ now) && s.acceptable b p lp c (fun _ => false))

/-- R427: the candidates in `l` whose cold reset still runs: they are judged when it has ended. -/
def State.underReset (s : State) (l : List Nat) : List Nat :=
  l.filter (fun g => decide (g < numPonds) && (s.partOf g).isNone && !s.lakeGone (lakeOf g)
    && (tilesOf g).all (fun i => s.closed.contains i))
/-- R427: a placement that names ponds under cold reset is latched there. -/
def State.latchPonds (s : State) (l : List Nat) : State := l.foldl (fun s g => s.wr (.pond g) Reg.pondRstStatSpe 1) s

/-- Change partition n. -/
def State.modPart (s : State) (n : Nat) (f : Part → Part) : State :=
  { s with parts := s.parts.set n Part.none (f (s.parts.get n Part.none)) }

/-- A logical pond of partition n gets a site. -/
def State.setSite (s : State) (n lp g : Nat) : State :=
  s.modPart n (fun p => { p with sites := p.sites.map (fun x => if x.1 = lp then (lp, g) else x) })

/-! What the loader writes to the lakes (R16, R206, R373). -/

/-- R16: the partitions present in a lake. -/
def State.present (s : State) (w : Nat) : List Nat :=
  (s.parts.filter (fun e => e.2.sites.any (fun x => decide (lakeOf x.2 = w)))).map (fun e => e.1)
/-- R16: the partition-presence mask. -/
def State.presence (s : State) (w : Nat) : Nat := ((s.present w).map (fun n => 2 ^ n)).sum

/-- R206: ceilings, R373: priorities. -/
def State.lakeWrites (s : State) : State :=
  (List.range numLakes).foldl (fun s w =>
    let l := (s.present w).map (fun n => s.parts.get n Part.none)
    let s := s.wr (.lake w) Reg.lakeClkLimitCeiling (((l.map (fun p => p.maxN)).min?).getD 16)
    s.wr (.lake w) Reg.lakePwrPrio (((l.map (fun p => p.prio)).max?).getD 7)) s

/-! Leaving the running set (R199, R227, R231, R424 step 6). -/

/-- R216: the sites of an EXPORT partition are published over the service ring. -/
def State.publish (s : State) (n : Nat) : State :=
  let p := s.parts.get n Part.none
  if !p.flags.testBit 2 then s
  else { s with img := { s.img with
    published := s.img.published.filter (fun x => decide (x.part ≠ n)) ++ p.sites.map (fun x => ⟨s.rank, n, x.1, x.2⟩) } }

/-- R231: images with no partition left, but not the image being loaded, leave, their staging regions and weight references with them. -/
def State.releaseImages (s : State) : State :=
  let keep := s.img.staged.filter (fun m => s.parts.any (fun e => decide (e.2.image = m.base))
    || s.hub.cmds.any (fun c => decide (c.op = 2) && c.launched && !c.done && decide (c.f 16 8 % 2 ^ 48 = m.base)))
  { s with img := { s.img with
    staged := keep
    refs := s.img.refs.filter (fun r => keep.any (fun m => decide (m.image = r.image))) } }

/-- R424 step 6: partition n leaves with its grants, groups, overlays and collectives. -/
def State.dropPart (s : State) (n : Nat) : State :=
  let l := (s.pondsOf n).flatMap tilesOf
  let s := s.openTiles l
  (({ s with
    parts := s.parts.set n Part.none Part.none
    img := { s.img with
      grants := s.img.grants.filter (fun x => decide (x.tpart ≠ n))
      overlays := s.img.overlays.filter (fun x => decide (x.part ≠ n))
      groups := s.img.groups.filter (fun x => decide (x.2.part ≠ n))
      colls := s.img.colls.filter (fun x => decide (x.part ≠ n)) } } : State).releaseImages).lakeWrites

/-- R423, R424 steps 5 and 6: registers reset, memories scrubbed, ponds free. -/
def State.freePart (s : State) (n : Nat) (bad : List (PondIx × TestFail)) : State :=
  ((s.pondsOf n).foldl (fun s g => (s.clearPond g true).scrub g bad) s).dropPart n

/-! Rewriting fixed-up words (R215, R217). -/

/-- A word of memory or of a register of a pond, by a write of the image. -/
def State.wordAt (s : State) (g : Nat) (w : IWrite) (o : Nat) : Nat :=
  if w.reg then s.csrRead (posUnit g w.unit) w.dst else s.memNat (posKey g w.unit (w.dst + o)) 8
/-- Replace it. -/
def State.putWordAt (s : State) (g : Nat) (w : IWrite) (o v : Nat) : State :=
  if w.reg then s.csrStore (posUnit g w.unit) w.dst v (2 ^ 64 - 1)
  else s.putMem (posKey g w.unit (w.dst + o)) (leBytes 8 v)

/-- Resolve again the fix-ups that `p` selects in the words of partition n's ponds. -/
def State.refix (s : State) (n : Nat) (p : Fix → Bool) : State :=
  let part := s.parts.get n Part.none
  let b := part.image
  let fx := (s.fixes b n).filter p
  part.sites.foldl (fun s x =>
    (s.regWrites b n x.1 ++ s.codeWrites b n x.1 ++ s.inlineWrites b n x.1).foldl (fun s w =>
      (fx.filter (fun f => decide (f.sec = w.sec) && decide (w.src ≤ f.at_) && decide (f.at_ + 8 ≤ w.src + w.len))).foldl
        (fun s f =>
          match s.siteOf f (fixLp f.kind (s.imgN b f.at_ 8)) with
          | some g => s.putWordAt x.2 w (f.at_ - w.src) (fixPut f.kind (s.wordAt x.2 w (f.at_ - w.src)) g)
          | none => s) s) s) s

/-- Moves of logical ponds: old and new site of each. -/
abbrev Moves := List (Nat × Nat)

/-- The new site of a wafer pond. -/
def Moves.site (l : Moves) (g : Nat) : Nat := ((l.find? (fun x => decide (x.1 = g))).map (fun x => x.2)).getD g

/-- An engine address of this rank in spaces 0x1–0x4, with the wafer pond it names renamed. -/
def State.moveAddr (s : State) (l : Moves) (a : Nat) : Nat :=
  if a < 2 ^ 58 ∧ dRank a = s.rank ∧ 1 ≤ dSpace a ∧ dSpace a ≤ 4 ∧ l.site (dPond a) ≠ dPond a then fixPut 0 a (l.site (dPond a))
  else a

/-- SRC, DST, IND_BASE and SIG of a queued descriptor renamed. -/
def State.moveDesc (s : State) (l : Moves) (d : QDesc) : QDesc :=
  { d with raw := [8, 16, 88, 104].foldl (fun (r : BitVec 1024) o =>
      let v := r.toNat / 2 ^ (8 * o) % 2 ^ 64
      BitVec.ofNat 1024 (r.toNat - v * 2 ^ (8 * o) + s.moveAddr l v * 2 ^ (8 * o))) d.raw }

/-- The queued descriptors of a generator renamed. -/
def State.moveGen (s : State) (l : Moves) (x : Gen) : Gen :=
  { x with queue := x.queue.map (s.moveDesc l), chain := x.chain.map (s.moveDesc l) }

/-- R228: the regions of a partition's collectives renamed. -/
def State.moveColls (s : State) (n : Nat) (l : Moves) : State :=
  { s with img := { s.img with
    colls := s.img.colls.map (fun r => if r.part = n then { r with dst := s.moveAddr l r.dst } else r) } }

/-- R215, R217, R219: after moves of logical ponds of partition n, every word, queued descriptor, also in saved contexts, and wiring
record in the running set that names them is rewritten; in partition n itself only with `own`. -/
def State.rewriteMoved (s : State) (n : Nat) (l : Moves) (own : Bool) : State :=
  let ms := (s.parts.map (fun e => e.1)).filter (fun m => own || decide (m ≠ n))
  let s := ms.foldl (fun s m => s.refix m (fun f => decide (f.kind % 2 = 0) && decide (f.tpart = n))) s
  let s := s.moveColls n l
  let s : State := { s with
    gens := s.gens.map (fun e => (e.1, s.moveGen l e.2))
    saved := s.saved.map (fun e => (e.1, { e.2 with gens := e.2.gens.map (fun x => (x.1, s.moveGen l x.2)), site := l.site e.2.site })) }
  ms.foldl (fun s m =>
    let p := s.parts.get m Part.none
    p.sites.foldl (fun s x =>
      (s.wiresOf p.image m x.1).foldl (fun s r => if s.imgN p.image (r.off + 7) 1 = n then s.wire p.image x.2 x.1 r else s) s) s) s

/-- R215, R422: the descriptors of the contexts scanned into partition n's ponds name the sites they were saved from: renamed. -/
def State.rewriteRestored (s : State) (n : Nat) : State :=
  let p := s.parts.get n Part.none
  let l : Moves := p.sites.filterMap (fun x => (s.saved.find? (fun e => decide (e.1 = 16384 * n + x.1))).map (fun e => (e.2.site, x.2)))
  { s with gens := s.gens.map (fun e =>
    if p.sites.any (fun x => decide (x.2 = e.1 / 64)) then (e.1, s.moveGen l e.2) else e) }

/-! Stopping (R322, R425). -/

/-- A stop is asked for: each S-core runs to its next STEP, and is told so by HOST_CMD (R122). -/
def State.askStop (s : State) (n st : Nat) : State :=
  let l := (s.pondsOf n).map (fun g => (g, s.rd (.tile g 5) Reg.scoreStepStep))
  (s.pondsOf n).foldl (fun s g => s.raise g 9 5) (s.modPart n (fun p => { p with
    state := st
    stopAt := l
    draining := false
    drained := false }))

/-- Every S-core of the partition that runs has passed a STEP since (DEDUCED, log entry 23). -/
def State.atBoundary (s : State) (n : Nat) : Bool :=
  (s.parts.get n Part.none).stopAt.all (fun e => decide (e.2 ≠ s.rd (.tile e.1 5) Reg.scoreStepStep)
    || !s.flag (.tile e.1 5) Reg.scoreCtrlRun || (s.tileW e.1 5).testBit 0 || s.lakeGone (lakeOf e.1))

/-- R407 step 2, R415: RUN cleared in every unit of the partition, its collective contexts fail with ABORTED. -/
def State.clearRun (s : State) (n : Nat) : State :=
  let l := (s.pondsOf n).flatMap tilesOf
  let ran := l.filter (fun i => s.tileRun (i / 16) (i % 16))
  let s := (l.foldl State.stopTile s).collAbort n
  s.modPart n (fun p => { p with
    ran := ran
    stopAt := []
    draining := true
    drained := false })

/-- R145: FLINV in each pond of the partition: dirty lines are written back, every line dropped. -/
def State.flinvPart (s : State) (n : Nat) : State := (s.pondsOf n).foldl (fun s g => s.cacheSweep g 3 (fun _ => true)) s

/-- The drain of partition n has ended: timed out or judged at DRAIN_END, or nothing remains. -/
def State.partDrained (s : State) (n : Nat) : Bool := (s.parts.get n Part.none).drained

/-! START (R216, R299, R419–R422). -/

/-- R216: the remote fix-ups of a partition that name an export not published. -/
def State.unplaced (s : State) (n : Nat) : Bool :=
  let p := s.parts.get n Part.none
  (s.fixes p.image n).any (fun f => decide (f.kind % 2 = 1) && (s.siteOf f (fixLp f.kind (s.imgN p.image f.at_ 8))).isNone)
    || p.sites.any (fun x => (s.wireRecs p.image n x.1).any (fun r => (s.imgN p.image (r.off + 6) 1).testBit 1
      && (s.siteOf ⟨0, 0, 1, s.imgN p.image (r.off + 7) 1, s.imgN p.image (r.off + 10) 1⟩ (s.imgN p.image (r.off + 8) 2)).isNone))

/-- R299: the digest of a collective record's fields that ranks must agree in. -/
def collDigest (r : CollRec) : Nat :=
  shaNat (leBytes 1 r.ctx ++ leBytes 1 r.kind ++ leBytes 1 r.mem.toNat ++ leBytes 1 r.op ++ leBytes 1 r.num.toNat
    ++ leBytes 1 r.fmt ++ leBytes 4 r.timeout ++ leBytes 4 r.shards ++ leBytes 4 r.chunks ++ leBytes 8 r.stage)

/-- R299: some rank disagrees, or defines no record. -/
def State.collMismatch (s : State) (n : Nat) : Bool :=
  !(s.parts.get n Part.none).collOk && (s.img.colls.filter (fun r => decide (r.part = n))).any (fun r =>
    (List.range (s.rd (.opt 0) Reg.optSysSize)).any (fun k => decide (k ≠ s.rank)
      && !s.ring.digests.any (fun d => decide (d.1 = k) && decide (d.2.1 = r.ctx) && decide (d.2.2 = collDigest r))))

/-- R420: logical pond lp of partition n takes the warm path or a cold reset; one that is no longer acceptable is
re-placed. -/
def State.readyPond (s : State) (n lp : Nat) (tests : List (PondIx × TestFail)) : Nat → State × Bool
  | 0 => (s, false)
  | k + 1 =>
    let p := s.parts.get n Part.none
    match p.sites.find? (fun x => decide (x.1 = lp)) with
    | none => (s, false)
    | some (_, g) =>
      if s.warmOk g then ((s.clearPond g true).scrub g tests, true)
      else
        let s := ((s.coldPond g (testOf tests g)).uncutPond g).modPart n (fun p => { p with coldPath := true })
        if s.goodPond g && s.funcsOk p.image n lp g then (s, true)
        else
          match s.newSite p.image n lp with
          | none => (s, false)
          | some g' => State.readyPond ((s.openTiles (tilesOf g)).setSite n lp g') n lp tests k

/-- R212–R224: the image's registers, programs, preloads, springs and descriptors in every pond. -/
def State.configurePart (s : State) (n : Nat) : State :=
  let p := s.parts.get n Part.none
  p.sites.foldl (fun s x =>
    let c := match s.placeRec p.image n x.1 with
      | some r => s.imgN p.image (r.off + 10) 1
      | none => 0
    let s := (s.wr (.pond x.2) Reg.pondMemCfgCacheMib c).configure p.image n x.1 x.2
    ((s.preloadPond p.image n x.1 x.2).springInit p.image n x.1 x.2).queuePrograms p.image n x.1 x.2) s

/-- R312: a partition that starts has sent nothing of its collectives. -/
def State.resetContribs (s : State) (n : Nat) : State :=
  let s := ((s.pondsOf n).flatMap tilesOf).foldl (fun s i => (List.range 8).foldl (fun s q =>
    if s.rdi (.tile (i / 16) (i % 16)) Reg.rtrQcposSent q = 0 then s
    else s.wri (.tile (i / 16) (i % 16)) Reg.rtrQcposSent q 0) s) s
  { s with net := { s.net with cq := s.net.cq.clear (fun k => (s.pondsOf n).contains (k / 256)) } }

/-- The partition runs: the contexts of its collectives begin. -/
def State.runs (s : State) (n : Nat) : State :=
  let s := s.modPart n (fun p => { p with
    state := 3
    spe := false
    stopAt := []
    draining := false
    drained := false
    faultCode := 0
    recStep := 0
    moves := []
    again := false
    hold := none
    collOk := true })
  let s : State := { s with pwr := { s.pwr with started := true } }
  (s.resetContribs n).collStart n

/-- R122: a START tells the S-cores of the partition by HOST_CMD. -/
def State.tellStart (s : State) (n : Nat) : State := (s.pondsOf n).foldl (fun s g => s.raise g 9 5) s

/-- R427: a START that arrives while the partition stops, is torn down, killed or recovers is latched. -/
def State.latchStart (s : State) (slot : Nat) : State :=
  match s.cmdAt slot with
  | some c =>
    let st := (s.parts.get c.part Part.none).state
    if c.op = 3 && !c.done && !c.launched && (decide (st = 4) || decide (st = 6) || decide (st = 7) || decide (st = 8)) then
      s.modPart c.part (fun p => { p with spe := true })
    else s
  | none => s

/-- R427: a disable cancels the latch: the latched STARTs complete with ABORTED. -/
def State.cancelLatch (s : State) (n : Nat) : State :=
  if (s.parts.get n Part.none).spe then
    ((s.hub.cmds.filter (fun c => decide (c.op = 3) && decide (c.part = n) && !c.done && !c.launched)).foldl
      (fun s c => s.finish c 5 2 0 0) s).modPart n (fun p => { p with spe := false })
  else s

/-- A STOP, TEARDOWN or KILL in a slot has arrived: it cancels a latched START before it. -/
def State.disableArrives (s : State) (slot op : Nat) : State :=
  match s.cmdAt slot with
  | some c => if c.op = op && !c.done && !c.launched then s.cancelLatch c.part else s
  | none => s

/-- Mark the command in a slot as under way. -/
def State.beginCmd (s : State) (slot : Nat) : State := s.modCmd slot (fun x => { x with launched := true })

/-- R420 steps 1 and 2: the partition's boundary closes and drains; the handle of the START is kept for run reports. -/
def State.beginReset (s : State) (c : HCmd) : State :=
  let l := (s.pondsOf c.part).flatMap tilesOf
  ((((s.clearRun c.part).closeTiles l).modPart c.part (fun p => { p with
    state := 2
    spe := false
    coldPath := false
    handle := c.handle
    vec := c.vec
    faults := 0
    faultCode := 0
    faultStep := 0 })).beginCmd c.slot)

/-- R419–R421: every pond takes its path; none of the logical ponds that cannot be placed, or the first of them. -/
def State.resetPonds (s : State) (n : Nat) (tests : List (PondIx × TestFail)) : State × Option Nat :=
  (s.parts.get n Part.none).sites.foldl (fun (a : State × Option Nat) x =>
    let r := a.1.readyPond n x.1 tests 6
    (r.1, if a.2.isNone && !r.2 then some x.1 else a.2)) (s, none)

/-- R210, R420: no alternative for a logical pond: the record, and its TIME. -/
def State.noAlternative (s : State) (n lp : Nat) : State :=
  let g := (((s.parts.get n Part.none).sites.find? (fun x => decide (x.1 = lp))).map (fun x => x.2)).getD 0
  s.recTile g 5 0 0x18 11 lp

/-- The moves of a partition's logical ponds from the sites `old`. -/
def State.movesFrom (s : State) (n : Nat) (old : List (Nat × Nat)) : Moves :=
  (s.parts.get n Part.none).sites.filterMap (fun x =>
    (old.find? (fun y => decide (y.1 = x.1) && decide (y.2 ≠ x.2))).map (fun y => (y.2, x.2)))

/-- The old sites of a partition whose logical ponds have moved are named anew, and the new ones published. -/
def State.rewriteAll (s : State) (n : Nat) (old : List (Nat × Nat)) (own : Bool) : State :=
  if s.movesFrom n old = [] then s else (s.rewriteMoved n (s.movesFrom n old) own).publish n

/-- R420–R422: the reset ends: the partition is written from its image; none when a logical pond cannot be placed (the
START has then completed with FAULT code 3). -/
def State.endReset (s : State) (c : HCmd) (tests : List (PondIx × TestFail)) : State × Bool :=
  let n := c.part
  let old := (s.parts.get n Part.none).sites
  let r := s.resetPonds n tests
  match r.2 with
  | some lp =>
    let s := (r.1.noAlternative n lp).openTiles ((r.1.pondsOf n).flatMap tilesOf)
    let s := (s.rewriteAll n old false).lakeWrites
    let g := ((old.find? (fun x => decide (x.1 = lp))).map (fun x => x.2)).getD 0
    ((s.modPart n (fun p => { p with
      state := 1
      draining := false
      drained := false })).finish c 4 3 (fieldOf g) s.now, false)
  | none =>
    let s := ((r.1.configurePart n).rewriteAll n old true).lakeWrites
    (s.openTiles ((s.pondsOf n).flatMap tilesOf), true)

/-- START with RESTORE = 0 (R422). `tests`: what the self-tests of ponds find. -/
def startCmd (slot : Nat) (tests : List (PondIx × TestFail)) (s : State) : State :=
  let s := s.latchStart slot
  match s.command slot 3 with
  | none => s
  | some c =>
    let n := c.part
    let p := s.parts.get n Part.none
    if (c.f 16 1).testBit 0 then s
    else if p.state = 0 then s.finish c 5 2 0 0
    else if !c.launched then
      if p.state = 3 then s.finish c 6 3 0 0
      else if p.state ≠ 1 ∧ p.state ≠ 5 then s
      else if s.unplaced n then s
      else if s.collMismatch n then s.finish c 6 2 0 0
      else if (s.pondsOf n).any (fun g => (s.pmemOf g).split) then s
      else s.beginReset c
    else if p.state = 2 ∧ s.partDrained n then
      let r := s.endReset c tests
      if r.2 then
        let s := r.1
        let s := (s.parts.get n Part.none).sites.foldl (fun s x => s.runPond p.image n x.1 x.2 0) s
        ((s.runs n).tellStart n).finish c 0 0 0 0
      else r.1
    else s

/-- PEER_UNPLACED (R216): a START has waited 1 s for exports. -/
def peerUnplaced (slot : Nat) (s : State) : State :=
  match s.command slot 3 with
  | some c =>
    let p := s.parts.get c.part Part.none
    if !c.launched && (decide (p.state = 1) || decide (p.state = 5)) && s.unplaced c.part then s.finish c 6 1 0 0 else s
  | none => s

/-! Relocation (R407–R409). -/

/-- R408: bytes of one memory range copied to another; lines that cannot be read are zero. The number of lines lost. -/
def State.copyRange (s : State) (src dst n : Nat) (lost : Nat → Bool) : State × Nat :=
  let bad (o : Nat) : Bool := lost o || s.sramBad (src + o / 64 * 64) 64
  let keep := s.mem.filter (fun e => decide (src ≤ e.1) && decide (e.1 < src + n) && !bad (e.1 - src))
  let s' := (s.zeroMem dst n).healSram dst n
  ({ s' with mem := keep.foldl (fun m e => Tab.set m (e.1 - src + dst) 0 e.2) s'.mem },
    ((List.range (n / 64)).filter (fun i => bad (64 * i))).length)

/-- R408: the scratchpad and the core local memories of good cores of g0, copied to g1. -/
def State.copyPond (s : State) (g0 g1 : Nat) : State × Nat :=
  let off := decide (s.rd (.lake (lakeOf g0)) Reg.lakeClkStatState = 4)
  let used := (List.range 34).filter (fun b => !(s.pmemOf g0).mapFailed.testBit b)
  let bank (o : Nat) : Bool := (s.pondW g0).testBit (used.getD (o / 64 % 32) 34)
  let r := s.copyRange (pondKey g0 0) (pondKey g1 0) (s.padLimit g0) (fun o => off || bank o)
  (List.range 16).foldl (fun (a : State × Nat) t =>
    if tileType t = .a ∨ (s.tileW g0 t).testBit 0 then a
    else let x := a.1.copyRange (coreKey g0 t 0) (coreKey g1 t 0) (2 ^ 18) (fun _ => off); (x.1, a.2 + x.2)) r

/-- R409: one pond rolls back to a step: work in hand discarded, springs from the image, the S-core at its entry with g1 = 1
and g2 the step. -/
def State.rollbackPond (s : State) (b n lp g step : Nat) : State :=
  let m (i : Nat) (x : MCore) : MCore := if i / 16 = g then
    { x with fill := [], gov := none, groups := [], age := 0, arrs := List.replicate 4 MArr.idle, bb := [], stopped := false
             moving := [0, 0, 0, 0], stage2 := [], wnext := 0, relAll := 0, relWait := [] }
    else x
  let v (i : Nat) (x : VCore) : VCore := if i / 16 = g then
    { x with inA := [], inB := [], done := 0, redr := none, scan := none, outVals := [], outCount := 0, outQ := [] } else x
  let s : State := { s with
    queues := s.queues.clear (fun k => decide (k / 256 = g))
    steers := s.steers.clear (fun k => decide (k / 64 = g))
    waiters := s.waiters.filter (fun w => decide (w.pond ≠ g))
    events := s.events.filter (fun e => decide (e.1 ≠ g))
    mcores := s.mcores.map (fun e => (e.1, m e.1 e.2))
    vcores := s.vcores.map (fun e => (e.1, v e.1 e.2))
    gens := s.gens.map (fun e => if e.1 / 64 = g then
      (e.1, { e.2 with queue := [], chain := none, run := [], aborting := false }) else e)
    net := { s.net with rslots := s.net.rslots.clear (fun k => decide (k / 256 = g)) } }
  let s := (List.range 16).foldl (fun s t =>
    let u := UnitId.tile g t
    let s := s.wr u Reg.rtrQstatSteerErr 0
    match tileType t with
    | .m => (s.wr u Reg.mcoreStatusPoison 0).wr u Reg.mcoreStatusRecompute 0
    | .a => s.wr u Reg.auStatusErr 0
    | _ => s) s
  let s := (s.springInit b n lp g).wr (.tile g 5) Reg.scoreStepStep step
  let s := (s.wr (.tile g 5) Reg.scoreEstatHalted 0).wr (.tile g 5) Reg.scoreEstatInHandler 0
  s.setScore g { ((s.score g).setReg 1 1).setReg 2 (BitVec.ofNat 32 step) with
    pc := 4 * s.rd (.tile g 5) Reg.scoreBootEntry
    fifo := []
    stall := none
    headWait := 0 }

/-- R407 step 9: every pond rolls back; RUN is set where it was. -/
def State.rollback (s : State) (n : Nat) : State :=
  let p := s.parts.get n Part.none
  let step := s.committed n
  let s := p.sites.foldl (fun s x => s.rollbackPond p.image n x.1 x.2 step) s
  (p.ran.foldl State.runTile s).runs n

/-- R407 steps 7 and 8 for one logical pond moved from g0 to g1: registers and program from the image, memories copied, preloads
applied, the context of step 5 scanned in. -/
def State.moveSite (s : State) (n lp g0 g1 : Nat) : State :=
  let off := decide (s.rd (.lake (lakeOf g0)) Reg.lakeClkStatState = 4)
  let p := s.parts.get n Part.none
  -- R383: a lake that is Off leaves the context scanned out when it was shut, if any
  let lost := off && !p.kept.contains lp
  let s := (s.clearPond g1 false).wr (.pond g1) Reg.pondMemCfgCacheMib (s.rd (.pond g0) Reg.pondMemCfgCacheMib)
  let s := s.configure p.image n lp g1
  let c := s.copyPond g0 g1
  let s := c.1.preloadPond p.image n lp g1
  let s := if lost then s else s.loadCtx n lp g1
  let s := (s.setSite n lp g1).modPart n (fun p => { p with
    ran := p.ran.map (fun i => if i / 16 = g0 then 16 * g1 + i % 16 else i)
    kept := p.kept.filter (fun x => decide (x ≠ lp)) })
  let s := s.attribute g0
  s.recTile g1 5 0 0x17 11 (g0 + g1 * 2 ^ 16 + c.2 * 2 ^ 32)

/-- R406: some logical pond's site is no longer acceptable: re-placement is needed. -/
def State.needsMove (s : State) (n : Nat) : Bool :=
  let p := s.parts.get n Part.none
  p.sites.any (fun x => !(s.goodPond x.2 && s.funcsOk p.image n x.1 x.2))

/-- R232, R410: partition n may take the placement lock: no load holds it, no other partition relocates, and none that is due
has an earlier record. -/
def State.mayRelocate (s : State) (n : Nat) : Bool :=
  let p := s.parts.get n Part.none
  s.hub.cmds.all (fun c => !(decide (c.op = 2) && c.launched && !c.done))
    && s.parts.all (fun e => decide (e.1 = n) || (decide (e.2.recStep ≠ 7)
      && !(decide (e.2.recStep = 5) && s.needsMove e.1 && decide (e.2.faultTime < p.faultTime))))

/-- R407 steps 5 and 6: the contexts of the logical ponds that must move are scanned, and their new sites chosen in the order of
the logical ponds; the first that has no alternative. -/
def State.chooseSites (s : State) (n : Nat) : State × Option Nat :=
  let p := s.parts.get n Part.none
  let due := p.sites.filter (fun x => !(s.goodPond x.2 && s.funcsOk p.image n x.1 x.2))
  let s := due.foldl (fun s x =>
    if s.rd (.lake (lakeOf x.2)) Reg.lakeClkStatState = 4 then s else s.saveCtx n x.1 x.2) s
  let r := due.foldl (fun (a : State × List (Nat × Nat × Nat) × Option Nat) x =>
    if a.2.2.isSome then a
    else
      match a.1.newSite p.image n x.1 with
      | some g => (a.1.setSite n x.1 g, a.2.1 ++ [(x.1, x.2, g)], none)
      | none => (a.1, a.2.1, some x.1)) (s, [], none)
  match r.2.2 with
  | some lp => (s.noAlternative n lp, some lp)
  | none => (s.modPart n (fun p => { p with
      recStep := 7
      moves := r.2.1 }), none)

/-- R327: a run report of partition n. -/
def State.runReport (s : State) (n cls code aux detail : Nat) : State :=
  let p := s.parts.get n Part.none
  s.postCompletion p.handle cls code 3 n aux detail p.vec true

/-- R407 steps 5 and 6: new sites, or the partition stays stopped with NO_ALTERNATIVE. -/
def State.replaceSites (s : State) (n : Nat) : State :=
  let r := s.chooseSites n
  match r.2 with
  | some lp =>
    let g := (((r.1.parts.get n Part.none).sites.find? (fun x => decide (x.1 = lp))).map (fun x => x.2)).getD 0
    (r.1.runReport n 4 3 (fieldOf g) r.1.now).modPart n (fun p => { p with
      state := 5
      recStep := 0
      draining := false
      drained := false })
  | none => r.1

/-- R407 steps 7 and 8: every word that names a moved logical pond is rewritten, and the new sites published (R215, R216). -/
def State.moveSites (s : State) (n : Nat) : State :=
  let l := (s.parts.get n Part.none).moves
  let s := l.foldl (fun s m => s.moveSite n m.1 m.2.1 m.2.2) s
  ((s.rewriteMoved n (l.map (fun m => m.2)) true).publish n).lakeWrites.modPart n (fun p => { p with
    recStep := 9
    moves := [] })

/-- R407 step 9, R410: the partition rolls back and runs; what has become necessary since step 6 is a new recovery. -/
def State.resume (s : State) (n : Nat) : State :=
  let code := (s.parts.get n Part.none).faultCode
  let more := s.needsMove n
  let s := (s.rollback n).runReport n 0 1 0 0
  if more then s.modPart n (fun p => { p with
    faultCode := code
    recStep := 1
    again := true })
  else s

/-- R406, R411: a running partition is faulted by a record of a field, formed at a time, with a code of R328; `st` is the step
committed then. A further record only counts for the step to return to. -/
def State.faultWith (s : State) (n field time code st : Nat) : State :=
  let p := s.parts.get n Part.none
  if p.faultCode ≠ 0 ∧ p.recStep ≠ 0 then s.modPart n (fun p => { p with hold := p.hold.map (earlierStep st) })
  else if p.state ≠ 3 ∨ p.faultCode ≠ 0 then s
  else
    s.modPart n (fun p => { p with
      faults := if p.faults ≠ 0 ∧ p.faultStep = st then p.faults + 1 else 1
      faultStep := st
      hold := some st
      faultField := field
      faultTime := time
      faultCode := code
      recStep := 1 })

/-- R406: the code of a record's kind. -/
def faultCodeOf (kind : Nat) : Nat :=
  match kind with
  | 9 => 5
  | 0x14 => 4
  | 0x18 => 3
  | k => if sevOf k = 3 then 1 else 2

/-- R406: a record faults partition n. -/
def State.faultPart (s : State) (n : Nat) (r : ErrRec) : State := s.faultWith n r.field r.time (faultCodeOf r.kind) r.step

/-- RECOVERY (R407): a faulted partition stops (step 2); once its requests are answered or timed out, the run report is posted
(steps 3 and 4) and the partition is left stopped (R411) or goes on: with re-placement to steps 5 and 6, then 7 and 8, else
straight to step 9. -/
def recovery (n : Nat) (s : State) : State :=
  let p := s.parts.get n Part.none
  match p.recStep with
  | 1 => if p.state = 3 ∨ p.state = 6 then (s.clearRun n).modPart n (fun p => { p with state := 6, recStep := 2 }) else s
  | 2 =>
    if p.state = 6 ∧ s.partDrained n then
      let s := if p.again then s else s.runReport n 4 p.faultCode p.faultField p.faultTime
      if s.rd .hub Reg.svcFaultCfgLimit ≤ p.faults ∨ s.rd .hub Reg.svcFaultCfgAutoResume = 0 then
        s.modPart n (fun p => { p with state := 5, recStep := 0, draining := false, drained := false })
      else s.modPart n (fun p => { p with recStep := 5 })
    else s
  | 5 =>
    if p.state ≠ 6 then s
    else if !s.needsMove n then s.modPart n (fun p => { p with recStep := 9 })
    else if s.mayRelocate n then
      let due := p.sites.filter (fun x => !(s.goodPond x.2 && s.funcsOk p.image n x.1 x.2))
      let l := s.underReset (due.flatMap (fun x => s.candidates p.image n x.1))
      if l = [] then s.replaceSites n else s.latchPonds l
    else s
  | 7 => if p.state = 6 then s.moveSites n else s
  | 9 => if p.state = 6 then s.resume n else s
  | _ => s

/-- R194, R422: a context of each logical pond has been saved (DESIGN CHOICE, log entry 18). -/
def State.holdsSaved (s : State) (n : Nat) : Bool :=
  (s.parts.get n Part.none).sites.all (fun x => s.saved.any (fun e => decide (e.1 = 16384 * n + x.1)))

/-- START with RESTORE (R422). -/
def startRestore (slot : Nat) (tests : List (PondIx × TestFail)) (s : State) : State :=
  let s := s.latchStart slot
  match s.command slot 3 with
  | none => s
  | some c =>
    let n := c.part
    let p := s.parts.get n Part.none
    if !(c.f 16 1).testBit 0 then s
    else if p.state = 0 then s.finish c 5 2 0 0
    else if !c.launched then
      if p.state = 3 then s.finish c 6 3 0 0
      else if p.state = 5 ∧ p.faultCode ≠ 0 then
        -- R411: left stopped after a fault: steps 5 to 9 of R407 follow as recovery
        (s.modPart n (fun p => { p with state := 6, recStep := 5, handle := c.handle, vec := c.vec, faults := 0 })).beginCmd slot
      else if p.state = 5 then
        -- stopped by STOP: in place, with no reset
        let s := s.modPart n (fun p => { p with handle := c.handle, vec := c.vec })
        (((p.ran.foldl State.runTile s).runs n).tellStart n).finish c 0 0 0 0
      else if p.state ≠ 1 then s
      else if !s.holdsSaved n then s.drawn.finish c 6 (s.freeNat % 256) 0 0
      else if s.unplaced n then s
      else if s.collMismatch n then s.finish c 6 2 0 0
      else if (s.pondsOf n).any (fun g => (s.pmemOf g).split) then s
      else s.beginReset c
    else if p.state = 3 then (s.tellStart n).finish c 0 0 0 0
    else if p.state = 5 then s.finish c 4 3 p.faultField s.now
    else if p.state = 2 ∧ s.partDrained n then
      let r := s.endReset c tests
      if r.2 then
        let s := (r.1.parts.get n Part.none).sites.foldl (fun s x =>
          let s := s.loadCtx n x.1 x.2
          match s.saved.find? (fun e => decide (e.1 = 16384 * n + x.1)) with
          | some e => (e.2.ran.map (fun t => 16 * x.2 + t)).foldl State.runTile s
          | none => s) r.1
        ((((s.rewriteRestored n).refix n (fun _ => true)).runs n).tellStart n).finish c 0 0 0 0
      else r.1
    else s

/-! STOP, TEARDOWN, KILL. -/

/-- STOP (R322): each S-core runs to its next STEP; then RUN is cleared, caches are flushed, and once drained the partition
is stopped. -/
def stopCmd (slot : Nat) (s : State) : State :=
  let s := s.disableArrives slot 4
  match s.command slot 4 with
  | none => s
  | some c =>
    let n := c.part
    let p := s.parts.get n Part.none
    if p.state = 0 then s.finish c 6 4 0 0
    else if !c.launched then
      if p.state = 3 then ((s.abortDmaWaits n).askStop n 4).beginCmd slot
      else if p.state = 6 then
        -- R410: the recovery ends after the step in progress
        let s := s.abortDmaWaits n
        if p.draining && !p.drained then (s.modPart n (fun p => { p with state := 4, recStep := 0 })).beginCmd slot
        else (s.modPart n (fun p => { p with
          state := 5
          recStep := 0
          moves := []
          draining := false
          drained := false })).finish c 0 0 0 0
      else s.finish c 6 4 0 0
    else if !p.draining then
      if s.atBoundary n then (s.clearRun n).flinvPart n else s
    else if p.drained || s.quiet ((s.pondsOf n).flatMap tilesOf) true then
      (s.modPart n (fun p => { p with state := 5, draining := false, drained := false })).finish c 0 0 0 0
    else s

/-- TEARDOWN (R425): as STOP, then, with SAVE, every context to SAVE_BASE, then the scrub, and the partition leaves. -/
def State.teardown (s : State) (slot : Nat) (save : Bool) (bad : List (PondIx × TestFail)) : State :=
  let s := s.disableArrives slot 5
  match s.command slot 5 with
  | none => s
  | some c =>
    let n := c.part
    let p := s.parts.get n Part.none
    let l := (s.pondsOf n).flatMap tilesOf
    if (c.f 16 1).testBit 0 != save then s
    else if p.state = 0 ∨ (¬ c.launched ∧ s.loadApplied.testBit n) then s.finish c 0 0 0 0
    else if !c.launched then
      if p.state = 7 then s
      else
      let s := (s.abortDmaWaits n).beginCmd slot
      if p.state = 3 then s.askStop n 7
      else s.modPart n (fun p => { p with state := 7, stopAt := [], recStep := 0, moves := [], draining := false, drained := false })
    else if p.state ≠ 7 then s
    else if !p.draining then
      if s.atBoundary n then
        let ran := p.ran
        let s := ((s.clearRun n).flinvPart n).closeTiles l
        s.modPart n (fun q => { q with ran := if q.ran.isEmpty then ran else q.ran })
      else s
    else if !p.drained then s
    else
      let s := if save then (p.sites.foldl (fun s x => s.saveCtx n x.1 x.2) s) else s
      (s.freePart n bad).finish c 0 0 0 0

/-- TEARDOWN. -/
def teardownCmd (slot : Nat) (bad : List (PondIx × TestFail)) (s : State) : State := s.teardown slot false bad
/-- TEARDOWN_SAVE. -/
def teardownSave (slot : Nat) (bad : List (PondIx × TestFail)) (s : State) : State := s.teardown slot true bad

/-- R426: the dump of a killed partition to the host buffer at `a`. -/
def State.retainDump (s : State) (n a time : Nat) : State :=
  let p := s.parts.get n Part.none
  let head := leBytes 4 0x52544E44 ++ leBytes 2 1 ++ leBytes 1 n ++ leBytes 1 0 ++ leBytes 2 p.sites.length ++ leBytes 6 0
    ++ leBytes 8 time ++ leBytes 4 (s.committed n) ++ leBytes 4 0 ++ leBytes 8 p.imageId ++ leBytes 4056 0
  let cores := [0, 1, 2, 4, 5, 6, 7, 8, 9, 11, 13, 14, 15]
  let pond (h : Tab Byte) (x : Nat × Nat) : Tab Byte :=
    let g := x.2
    let at_ := a + 4096 + x.1 * (12 * 2 ^ 20)
    let ok (t : Nat) : Bool := decide (tileType t ≠ .a) && !(s.tileW g t).testBit 0
    let len := (s.pondCtx g).bytes
    let h := h.clear (fun k => decide (at_ ≤ k) && decide (k < at_ + 12 * 2 ^ 20))
    let h := h.putBytes at_ (leBytes 2 x.1 ++ leBytes 2 g ++ leBytes 2 (bitsOf ((List.range 16).map ok)) ++ leBytes 2 0 ++ leBytes 4 len)
    let h := h.putBytes (at_ + 4096) (s.mem.bytes (memKey 0 (p.saveBase % 2 ^ 48) + 77824 * x.1) len)
    let h := h.putBytes (at_ + 2 ^ 17) (s.mem.bytes (pondKey g 0) (2 ^ 23))
    cores.zipIdx.foldl (fun (h : Tab Byte) e =>
      if ok e.1 then h.putBytes (at_ + 2 ^ 23 + 2 ^ 17 + e.2 * 2 ^ 18) (s.mem.bytes (coreKey g e.1 0) (2 ^ 18)) else h) h
  { s with hostMem := p.sites.foldl pond (s.hostMem.putBytes a head) }

/-- KILL (R424): RUN cleared everywhere, the boundary absorbs, output queues are emptied; after the drain, with RETAIN the
contexts are scanned out and the dump written; then the scrub, and the partition leaves. -/
def State.kill (s : State) (slot : Nat) (retain : Bool) (bad : List (PondIx × TestFail)) : State :=
  let s := s.disableArrives slot 6
  match s.command slot 6 with
  | none => s
  | some c =>
    let n := c.part
    let p := s.parts.get n Part.none
    let l := (s.pondsOf n).flatMap tilesOf
    if (c.f 16 1).testBit 0 != retain then s
    else if p.state = 0 then s.finish c 0 0 0 0
    else if !c.launched then
      let u := if retain then s.useLicence 4 else (s, true)
      let s := u.1
      if !u.2 then s.drawn.finish c (1 + s.freeNat % 255) (s.freeNat / 256 % 256) 0 0
      else
        let s := ((s.abortDmaWaits n).clearRun n).closeTiles l
        let s := (l.foldl (fun s i => s.dropOutputs i false) s).beginCmd slot
        (s.modPart n (fun p => { p with state := 8, recStep := 0, moves := [] }))
    else if p.state ≠ 8 ∨ !p.drained then s
    else if retain && !s.hostWrites then s
    else
      let s := if retain then
          (p.sites.foldl (fun s x => s.saveCtx n x.1 x.2) s).retainDump n (c.f 24 8) c.time
        else s
      (s.freePart n bad).finish c 0 0 0 0

/-- KILL. -/
def killCmd (slot : Nat) (bad : List (PondIx × TestFail)) (s : State) : State := s.kill slot false bad
/-- KILL_RETAIN. -/
def killRetain (slot : Nat) (bad : List (PondIx × TestFail)) (s : State) : State := s.kill slot true bad

/-! DRAIN_END (R415). -/

/-- DRAIN_END: the drain of a boundary ends: requests still unanswered count as NO_RESPONSE, entries still held in output
queues of a closed boundary are discarded and counted; a pond under a cold reset becomes a hole. -/
def drainEnd (b : Boundary) (s : State) : State :=
  let l := s.tilesIn b
  let closed := l.filter (fun i => s.closed.contains i)
  let done (s : State) : State :=
    let s := s.failRequests l
    let s := closed.foldl (fun s i => s.dropOutputs i true) s
    -- PRE_RESET_SAMPLE (R463): the tiles, and the ponds that close whole
    let s := s.preReset (fun u => match u with
      | .tile g t => closed.contains (16 * g + t)
      | .pond g => (tilesOf g).all (fun i => closed.contains i)
      | _ => false)
    { s with drainDone := s.drainDone ++ closed.filter (fun i => !s.drainDone.contains i) }
  match b with
  | .tile _ _ => if closed.isEmpty then s else done s
  | .pond g => if closed.length ≠ 16 ∨ (s.partOf g).isSome then s else (done s).cutPond g
  | .part n =>
    let p := s.parts.get n Part.none
    if !p.draining then s
    else
      let s := done s
      let s := if p.state = 2 then (p.sites.filter (fun x => !s.warmOk x.2)).foldl (fun s x => s.cutPond x.2) s else s
      s.modPart n (fun p => { p with drained := true })

/-! EXPORT_RECEIVED (R216). -/

/-- A partition has a fix-up or wiring record that names a logical pond that `lps` selects of partition `part` of rank r (`none`: of
this rank). -/
def State.namesPart (s : State) (n part : Nat) (r : Option Nat) (lps : Nat → Bool) : Bool :=
  let p := s.parts.get n Part.none
  let rem := if r.isSome then 1 else 0
  (s.fixes p.image n).any (fun f => decide (f.kind % 2 = rem) && decide (f.tpart = part) && (r.isNone || decide (r = some f.trank))
      && lps (fixLp f.kind (s.imgN p.image f.at_ 8)))
    || (s.recsIn p.image 6 n).any (fun w => decide (s.imgN p.image (w.off + 6) 1 / 2 % 2 = rem)
      && decide (s.imgN p.image (w.off + 7) 1 = part) && (r.isNone || decide (r = some (s.imgN p.image (w.off + 10) 1)))
      && lps (s.imgN p.image (w.off + 8) 2))

/-- Ask the running partitions of a list to halt at their next step boundary, unless they have been asked. -/
def State.askHalt (s : State) (l : List Nat) : State :=
  l.foldl (fun s n => if (s.parts.get n Part.none).stopAt.isEmpty then s.askStop n 3 else s) s
/-- Every one has been asked and has reached it. -/
def State.halted (s : State) (l : List Nat) : Bool :=
  l.all (fun n => !(s.parts.get n Part.none).stopAt.isEmpty && s.atBoundary n)
/-- They go on. -/
def State.unhalt (s : State) (l : List Nat) : State := l.foldl (fun s n => s.modPart n (fun p => { p with stopAt := [] })) s

/-- The wiring records of partition n that name partition `part` of rank r, written again. -/
def State.rewire (s : State) (n part : Nat) (r : Option Nat) : State :=
  let p := s.parts.get n Part.none
  let rem := if r.isSome then 1 else 0
  p.sites.foldl (fun s x => (s.wiresOf p.image n x.1).foldl (fun s w =>
    if s.imgN p.image (w.off + 6) 1 / 2 % 2 = rem ∧ s.imgN p.image (w.off + 7) 1 = part
      ∧ (r.isNone || decide (r = some (s.imgN p.image (w.off + 10) 1))) then s.wire p.image x.2 x.1 w else s) s) s

/-- EXPORT_RECEIVED: rank `r` publishes the sites of a partition. Where they changed, each running partition that names
them halts at its next step boundary; once all have, the words are rewritten and they go on. -/
def exportReceived (r part : Nat) (sites : List (Nat × PondIx)) (s : State) : State :=
  let old := s.img.peers.filter (fun x => decide (x.rank = r) && decide (x.part = part))
  let new : List PeerSite := sites.map (fun x => ⟨r, part, x.1, x.2.val⟩)
  if r = s.rank ∨ old = new then s
  else
    let site (l : List PeerSite) (lp : Nat) : Option Nat := (l.find? (fun x => decide (x.lpond = lp))).map (fun x => x.site)
    let named := (s.parts.map (fun e => e.1)).filter (fun n =>
      s.namesPart n part (some r) (fun lp => decide (site old lp ≠ site new lp)))
    let run := named.filter (fun n => decide ((s.parts.get n Part.none).state = 3))
    if !s.halted run then s.askHalt run
    else
      let s : State := { s with img := { s.img with
        peers := s.img.peers.filter (fun x => !(decide (x.rank = r) && decide (x.part = part))) ++ new } }
      let s := named.foldl (fun s n => (s.refix n (fun f => decide (f.kind % 2 = 1) && decide (f.tpart = part)
        && decide (f.trank = r))).rewire n part (some r)) s
      s.unhalt run

end Sys2Proof.Machine
end

