-- ==== Sys2Proof/Machine/Check.lean ====
section
/-! DEFINITION. What the image loader checks in the records of an image (R200–R228, R298) and the refusals other chapters
ask of it (R32, R40, R83, R149, R170, R174). `b` is the offset of the image in space 0x0. -/

namespace Sys2Proof.Machine

/-! Failures (R204). -/

/-- A record that is refused: section, record, partition. -/
structure LErr where
  sec : Nat
  row : Nat
  part : Nat
  deriving DecidableEq, Repr

/-- The failure of a record. -/
def Rec.err (r : Rec) : LErr := ⟨r.sec, r.idx, r.part⟩
/-- The failures among records. -/
def refusedRecs (l : List Rec) (ok : Rec → Bool) : List LErr := (l.filter (fun r => !ok r)).map Rec.err
/-- R204: the first failure in section and record order. -/
def firstErr : List LErr → Option LErr
  | [] => none
  | e :: r => some (r.foldl (fun a x => if x.sec < a.sec ∨ (x.sec = a.sec ∧ x.row < a.row) then x else a) e)
/-- DETAIL of a LOAD_REFUSED completion (R328). -/
def LErr.detail (e : LErr) : Nat := e.sec % 2 ^ 16 + e.row % 2 ^ 32 * 2 ^ 16 + e.part % 256 * 2 ^ 48

/-- The partition bits of PART_MASK. -/
def State.imgMask (s : State) (b : Nat) : Nat := s.imgN b 0x20 8
/-- PARTIAL. -/
def State.imgPartial (s : State) (b : Nat) : Bool := (s.imgN b 6 2).testBit 0
/-- LICENCES bit. -/
def State.imgLic (s : State) (b n : Nat) : Bool := (s.imgN b 0x2E 2).testBit n
/-- REMOVE. -/
def State.imgRemoves (s : State) (b p : Nat) : Bool := (s.imgFlags b p).testBit 3
/-- The partitions an image defines, ascending. -/
def State.imgParts (s : State) (b : Nat) : List Nat :=
  (List.range 64).filter (fun p => (s.imgMask b).testBit p && !s.imgRemoves b p)
/-- A partition's PARTITION record stands for a failure with no record of its own; else the image's first record. -/
def State.partErr (s : State) (b p : Nat) : LErr :=
  match s.partRec b p with
  | some r => r.err
  | none => ⟨0, 0, p⟩

/-- An engine address of this rank in one space, well formed. -/
def State.ownAddrOk (s : State) (a sp : Nat) : Bool :=
  decide (a < 2 ^ 58) && decide (dRank a = s.rank) && decide (dSpace a = sp) && decide (a / 2 ^ 43 % 32 = 0) && decide (dField a < 48)

/-! Sections (R201, R203). -/

/-- R203: an image-wide or partition-scoped type with its PART, and a body of exactly RECORDS records. -/
def State.secOk (s : State) (b : Nat) (x : Sec) : Bool :=
  if 0x8000 ≤ x.typ then true
  else
    let rs := s.secRecs b x
    decide (1 ≤ x.typ) && decide (x.typ ≤ 0xF) && (if x.typ = 0xE then decide (x.part = 0xFF) else decide (x.part < 64))
      && decide (rs.length = x.recs) && decide ((rs.map (fun r => s.recBytes b x.typ r.off)).sum = x.size)

/-- R200, R231: BASE_ID. -/
def State.baseIdOk (s : State) (b : Nat) : Bool :=
  if s.imgPartial b then decide (s.imgN b 0x18 8 = s.img.baseId) && decide (s.img.baseId ≠ 0) else decide (s.imgN b 0x18 8 = 0)

/-- R231: a section or partition of a partial image with which PART_MASK disagrees. -/
def State.baseErr (s : State) (b : Nat) : Option LErr :=
  if !s.imgPartial b then none
  else
    let out (x : Sec) : Bool := decide (x.typ < 0x8000) && decide (x.typ ≠ 0xE)
      && !(decide (x.part < 64) && (s.imgMask b).testBit x.part)
    match (s.secs b).find? out with
    | some x => some ⟨x.i, 0, x.part⟩
    | none => ((List.range 64).find? (fun p => (s.imgMask b).testBit p && (s.partRec b p).isNone)).map (fun p => ⟨0, 0, p⟩)

/-! Partition records (R205–R207, R211, R212). -/

/-- Records of one value before record r. -/
def earlierIn (l : List Rec) (r : Rec) : List Rec := l.takeWhile (fun x => decide (x ≠ r))

/-- R205. -/
def State.partitionOk (s : State) (b p : Nat) (r : Rec) : Bool :=
  let n (o w : Nat) := s.imgN b (r.off + o) w
  let fl := n 2 2
  decide (n 0 1 = p) && decide (n 1 1 ≤ 7) && decide (fl < 16) && (s.imgPartial b || !fl.testBit 3)
    && decide (1 ≤ n 4 2) && decide (n 4 2 ≤ numPonds) && decide (4 ≤ n 6 1) && decide (n 6 1 ≤ 20) && decide (n 7 1 = 0)
    && decide (n 8 8 % 4096 = 0) && s.ownAddrOk (n 8 8) 0 && decide (n 4 2 * 77824 ≤ n 16 8) && decide (n 24 8 = 0)
    && (!fl.testBit 1 || s.imgLic b 4) && (decide (n 6 1 ≤ 16) || s.imgLic b 3)

/-- R207. -/
def State.placementOk (s : State) (b n : Nat) (l : List Rec) (r : Rec) : Bool :=
  let c := (List.range 4).map (fun i => s.imgN b (r.off + 2 + 2 * i) 2)
  let named := c.filter (fun x => decide (x ≠ 0xFFFF))
  decide (s.imgN b r.off 2 < n) && (earlierIn l r).all (fun x => decide (s.imgN b x.off 2 ≠ s.imgN b r.off 2))
    && decide (c.getD 0 0xFFFF ≠ 0xFFFF) && named.all (fun x => decide (x < numPonds)) && decide named.Nodup
    && decide (s.imgN b (r.off + 10) 1 ≤ 4) && s.imgZero b (r.off + 11) 5

/-- R211: the function suits the position. -/
def funcFits (pos fn : Nat) : Bool :=
  if pos = 16 then decide (fn = 7)
  else
    match fn with
    | 0 => true
    | 1 => decide (tileType pos = .m)
    | 2 => decide (tileType pos = .m)
    | 3 => decide (tileType pos = .v)
    | 4 => decide (tileType pos = .v)
    | 5 => decide (tileType pos = .a)
    | 6 => decide (tileType pos = .s)
    | _ => false

/-- R211. -/
def State.tileFuncOk (s : State) (b p n : Nat) (l : List Rec) (r : Rec) : Bool :=
  let lp := s.imgN b r.off 2
  let pos := s.imgN b (r.off + 2) 1
  let f := s.imgN b (r.off + 3) 1
  let blk := s.imgN b (r.off + 4) 4
  (decide (lp < n) || decide (lp = 0xFFFF)) && decide (pos ≤ 16) && decide (f < 64) && funcFits pos (f % 16)
    && (decide (f < 16) || decide (tileType pos = .m ∧ pos < 16))
    && (earlierIn l r).all (fun x => !(decide (s.imgN b x.off 2 = lp) && decide (s.imgN b (x.off + 2) 1 = pos)))
    && (decide (blk = 0xFFFFFFFF) || (s.blockRec b p blk).isSome)

/-- R212. -/
def State.regBlockOk (s : State) (b : Nat) (l : List Rec) (r : Rec) : Bool :=
  let c := s.imgN b (r.off + 4) 4
  decide (1 ≤ c) && decide (c ≤ 4096) && (earlierIn l r).all (fun x => decide (s.imgN b x.off 4 ≠ s.imgN b r.off 4))
    && (List.range c).all (fun i => s.imgZero b (r.off + 8 + 16 * i + 4) 4
      && decide (s.imgN b (r.off + 8 + 16 * i) 4 % 8 = 0) && decide (s.imgN b (r.off + 8 + 16 * i) 4 < 2 ^ 23))

/-! Register block entries (R213): written to a blank pond in their order. -/

/-- A blank pond 0 in no partition. -/
def State.blank (s : State) : State :=
  ((({ s with parts := [], closed := [], hub := { s.hub with cmds := [] } } : State).clearPond 0 false).zeroPond 0)

/-- R213: the bits an entry may set: those of fields software writes, without RUN, DRAIN, ABORT, GATE_RELEASE and
CACHE_MIB. -/
def entryMask (u : UnitId) (pos o : Nat) : Nat :=
  if pos = 16 ∧ o = 0x200 then 8
  else if pos < 16 ∧ o = 8 then (match tileType pos with | .m => 2 | .v => 12 | _ => 0)
  else ((fieldsAt u o).map (fun e => match e.1.acc with
    | .ro => 0
    | .w1c => 0
    | _ => (2 ^ e.1.width - 1) * 2 ^ e.1.lo)).foldl (· + ·) 0

/-- Counters: whole registers that only count (R457). -/
def Fld.isCounter (f : Fld) : Bool :=
  decide (f.acc = .ro) && decide (f.lo = 0) && (decide (f.width = 48) || decide (f.width = 32))
    && decide (f ≠ Reg.scoreStepStep) && decide (f ≠ Reg.auGenPosDone)

/-- R211–R213: the offset may stand in a block of a position with a function. -/
def entryPlace (pos fn o : Nat) : Bool :=
  decide (o % 8 = 0) &&
    (if pos = 16 then decide (0x200 ≤ o) && decide (o < 0x600)
     else if fn = 0 then decide (0x840 ≤ o) && decide (o < 0xC00)
     else (decide (o < 0x400) || (decide (0x840 ≤ o) && decide (o < 0xC00))) && !(decide (pos = 5) && (decide (o = 0x10) || decide (o = 0x18))))

/-- R61: a write of a unit on the blank pond has been discarded. -/
def State.trialIgn (s : State) (pos : Nat) : Bool :=
  let u := posUnit 0 pos
  if pos = 16 then s.flag u Reg.pondRstStatCfgWrIgn
  else s.flag u Reg.rtrStatusCfgWrIgn || s.flag u Reg.rtrQstatCfgWrIgn || (match tileType pos with
    | .m => s.flag u Reg.mcoreStatusCfgWrIgn
    | .v => s.flag u Reg.vcoreStatusCfgWrIgn
    | .a => s.flag u Reg.auStatusCfgWrIgn
    | .s => false)

/-- R213: one entry is written to the blank pond; false when it is refused. -/
def State.trialEntry (s : State) (pos fn chk : Nat) (fixed : Bool) (o v : Nat) : State × Bool :=
  let u := posUnit 0 pos
  let fs := fieldsAt u o
  let s' := s.loaderWrite 0 pos o v
  let ok := !s'.trialIgn pos && entryPlace pos fn o && !fs.isEmpty && !fs.any (fun e => e.1.isCounter)
    && decide (v &&& (2 ^ 64 - 1 - entryMask u pos o) = 0)
    && (!(decide (tileType pos = .m) && decide (pos < 16) && decide (o = 0x10)) || decide (v % 2 = chk))
    && (!(decide (pos = 5) && decide (0x80 ≤ o) && decide (o < 0x100)) || fixed
      || decide (dSpace v = 0) || decide (4 < dSpace v))
    && (decide (o = 8) || decide (pos = 16 ∧ o = 0x200) || fs.all (fun e => decide (e.1.acc ≠ .rw) || decide (s'.rdi u e.1 e.2 = slice v e.1.lo e.1.width)))
  (s', ok)

/-- R213: the entries of one position of a logical pond written to the blank pond, and the records refused. -/
def State.trialTile (s0 s : State) (b p lp pos : Nat) (fx : List Fix) : State × List LErr :=
  let fn := s0.funcOf b p lp pos
  let s := if pos < 16 ∧ fn = 2 then s.wr (.tile 0 pos) Reg.mcoreCtrlMode 1 else s
  match s0.tileBlock b p lp pos with
  | none => (s, [])
  | some r =>
    (List.range (s0.imgN b (r.off + 4) 4)).foldl (fun (a : State × List LErr) i =>
      let o := r.off + 8 + 16 * i
      let x := a.1.trialEntry pos fn (s0.imgFlags b p % 2) (fx.any (fun f => decide (f.sec = r.sec) && decide (f.at_ = o + 8)))
        (s0.imgN b o 4) (s0.imgN b (o + 8) 8)
      (x.1, if x.2 || a.2.contains r.err then a.2 else r.err :: a.2)) (s, [])

/-! Regions of a memory (R32, R174). -/

/-- Two of the non-empty regions (start, length) overlap. -/
def overlaps (l : List (Nat × Nat)) : Bool :=
  l.zipIdx.any (fun x => l.zipIdx.any (fun y => decide (x.2 < y.2) && decide (x.1.2 ≠ 0) && decide (y.1.2 ≠ 0)
    && meets x.1.1 x.1.2 y.1.1 y.1.2))
/-- A region of the first list overlaps one of the second. -/
def overlapsAny (l m : List (Nat × Nat)) : Bool :=
  l.any (fun x => m.any (fun y => decide (x.2 ≠ 0) && decide (y.2 ≠ 0) && meets x.1 x.2 y.1 y.2))

/-- R32, R33, R35, R43: gate buffer, weight ring and epilogue vectors of an M-core on the blank pond. -/
def State.coreRegions (s : State) (pos : Nat) : List (Nat × Nat) :=
  let u := UnitId.tile 0 pos
  [(1024 * s.rd u Reg.mcoreGateBufBase, 1024 * s.rd u Reg.mcoreGateBufSize),
    (1024 * s.rd u Reg.mcoreWringBase, 1024 * s.rd u Reg.mcoreWringSize),
    (128 * s.rd u Reg.mcoreEpiBaseBase, 8 * s.ncols 0 pos)]

/-- Level-1 windows of a tile. -/
def State.l1Regions (s : State) (pos : Nat) : List (Nat × Nat) :=
  [false, true].flatMap (fun o => (List.range 8).map (fun q =>
    let f := if o then Reg.rtrQspillOL1Base else Reg.rtrQspillIL1Base
    (1024 * s.rdi (.tile 0 pos) f q, 1024 * (s.spillSizes 0 pos o q).1)))
/-- Level-2 windows of a tile, in the scratchpad. -/
def State.l2Regions (s : State) (pos : Nat) : List (Nat × Nat) :=
  [false, true].flatMap (fun o => (List.range 8).map (fun q =>
    let f := if o then Reg.rtrQspillOL2Base else Reg.rtrQspillIL2Base
    (4096 * s.rdi (.tile 0 pos) f q, 1024 * (s.spillSizes 0 pos o q).2)))

/-- What the image places in a memory of a logical pond: its program, preloads and descriptors. -/
def State.imgRegions (s : State) (b p lp unit : Nat) : List (Nat × Nat) :=
  ((s.codeWrites b p lp).filter (fun w => decide (w.unit = unit))).map (fun w => (w.dst, w.len))
    ++ ((s.preloads b p lp).filter (fun r => decide (s.imgN b (r.off + 2) 1 = unit))).map
      (fun r => (s.imgN b (r.off + 8) 4, s.imgN b (r.off + 4) 4))

/-! Steering units (R170, R180). -/

/-- Queues a steering unit writes: input queue q, or 8 + output queue. -/
def State.steerWrites (s : State) (pos n : Nat) : List Nat :=
  let u := UnitId.tile 0 pos
  match s.rdi u Reg.rtrSteerFunc n with
  | 0 => []
  | 1 => ((List.range 8).filter (fun q => (s.rdi u Reg.rtrSteerOutMask n).testBit q)).map (· + 8)
  | _ => [s.rdi u Reg.rtrSteerOut n]

/-- R33, R46, R103, R109: input queues the core at pos of function fn reads: x and z in element-wise mode, rows and, with PRED_EN, masks
in matrix mode, A and B of a V-core. The queues of an S-core's TOKR and TOKW stand in its program, which the loader does not
interpret (DEDUCED, log entry 40). -/
def State.coreReads (s : State) (pos fn : Nat) : List Nat :=
  let u := UnitId.tile 0 pos
  if fn = 1 ∨ fn = 2 then
    if s.flag u Reg.mcoreCtrlMode then (if s.rd u Reg.mcoreCfgEwOp = 0 then [0] else [0, 2])
    else if s.flag u Reg.mcoreSparsePredEn then [0, 1] else [0]
  else if fn = 3 ∨ fn = 4 then [0, 1] else []
/-- Queues it writes. -/
def coreWrites (fn : Nat) : List Nat := if 1 ≤ fn ∧ fn ≤ 4 then [8] else []

/-- R170: no steering unit writes a queue that the core or another unit writes, or reads one that the core reads. -/
def State.steerOk (s : State) (pos fn : Nat) : Bool :=
  let units := (List.range 4).filter (fun n => !isGateUnit pos n)
  units.all (fun n => (s.steerReads 0 pos n).all (fun q => !(s.coreReads pos fn).contains q)
    && (s.steerWrites pos n).all (fun q => !(coreWrites fn).contains q
      && units.all (fun m => decide (m = n) || !(s.steerWrites pos m).contains q)))

/-! A whole logical pond. -/

/-- R83, R100: no record in a resident ring, from its base on, is longer than the ring, and none is marked TBM without `tbm`. -/
def State.ringOk (s : State) (pos size : Nat) (tbm : Bool) : Nat → Nat → Bool
  | 0, _ => true
  | k + 1, q =>
    let w := MetaWord.ofBits (BitVec.ofNat 64 (s.ringNat 0 pos q 8))
    if size ≤ q ∨ 5 ≤ w.fmt then true
    else decide (s.recLen 0 pos q ≤ size) && (!w.tbm || tbm)
      && State.ringOk s pos size tbm k (q + Max.max 32 (s.recLen 0 pos q))

/-- R46: an element-wise core has an EW_OP with a meaning and the format of its streams. -/
def State.elementOk (s : State) (pos : Nat) : Bool :=
  decide (s.rd (.tile 0 pos) Reg.mcoreCfgEwOp ≠ 3) && !(s.aFmt 0 pos).scaled

/-- R115: the configuration sets of a V-core that its register block writes. -/
def State.setsOf (s : State) (b : Nat) (r : Option Rec) : List Nat :=
  match r with
  | none => []
  | some r => (List.range 4).filter (fun k => (List.range (s.imgN b (r.off + 4) 4)).any (fun i =>
      let o := s.imgN b (r.off + 8 + 16 * i) 4
      decide (0x40 ≤ o) && decide (o < 0x100) && decide ((o - 0x40) / 0x30 = k)))

/-- R111, R114: the function tables that the sets `ks` of a V-core use. -/
def State.tablesOf (s : State) (pos : Nat) (ks : List Nat) : List Nat :=
  (List.range 4).filter (fun n => ks.any (fun k => (List.range 6).any (fun i =>
    decide ((s.stage 0 pos k i).op = 0xB) && decide ((s.stage 0 pos k i).sub = n))))

/-- R114, R115, R118: the sets `ks` of a V-core are not refused, their function tables have a MODE with a meaning, and a selector's
rows fit its SELBUF area. -/
def State.vectorOk (s : State) (pos fn : Nat) (ks : List Nat) : Bool :=
  let u := UnitId.tile 0 pos
  let rowb := s.rd u Reg.vcoreCfgRowb
  ks.all (fun k => !setRefused ((List.range 6).map (fun n => s.stage 0 pos k n)))
    && (s.tablesOf pos ks).all (fun n => decide (s.memNat (s.funcKey 0 pos n) 1 < 2))
    && (decide (fn ≠ 4) || (decide (1 ≤ rowb) && decide (rowb ≤ 512)
      && decide (1024 * s.rd u Reg.vcoreSelSelbuf + selSize (s.rd u Reg.vcoreCfgInFmt) (32 * rowb) ≤ 2 ^ 18)))

/-- R114, R118: what a V-core keeps in its core local memory: function tables and the SELBUF area. -/
def State.vectorRegions (s : State) (pos fn : Nat) (ks : List Nat) : List (Nat × Nat) :=
  let u := UnitId.tile 0 pos
  (s.tablesOf pos ks).map (fun n => (1024 * s.rd u Reg.vcoreFtabBase + 4128 * n, 4128))
    ++ (if fn = 4 then [(1024 * s.rd u Reg.vcoreSelSelbuf, selSize (s.rd u Reg.vcoreCfgInFmt) (32 * s.rd u Reg.vcoreCfgRowb))] else [])

/-- R32, R40, R46, R49, R83, R100, R114, R115, R118, R170, R174: the block of position pos and its function suit each other. -/
def State.trialOk (s0 s : State) (b p lp pos : Nat) : Bool :=
  let fn := s0.funcOf b p lp pos
  let isM := decide (fn = 1) || decide (fn = 2)
  let isV := decide (fn = 3) || decide (fn = 4)
  let u := UnitId.tile 0 pos
  let ks := s0.setsOf b (s0.tileBlock b p lp pos)
  let regions := if isM then s.coreRegions pos else []
  (!isM || s.mRunOk 0 pos) && (decide (fn ≠ 2) || s.elementOk pos) && (!isV || s.vectorOk pos fn ks)
    && !overlaps (regions ++ s.l1Regions pos)
    && !overlapsAny (s.l1Regions pos) (s0.imgRegions b p lp pos ++ (if isV then s.vectorRegions pos fn ks else []))
    && s.steerOk pos fn
    && (!(decide (fn = 1) && s.flag u Reg.mcoreSparseRecEn && s.flag u Reg.mcoreWringResident)
      || s.ringOk pos (1024 * s.rd u Reg.mcoreWringSize) (s0.imgLic b 0) (32 * s.rd u Reg.mcoreWringSize) 0)

/-- R174, R298: where the collectives of a partition keep their results in the scratchpad of a logical pond. -/
def State.collRegions (s : State) (b p lp : Nat) : List (Nat × Nat) :=
  ((s.recsIn b 0xF p).filter (fun r => decide (dSpace (s.imgN b (r.off + 24) 8) = 1)
    && decide (fixLp 0 (s.imgN b (r.off + 24) 8) = lp))).map
    (fun r => (s.imgN b (r.off + 24) 8 % 2 ^ 23, s.imgN b (r.off + 12) 4 * s.imgN b (r.off + 16) 4 * 32))

/-- R204: the record that a failure of a position is named by: its register block, else the record of its function. -/
def State.posErr (s : State) (b p lp pos : Nat) : LErr :=
  match s.tileBlock b p lp pos, s.funcRec b p lp pos with
  | some r, _ => r.err
  | none, some r => r.err
  | none, none => s.partErr b p

/-- The failures of a logical pond's register blocks, and the MCORE_GATE values of its M-cores with the record of each. -/
def State.trialPond (s : State) (b p lp : Nat) (refs : List WRef) : List LErr × List (LErr × Nat) :=
  let fx := s.fixes b p
  let s0 : State := ({ s with img := { s.img with refs := s.img.refs ++ refs } } : State).blank
  let s0 := s0.preloadPond b p lp 0
  let r := (List.range 17).foldl (fun (a : State × List LErr) pos =>
    let x := s.trialTile a.1 b p lp pos fx
    (x.1, x.2 ++ a.2)) (s0, [])
  let t := r.1
  let tiles := (List.range 16).filter (fun pos => (s.funcRec b p lp pos).isSome)
  let bad := tiles.filter (fun pos => !s.trialOk t b p lp pos)
  let wide := (List.range 16).filter (fun pos => overlaps (t.l2Regions pos)
    || overlapsAny (t.l2Regions pos) ((List.range pos).flatMap (fun k => t.l2Regions k) ++ s.imgRegions b p lp 16 ++ s.collRegions b p lp))
  let gates := ((List.range 16).filter (fun pos => decide (s.funcOf b p lp pos = 1) || decide (s.funcOf b p lp pos = 2))).map
    (fun pos => (s.posErr b p lp pos, t.csrRead (.tile 0 pos) 0x20))
  (r.2 ++ (bad ++ wide).map (s.posErr b p lp), gates)

/-! Fix-ups, wiring, routes, groups, springs, grants (R214–R221). -/

/-- R214, R215. `a` is the running set as it will be after the load. -/
def State.fixOk (s a : State) (b p : Nat) (r : Rec) : Bool :=
  let n (o w : Nat) := s.imgN b (r.off + o) w
  let tab := s.secs b
  match tab[n 0 2]? with
  | none => false
  | some x =>
    let kind := n 8 1
    ([4, 0xB, 0xC, 0xD].contains x.typ) && decide (x.part = p) && decide (n 4 4 % 8 = 0) && decide (n 4 4 + 8 ≤ x.size)
      && decide (kind ≤ 3) && decide (n 9 1 < 64) && (if kind % 2 = 1 then decide (n 10 1 < 64) else decide (n 10 1 = 0))
      && s.imgZero b (r.off + 2) 2 && s.imgZero b (r.off + 11) 5
      && (decide (kind % 2 = 1) || (a.siteOf ⟨n 0 2, x.off + n 4 4, kind, n 9 1, n 10 1⟩ (fixLp kind (s.imgN b (x.off + n 4 4) 8))).isSome)

/-- R221: partition p may reach right `k` of logical pond lp of partition t of this rank. -/
def State.mayReach (a : State) (p t lp k : Nat) : Bool :=
  decide (t = p) || a.img.grants.any (fun x => decide (x.tpart = t) && decide (x.spart = p)
    && (decide (x.rank = 0xFF) || decide (x.rank = a.rank)) && x.rights.testBit k && decide (x.first ≤ lp)
    && (decide (x.n = 0) || decide (lp < x.first + x.n)))

/-- The logical pond exists in the running set. -/
def State.hasLp (a : State) (t lp : Nat) : Bool := (a.parts.get t Part.none).sites.any (fun x => decide (x.1 = lp))

/-- R217. -/
def State.wiringOk (s a : State) (b p n : Nat) (r : Rec) : Bool :=
  let f (o w : Nat) := s.imgN b (r.off + o) w
  let fl := f 6 1
  let remote := fl.testBit 1
  let same := fl.testBit 2
  let dpos := f 4 1
  (decide (f 0 2 < n) || decide (f 0 2 = 0xFFFF)) && decide (f 2 1 < 16) && decide (f 3 1 < 8) && decide (dpos < 16)
    && decide (tileType dpos ≠ .a) && decide (f 5 1 < 8) && decide (fl < 8) && decide (f 7 1 < 64)
    && (if remote then decide (f 10 1 < 64) else decide (f 10 1 = 0)) && s.imgZero b (r.off + 11) 5
    && (remote || same || (a.hasLp (f 7 1) (f 8 2) && a.mayReach p (f 7 1) (f 8 2) 2))

/-- R218. -/
def State.overlayOk (s : State) (b : Nat) (l : List Rec) (r : Rec) : Bool :=
  let f (o w : Nat) := s.imgN b (r.off + o) w
  decide ((earlierIn l r).length < 64) && decide (f 0 1 ≤ 1) && decide (1 ≤ f 1 1) && decide (f 1 1 ≤ 15)
    && decide (f 4 2 ≤ f 8 2) && decide (f 8 2 < 512) && decide (f 6 2 ≤ f 10 2) && decide (f 10 2 < 432)
    && s.imgZero b (r.off + 2) 2 && s.imgZero b (r.off + 12) 4

/-- R219, R231: `taken` are the groups of partitions that stay. -/
def State.groupOk (s a : State) (b p : Nat) (taken : List Nat) (r : Rec) : Bool :=
  let f (o w : Nat) := s.imgN b (r.off + o) w
  let m := f 2 2
  decide (1 ≤ m) && decide (m ≤ 4096) && decide (f 1 1 = 0) && decide (f 4 4 = 0) && !taken.contains (f 0 1)
    && (earlierIn (s.recsOf b 8) r).all (fun x => decide (s.imgN b x.off 1 ≠ f 0 1))
    && (List.range m).all (fun i =>
      let o := 8 + 8 * i
      decide (f (o + 1) 1 < 16) && decide (tileType (f (o + 1) 1) ≠ .a) && decide (f (o + 2) 1 < 8) && decide (f (o + 3) 1 = 0)
        && decide (f (o + 6) 2 = 0) && a.hasLp (f o 1) (f (o + 4) 2) && a.mayReach p (f o 1) (f (o + 4) 2) 2)

/-- R220. -/
def State.springOk (s : State) (b n : Nat) (l : List Rec) (r : Rec) : Bool :=
  let f (x : Rec) (o w : Nat) := s.imgN b (x.off + o) w
  let lp := f r 0 2
  (decide (lp < n) || decide (lp = 0xFFFF)) && decide (1 ≤ f r 3 1) && decide (f r 2 1 + f r 3 1 ≤ 64) && decide (f r 12 4 = 0)
    && (decide (lp = 0xFFFF) || (earlierIn l r).all (fun x => decide (f x 0 2 ≠ lp)
      || !meets (f x 2 1) (f x 3 1) (f r 2 1) (f r 3 1)))

/-- R221. -/
def State.grantOk (s : State) (b p n : Nat) (r : Rec) : Bool :=
  let f (o w : Nat) := s.imgN b (r.off + o) w
  (decide (f 0 1 < 64) || decide (f 0 1 = 0xFF)) && decide (f 1 1 < 64) && decide (f 2 1 = p) && decide (f 3 1 < 16)
    && decide (f 4 2 < n) && decide (f 4 2 + f 6 2 ≤ n) && decide (f 8 8 = 0)

/-! Programs and preloads (R222–R224). -/

/-- R140: scratchpad bytes of a logical pond. -/
def State.imgPad (s : State) (b p lp : Nat) : Nat :=
  match s.placeRec b p lp with
  | some r => (8 - s.imgN b (r.off + 10) 1) * 2 ^ 20
  | none => 2 ^ 23

/-- R149, R214: one descriptor of a program block at image offset o. -/
def State.descRecOk (s : State) (b : Nat) (fx : List Fix) (sec o : Nat) : Bool :=
  let d : QDesc := ⟨BitVec.ofNat 1024 (s.imgN b o 128), 0, 1⟩
  let op := d.op
  let need (k : Nat) : Bool := decide (1 ≤ dSpace (d.f k 8)) && decide (dSpace (d.f k 8) ≤ 4)
    && !fx.any (fun f => decide (f.sec = sec) && decide (f.at_ = o + k))
  !d.bad && !([0, 1, 4, 5, 6].contains op && need 8) && !([0, 2, 3, 4, 5, 7].contains op && need 16)
    && !((d.flag 0 || d.flag 1 || decide (6 ≤ op)) && need 88) && !need 104

/-- R222. -/
def State.agOk (s : State) (b p n : Nat) (fx : List Fix) (r : Rec) : Bool :=
  let f (o w : Nat) := s.imgN b (r.off + o) w
  let k := f 4 2
  decide (f 0 2 < n) && [3, 10, 12].contains (f 2 1) && decide (f 3 1 < 4) && decide (1 ≤ k) && decide (k ≤ 512)
    && decide (f 6 1 ≤ 4) && decide (f 6 1 ≤ k) && decide (f 7 1 = 0) && decide (f 8 4 % 32 = 0) && decide (f 12 4 = 0)
    && decide (f 8 4 + 128 * k ≤ s.imgPad b p (f 0 2))
    && (List.range k).all (fun i => s.descRecOk b fx r.sec (r.off + 16 + 128 * i))

/-- R223. -/
def State.progOk (s : State) (b n : Nat) (l : List Rec) (r : Rec) : Bool :=
  let f (o w : Nat) := s.imgN b (r.off + o) w
  let len := f 4 4
  let at_ := f 8 4
  (decide (f 0 2 < n) || decide (f 0 2 = 0xFFFF)) && decide (f 2 2 = 0) && decide (len % 4 = 0) && decide (at_ + len ≤ 2 ^ 18)
    && decide (at_ ≤ 4 * f 12 4) && decide (4 * f 12 4 < at_ + len) && decide (at_ ≤ 4 * f 16 4) && decide (4 * f 16 4 < at_ + len)
    && s.imgZero b (r.off + 22) 10 && decide (f 20 2 < 1024)
    && (earlierIn l r).all (fun x => decide (s.imgN b x.off 2 ≠ f 0 2))

/-- R224. `refs` are the references of the running set after the load. -/
def State.preloadOk (s : State) (b p n : Nat) (refs : List WRef) (r : Rec) : Bool :=
  let f (o w : Nat) := s.imgN b (r.off + o) w
  let u := f 2 1
  let len := f 4 4
  let lim := if u = 16 then s.imgPad b p (f 0 2) else 2 ^ 18
  decide (f 0 2 < n) && decide (u ≤ 16) && (decide (u = 16) || decide (tileType u ≠ .a)) && decide (f 3 1 ≤ 2)
    && decide (len % 32 = 0) && decide (f 8 4 % 32 = 0) && decide (f 8 4 + len ≤ lim) && decide (f 24 8 = 0)
    && (decide (f 3 1 ≠ 1) || refs.any (fun x => decide (x.index = f 12 4) && decide (f 16 8 + len ≤ x.len)))

/-! Collectives (R298) and weight references (R225, R227). -/

/-- R298. `taken` are the CTX values of partitions that stay. -/
def State.treeOk (s a : State) (b p n : Nat) (taken : List Nat) (r : Rec) : Bool :=
  let f (o w : Nat) := s.imgN b (r.off + o) w
  let region := f 12 4 * f 16 4 * 32
  let mem := f 2 1
  let op := f 3 1 % 4
  let dst := f 24 8
  decide (f 0 1 ≤ 15) && !taken.contains (f 0 1) && (earlierIn (s.recsOf b 0xF) r).all (fun x => decide (s.imgN b x.off 1 ≠ f 0 1))
    && decide (f 1 1 ≤ 3) && decide (mem ≤ 1) && decide (op ≤ 2) && decide (f 3 1 / 8 ≤ 2)
    && (decide (f 1 1 ≠ 3) || decide (op = 0)) && (decide (mem = 0) || decide (op = 0)) && decide (f 4 2 < n)
    && decide (f 6 1 < 64) && decide (f 7 1 < 64) && decide (1 ≤ f 10 2) && decide (f 10 2 ≤ 4095)
    && decide (1 ≤ f 12 4) && decide (f 12 4 ≤ 16777216) && decide (1 ≤ f 16 4)
    && decide (f 16 4 ≤ (if mem = 1 then 16777216 else 512)) && decide (f 20 4 = 0) && s.imgZero b (r.off + 48) 16
    && decide (dst % 32 = 0) && decide (dst < 2 ^ 58) && decide (dRank dst = s.rank) && decide (dSpace dst ≤ 1)
    && (if dSpace dst = 1 then decide (dUnit dst = 16) && decide (dst / 2 ^ 43 % 32 = 0) && a.hasLp p (dst / 2 ^ 28 % 2 ^ 15)
          && decide (dst % 2 ^ 23 + region ≤ s.imgPad b p (dst / 2 ^ 28 % 2 ^ 15))
        else s.ownAddrOk dst 0 && decide (dst % 2 ^ 37 + region ≤ (s.dram (dField dst)).usable))
    && (if f 1 1 = 3 then decide (f 32 8 % 32 = 0) && s.ownAddrOk (f 32 8) 0 && s.imgLic b 0 && s.hasLicence 0
          && decide (f 32 8 % 2 ^ 37 + region ≤ (s.dram (dField (f 32 8))).usable)
        else decide (f 32 8 = 0))
    && (if mem = 1 then decide (f 40 8 % 4096 = 0) && (List.range numFields).all (fun fl => decide (f 40 8 + 6 * f 16 4 * 32 ≤ (s.dram fl).usable))
        else decide (f 40 8 = 0))

/-- R298: the collective a record defines; a DST in the scratchpad is at its site in `a`. -/
def State.treeOf (s a : State) (b : Nat) (r : Rec) : CollRec :=
  let f (o w : Nat) := s.imgN b (r.off + o) w
  let dst := f 24 8
  let dst' := if dSpace dst = 1 then
      match a.siteOf ⟨0, 0, 0, r.part, 0⟩ (fixLp 0 dst) with
      | some g => fixPut 0 dst g
      | none => dst
    else dst
  ⟨r.part, f 0 1, f 1 1, decide (f 2 1 = 1), f 3 1 % 4, (f 3 1).testBit 2, f 3 1 / 8 % 4, f 4 2, f 6 1, f 7 1, f 8 2, f 10 2,
    f 12 4, f 16 4, dst', f 32 8, f 40 8⟩

/-- R225: the reference of a record. -/
def State.refOf (s : State) (b : Nat) (r : Rec) : WRef :=
  let f (o w : Nat) := s.imgN b (r.off + o) w
  ⟨f 0 4, f 4 2, f 8 8, f 16 8, f 24 32, s.imgN b 0x10 8⟩

/-- R84: the bytes of the quarter record at memory key k. -/
def State.recSpan (s : State) (k : Nat) : Nat :=
  let w := MetaWord.ofBits (BitVec.ofNat 64 (s.memNat k 8))
  let f := NFmt.ofCode w.fmt
  if w.zero then 32 else if w.dense then denseLen f
    else sparseLen f ((List.range 4).map (fun j => s.memNat (k + 16 + 8 * j) 8))

/-- R100: some quarter record from memory key k to `fin` is marked TBM. -/
def State.tbmIn (s : State) (fin : Nat) : Nat → Nat → Bool
  | 0, _ => false
  | n + 1, k =>
    let w := MetaWord.ofBits (BitVec.ofNat 64 (s.memNat k 8))
    if fin ≤ k ∨ 5 ≤ w.fmt then false else w.tbm || State.tbmIn s fin n (k + s.recSpan k)

/-- R225, R231: `taken` are the INDEX values of the running set. R100: a region of records marked TBM needs BUILD. -/
def State.refRecOk (s : State) (b : Nat) (taken : List Nat) (l : List Rec) (r : Rec) : Bool :=
  let f (o w : Nat) := s.imgN b (r.off + o) w
  let fl := f 4 2
  let base := f 8 8
  let len := f 16 8
  (earlierIn l r).all (fun x => decide (s.imgN b x.off 4 ≠ f 0 4)) && !taken.contains (f 0 4) && decide (fl < 16)
    && decide (f 6 2 = 0) && decide (f 56 8 = 0) && !(fl.testBit 1 && fl.testBit 2) && (!fl.testBit 3 || fl.testBit 0)
    && (fl.testBit 0 || s.imgZero b (r.off + 24) 32) && decide (base % 256 = 0) && s.ownAddrOk base 0
    && decide (len % 256 = 0) && decide (base % 2 ^ 37 + len ≤ (s.dram (dField base)).usable)
    && (s.imgLic b 0 || !(fl.testBit 2 || (fl.testBit 3 && s.tbmIn (base % 2 ^ 48 + len) (len / 32) (base % 2 ^ 48))))

/-- R227: the seal that a reference needs. -/
def State.sealOk (s : State) (x : WRef) : Bool :=
  !x.flags.testBit 0 || (s.img.seals.get (dField x.base) []).any (fun t =>
    decide (t.off = x.base % 2 ^ 37) && decide (t.len = x.len) && decide (t.digest = x.digest) && (!x.flags.testBit 3 || t.recOk))

/-! All records of a partition. -/

/-- Every check of step 4 of R229 for partition p, with `a` the running set after the load. -/
def State.partErrs (s a : State) (b p : Nat) (groups ctxs : List Nat) (refs : List WRef) : List LErr :=
  let own := s.partErr b p
  let flag (ok : Bool) : List LErr := if ok then [] else [own]
  let rs := s.recsIn b 1 p
  let rec1 := refusedRecs rs (s.partitionOk b p)
  if rs.length ≠ 1 then [own]
  else if s.imgRemoves b p then
    rec1 ++ flag ((s.secs b).all (fun x => decide (x.part ≠ p) || decide (x.typ = 1) || decide (0x8000 ≤ x.typ)))
  else
    let n := s.imgPonds b p
    let lps := List.range n
    let pl := s.recsIn b 2 p
    let tf := s.recsIn b 3 p
    let rb := s.recsIn b 4 p
    let fx := s.fixes b p
    let ov := s.recsIn b 7 p
    let sp := s.recsIn b 9 p
    let pr := s.recsIn b 0xC p
    let plain := rec1 ++ refusedRecs pl (s.placementOk b n pl) ++ flag (decide (pl.length = n))
      ++ refusedRecs tf (s.tileFuncOk b p n tf) ++ refusedRecs rb (s.regBlockOk b rb)
      ++ flag (lps.all (fun lp => decide (s.funcOf b p lp 5 = 6)))
      ++ refusedRecs (s.recsIn b 5 p) (s.fixOk a b p) ++ refusedRecs (s.recsIn b 6 p) (s.wiringOk a b p n)
      ++ refusedRecs ov (s.overlayOk b ov) ++ refusedRecs (s.recsIn b 8 p) (s.groupOk a b p groups)
      ++ refusedRecs sp (s.springOk b n sp) ++ refusedRecs (s.recsIn b 0xA p) (s.grantOk b p n)
      ++ refusedRecs (s.recsIn b 0xB p) (s.agOk b p n fx) ++ refusedRecs pr (s.progOk b n pr)
      ++ flag (lps.all (fun lp => (s.progRec b p lp).isSome))
      ++ refusedRecs (s.recsIn b 0xD p) (s.preloadOk b p n refs) ++ refusedRecs (s.recsIn b 0xF p) (s.treeOk a b p n ctxs)
    -- R213: blocks are tried once the records that lead to them are sound
    let tried := if plain.isEmpty then lps.map (fun lp => s.trialPond b p lp refs) else []
    let gates := tried.flatMap (fun x => x.2)
    plain ++ tried.flatMap (fun x => x.1) ++ (match gates with
      | [] => []
      | g :: rest => (rest.filter (fun x => decide (x.2 ≠ g.2))).map (fun x => x.1))

end Sys2Proof.Machine
end

