-- ==== Sys2Proof/Machine/Loader.lean ====
section
/-! DEFINITION. Loading an image, seals, and broadcasts (R199, R209, R226–R232, R428–R430). -/

namespace Sys2Proof.Machine

/-! Placement (R209). -/

/-- R209: every logical pond of the load in the order of a round. -/
def State.loadPonds (s : State) (b : Nat) : List (Nat × Nat) :=
  (s.imgParts b).flatMap (fun p => (List.range (s.imgPonds b p)).map (fun lp => (p, lp)))

/-- R208: the ponds that the load may take from partitions it replaces or removes. -/
def State.replaced (s : State) (b n : Nat) : Bool := !s.imgPartial b || (s.imgMask b).testBit n

/-- PLACEMENT (R209): four rounds over the logical ponds. -/
def State.place (s : State) (b : Nat) : List (Nat × Nat × Nat) :=
  (List.range 4).foldl (fun (acc : List (Nat × Nat × Nat)) r =>
    (s.loadPonds b).foldl (fun (acc : List (Nat × Nat × Nat)) x =>
      let c := (s.candidates b x.1 x.2).getD r 0xFFFF
      if acc.any (fun y => decide (y.1 = x.1) && decide (y.2.1 = x.2)) then acc
      else if c < numPonds && s.acceptable b x.1 x.2 c (s.replaced b) && acc.all (fun y => decide (y.2.2 ≠ c)) then
        acc ++ [(x.1, x.2, c)]
      else acc) acc) []

/-! The running set after the load. -/

/-- A loaded partition (R205). -/
def State.loadedPart (s : State) (b p : Nat) (placed : List (Nat × Nat × Nat)) : Part :=
  match s.partRec b p with
  | none => Part.none
  | some r =>
    let n (o w : Nat) := s.imgN b (r.off + o) w
    { Part.none with
      state := 1
      sites := (placed.filter (fun x => decide (x.1 = p))).map (fun x => (x.2.1, x.2.2))
      prio := n 1 1
      flags := n 2 2
      maxN := n 6 1
      saveBase := n 8 8
      saveSize := n 16 8
      image := b
      imageId := s.imgN b 0x10 8
      off := (List.range (n 4 2)).flatMap (fun lp => ((List.range 16).filter (fun t => decide (s.funcOf b p lp t = 0))).map
        (fun t => 16 * lp + t)) }

/-- The running set without what the image replaces or removes. -/
def State.without (s : State) (b : Nat) : State :=
  let gone (n : Nat) : Bool := s.replaced b n
  { s with
    parts := s.parts.filter (fun e => !gone e.1)
    img := { s.img with
      grants := s.img.grants.filter (fun x => !gone x.tpart)
      overlays := s.img.overlays.filter (fun x => !gone x.part)
      groups := s.img.groups.filter (fun x => !gone x.2.part)
      colls := s.img.colls.filter (fun x => !gone x.part) } }

/-- R218, R219, R221: the tables a partition brings. -/
def State.partTables (s : State) (b p : Nat) (m : ImgSt) : ImgSt :=
  let n (r : Rec) (o w : Nat) := s.imgN b (r.off + o) w
  let gr : List Grant := (s.recsIn b 0xA p).map (fun r => ⟨n r 0 1, n r 1 1, p, n r 3 1, n r 4 2, n r 6 2⟩)
  let ov : List Overlay := (s.recsIn b 7 p).map (fun r =>
    ⟨p, n r 4 2, n r 6 2, n r 8 2, n r 10 2, if n r 0 1 = 1 then 0 else n r 1 1⟩)
  { m with
    grants := m.grants ++ gr
    overlays := m.overlays ++ ov
    groups := (s.recsIn b 8 p).foldl (fun (t : Tab MGrp) r => t.set (n r 0 1) ⟨0, []⟩
      ⟨p, (List.range (n r 2 2)).map (fun i => ⟨n r (8 + 8 * i) 1, n r (9 + 8 * i) 1, n r (10 + 8 * i) 1, n r (12 + 8 * i) 2⟩)⟩) m.groups }

/-- The running set with the image's partitions at their sites, its tables and collectives. -/
def State.withImage (s : State) (b : Nat) (placed : List (Nat × Nat × Nat)) : State :=
  let l := s.imgParts b
  let s1 : State := { s with
    parts := l.foldl (fun (t : Tab Part) p => t.set p Part.none (s.loadedPart b p placed)) s.parts
    img := l.foldl (fun m p => s.partTables b p m) s.img }
  { s1 with img := { s1.img with
    colls := s1.img.colls ++ ((s.recsOf b 0xF).filter (fun r => l.contains r.part)).map (fun r => s.treeOf s1 b r) } }

/-- The weight references of the image. -/
def State.imgRefs (s : State) (b : Nat) : List WRef := (s.recsOf b 0xE).map (s.refOf b)

/-- References that stay: those of images with a partition that stays. -/
def State.keptRefs (s : State) (b : Nat) : List WRef :=
  let w := s.without b
  s.img.refs.filter (fun r => w.parts.any (fun e => decide (e.2.imageId = r.image)))

/-! The checks of steps 1–4 (R229). -/

/-- R204: DETAIL of a refusal that names no record: the spec states no value. -/
def State.refuseLoad (s : State) (c : HCmd) (code : Nat) : State := s.drawn.finish c 1 code 0 (s.freeNat % 2 ^ 56)

/-- R204, R232: a refusal of records. -/
def State.recordsCode (s : State) (b : Nat) (placed : List (Nat × Nat × Nat)) : Option (Nat × LErr) :=
  let w := s.without b
  let a := w.withImage b placed
  let kept := s.keptRefs b
  let refs := kept ++ s.imgRefs b
  let rl := s.recsOf b 0xE
  let taken := if s.imgPartial b then s.img.refs.map (fun r => r.index) else []
  let groups := w.img.groups.map (fun e => e.1)
  let ctxs := w.img.colls.map (fun r => r.ctx)
  let secs := ((s.secs b).filter (fun x => !s.secOk b x)).map (fun x => (⟨x.i, 0, x.part⟩ : LErr))
  let named := (List.range 64).filter (fun p => (s.imgMask b).testBit p || (s.secs b).any (fun x => decide (x.typ < 0x8000) && decide (x.part = p)))
  let parts := named.flatMap (fun p => if (s.imgMask b).testBit p then s.partErrs a b p groups ctxs refs else [s.partErr b p])
  -- R231: a fix-up of a partition that stays names a removed partition
  let lost := w.parts.flatMap (fun e => ((s.fixes e.2.image e.1).filter (fun f => decide (f.kind % 2 = 0)
    && (a.siteOf f (fixLp f.kind (s.imgN e.2.image f.at_ 8))).isNone)).map (fun f => s.partErr b f.tpart))
  match firstErr (secs ++ parts ++ lost ++ refusedRecs rl (s.refRecOk b taken rl)) with
  | some e => some (9, e)
  | none =>
    (firstErr (refusedRecs rl (fun r => s.sealOk (s.refOf b r)))).map (fun e => (0xA, e))

/-- R229 steps 1–4: the load goes on with its placement, or has been refused. -/
def State.checkLoad (s : State) (c : HCmd) (b len : Nat) : State × Option (List (Nat × Nat × Nat)) :=
  let code := s.containerCode b len s.trust.configKey
  let tableBad := decide (shaNat (s.mem.bytes (b + 0x100) (64 * s.imgN b 0x28 4)) ≠ s.imgN b 0x30 32)
  if code = 4 ∧ ¬ tableBad then
    let e := ((s.secs b).find? (fun x => decide (shaNat (s.mem.bytes (b + x.off) x.size) ≠ s.imgN b (0x120 + 64 * x.i) 32))).map
      (fun x => (⟨x.i, 0, x.part⟩ : LErr))
    (s.finish c 1 4 0 ((e.getD ⟨0, 0, 0⟩).detail), none)
  else if code = 1 ∧ s.headOk b len then
    (s.finish c 1 1 0 ((((s.secs b).find? (fun x => !s.entryOk b x)).map (fun x => (⟨x.i, 0, x.part⟩ : LErr))).getD ⟨0, 0, 0⟩).detail, none)
  else if code ≠ 0 then (s.refuseLoad c code, none)
  else
    let lic := (List.range 5).foldl (fun (a : State × Bool) n =>
      if s.imgLic b n then let x := a.1.useLicence n; (x.1, a.2 && x.2) else a) (s, true)
    let s := lic.1
    if !lic.2 then (s.refuseLoad c 5, none)
    else if s.imgN b 0x2C 1 ≠ s.rank ∨ s.imgN b 0x2D 1 ≠ s.ranks then (s.refuseLoad c 6, none)
    else if !s.baseIdOk b then (s.refuseLoad c 7, none)
    else if let some e := s.baseErr b then (s.finish c 1 7 0 e.detail, none)
    else
      let placed := s.place b
      match (s.loadPonds b).find? (fun x => !placed.any (fun y => decide (y.1 = x.1) && decide (y.2.1 = x.2))) with
      | some x =>
        let e := match s.placeRec b x.1 x.2 with
          | some r => r.err
          | none => s.partErr b x.1
        (s.finish c 1 8 0 e.detail, none)
      | none =>
        match s.recordsCode b placed with
        | some x => (s.finish c 1 x.1 0 x.2.detail, none)
        | none => (s, some placed)

/-! Steps 5–8 (R229–R232). -/

/-- The partitions that the load replaces or removes and that are present. -/
def State.outgoing (s : State) (b : Nat) : List Nat := (s.parts.map (fun e => e.1)).filter (fun n => s.replaced b n)

/-- R199, R227: from the start of the load the staging region and its READ_ONLY ranges are protected. -/
def State.protect (s : State) (b len : Nat) : State :=
  let x : Staged := ⟨b, len, s.imgN b 0x10 8, shaNat (s.mem.bytes b (len - 128))⟩
  let rs := s.imgRefs b
  { s with img := { s.img with
    staged := s.img.staged.filter (fun m => decide (m.base ≠ b)) ++ [x]
    refs := s.img.refs ++ rs.filter (fun r => !s.img.refs.contains r) } }

/-- R229 step 5: every replaced partition is asked to stop. -/
def State.beginLoad (s : State) (c : HCmd) (b len : Nat) (placed : List (Nat × Nat × Nat)) : State :=
  let s := ({ s.protect b len with img := { (s.protect b len).img with placed := placed } } : State)
  let s := (s.outgoing b).foldl (fun s n =>
    let s := (s.abortDmaWaits n).cancelLatch n
    if (s.parts.get n Part.none).state = 3 then s.askStop n 7
    else s.modPart n (fun p => { p with state := 7, stopAt := [], recStep := 0, moves := [], draining := false, drained := false })) s
  s.modCmd c.slot (fun x => { x with launched := true, stage := 1 })

/-- R232: TEARDOWN commands of a partition complete once the load has torn it down. -/
def State.endTeardowns (s : State) (n : Nat) : State :=
  (s.hub.cmds.filter (fun x => decide (x.op = 5) && decide (x.part = n) && !x.done)).foldl (fun s x => s.finish x 0 0 0 0) s

/-- R229 step 7: a pond is written from the image; its cache share is set by START's rules (R140). -/
def State.writeSite (s : State) (b p lp g : Nat) : State :=
  let c := match s.placeRec b p lp with
    | some r => s.imgN b (r.off + 10) 1
    | none => 0
  (cacheMib g c s).configure b p lp g

/-- R230, R232: logical ponds whose site has failed since the placement move to a free candidate, or their partition is
left unloaded. -/
def State.replaceFailed (s : State) (b p : Nat) : State :=
  let n := (s.parts.get p Part.none).sites
  let r := n.foldl (fun (a : State × Bool) x =>
    if !a.2 || (a.1.goodPond x.2 && a.1.funcsOk b p x.1 x.2) then a
    else
      match a.1.newSite b p x.1 with
      | some g => (a.1.setSite p x.1 g, true)
      | none => (a.1, false)) (s, true)
  if r.2 then r.1.moveColls p (r.1.movesFrom p n) else r.1.dropPart p

/-- R430: a failed receiver: its S-core is written to the overlay map. -/
def State.bcFail (s : State) (g : Nat) : State :=
  let u := UnitId.fld (fieldOf g)
  ((s.overTile g 5 0).wr (.pond g) Reg.pondBcCfgActive 0).wr u Reg.fldBcStatFailed
    (Min.min (s.rd u Reg.fldBcStatFailed + 1) 0xFFFF)

/-- R230: receivers of `failed` that hold a logical pond of the load are marked and their logical ponds re-placed; so are the new
sites, as often as one fails in its turn. -/
def State.settleSites (b : Nat) (failed : List Nat) : Nat → State → State
  | 0, s => s
  | k + 1, s =>
    let l := s.imgParts b
    let hit := failed.filter (fun g => l.any (fun p => (s.pondsOf p).contains g) && !(s.tileW g 5).testBit 0)
    let s := l.foldl (fun s p => s.replaceFailed b p) (hit.foldl State.bcFail s)
    if hit = [] then s else State.settleSites b failed k s

/-- R231: running partitions outside the load that name a replaced partition. -/
def State.namers (s : State) (b : Nat) : List Nat :=
  ((s.without b).parts.map (fun e => e.1)).filter (fun n =>
    (List.range 64).any (fun p => (s.imgMask b).testBit p && s.namesPart n p none (fun _ => true)))

/-- R229 steps 5 and 6: the replaced partitions are scrubbed and leave; the image's take their places. -/
def State.applyLoad (s : State) (c : HCmd) (b len : Nat) (bad : List (PondIx × TestFail)) : State :=
  let placed := s.img.placed
  let s := (s.outgoing b).foldl (fun s n => (s.freePart n bad).endTeardowns n) s
  let s := (s.protect b len).withImage b placed
  let s : State := { s with img := { s.img with
    placed := []
    baseId := s.imgN b 0x10 8 } }
  s.lakeWrites.modCmd c.slot (fun x => { x with stage := 3 })

/-- R229 steps 7 and 8: `failed` are the receivers marked failed. -/
def State.endLoad (s : State) (c : HCmd) (b : Nat) (failed : List PondIx) (halts : List Nat) : State :=
  let l := s.imgParts b
  let s := State.settleSites b (failed.map (fun g => g.val)) 5 s
  let up := l.filter (fun p => decide ((s.parts.get p Part.none).state ≠ 0))
  let s := up.foldl (fun s p => (s.parts.get p Part.none).sites.foldl (fun s x => s.writeSite b p x.1 x.2) s) s
  -- R231: words and queue destinations that name a replaced partition
  let mask := s.imgMask b
  let s := (s.namers b).foldl (fun s n =>
    let s := s.refix n (fun f => decide (f.kind % 2 = 0) && mask.testBit f.tpart)
    ((List.range 64).filter (fun p => mask.testBit p)).foldl (fun s p => s.rewire n p none) s) s
  let s := (up.foldl State.publish s).unhalt halts
  let lost := (l.filter (fun p => !up.contains p)).map (fun p => 2 ^ p)
  let s := if lost = [] then s.finish c 0 0 0 ((halts.map (fun n => 2 ^ n)).sum) else s.finish c 2 0 0 lost.sum
  s.releaseImages.lakeWrites

/-- LOAD (R229–R232). `bad`: ponds whose scrub does not read back as zero; `failed`: receivers that fail in step 7. The
command is applied again as the stops, the drain and the halts of step 6 come to their ends. -/
def loadCmd (slot : Nat) (bad : List (PondIx × TestFail)) (failed : List PondIx) (s : State) : State :=
  match s.command slot 2 with
  | none => s
  | some c =>
    let a := c.f 16 8
    let len := c.f 24 8
    let b := a % 2 ^ 48
    match c.stage with
    | 0 =>
      if s.hub.cmds.any (fun x => decide (x.op = 2) && x.launched && !x.done)
          || (s.hub.cmds.takeWhile (fun x => decide (x.slot ≠ c.slot))).any (fun x => decide (x.op = 2) && !x.done) then s.refuseLoad c 0xB
      else if s.parts.any (fun e => decide (e.2.recStep = 5) || decide (e.2.recStep = 7)) then s
      else if !s.waferOn ∨ !s.ownAddrOk a 0 ∨ a % 32 ≠ 0 ∨ len = 0 ∨ 2 ^ 30 < len ∨ (s.dram (dField a)).usable < a % 2 ^ 37 + len then
        s.refuseLoad c 0xC
      else if (s.outgoing b).any (fun n => [2, 7, 8].contains (s.parts.get n Part.none).state) then s
      else if s.containerCode b len s.trust.configKey = 0
          ∧ s.underReset ((s.loadPonds b).flatMap (fun x => s.candidates b x.1 x.2)) ≠ [] then
        s.latchPonds (s.underReset ((s.loadPonds b).flatMap (fun x => s.candidates b x.1 x.2)))
      else
        let r := s.checkLoad c b len
        match r.2 with
        | none => r.1
        | some placed => r.1.beginLoad c b len placed
    | 1 =>
      let l := s.outgoing b
      if l.all s.atBoundary then
        let s := l.foldl (fun s n => ((s.clearRun n).flinvPart n).closeTiles ((s.pondsOf n).flatMap tilesOf)) s
        s.modCmd c.slot (fun x => { x with stage := 2 })
      else s
    | 2 => if (s.outgoing b).all s.partDrained then s.applyLoad c b len bad else s
    | _ =>
      let halts := (s.namers b).filter (fun n => decide ((s.parts.get n Part.none).state = 3))
      if s.halted halts then s.endLoad c b failed halts else s.askHalt halts

/-! SEAL (R226). -/

/-- R226, R86, R97: the bytes from `k` to `fin` are quarter records: CHECK matches, SEQ starts at 0 or follows the record
before, and no sparse record is larger than the dense one. -/
def State.quarterRecs (s : State) (fin : Nat) : Nat → Nat → Nat → Bool
  | 0, k, _ => decide (k = fin)
  | n + 1, k, seq =>
    if fin ≤ k then decide (k = fin)
    else
      let bits := BitVec.ofNat 64 (s.memNat k 8)
      let w := MetaWord.ofBits bits
      let len := s.recSpan k
      decide (w.chk = metaXor bits) && decide (w.fmt < 5) && (decide (w.seq = 0) || decide (w.seq = seq))
        && decide (len ≤ denseLen (NFmt.ofCode w.fmt)) && State.quarterRecs s fin n (k + len) ((w.seq + 1) % 256)

/-- SEAL: the range is hashed, its record check made when asked, the digest written to the host; a range that cannot be
read whole or a full table ends with SEAL_FAILED. -/
def sealCmd (slot : Nat) (s : State) : State :=
  match s.command slot 0xB with
  | none => s
  | some c =>
    let a := c.f 16 8
    let len := c.f 24 8
    let f := dField a
    let o := a % 2 ^ 37
    let l := (s.img.seals.get f []).filter (fun x => decide (x.off ≠ o ∨ x.len ≠ len))
    if !s.waferOn ∨ !s.ownAddrOk a 0 ∨ (s.dram f).usable < o + len ∨ s.dramStopped f ∨ s.dramLost f o len false ∨ 64 ≤ l.length then
      s.finish c 6 5 0 0
    else if !s.hostWrites then s
    else
      let h := sha256 (s.mem.bytes (dramKey f o) len)
      let ok := (c.f 32 1).testBit 0 && s.quarterRecs (dramKey f o + len) (len / 32 + 1) (dramKey f o) 0
      let s : State := { s with
        hostMem := s.hostMem.putBytes (c.f 40 8) h
        img := { s.img with seals := s.img.seals.set f [] (l ++ [⟨o, len, leNat h, ok⟩]) } }
      s.finish c 0 0 0 0

/-! Broadcasts (R428–R430). -/

/-- R428: memory of a receiver's target: the scratchpad, or the core local memory of a tile. -/
def State.bcKey (s : State) (g o : Nat) : Nat :=
  let u := UnitId.pond g
  posKey g (s.rd u Reg.pondBcCfgUnit) (4096 * s.rd u Reg.pondBcCfgBase + o)

/-- Chunks a receiver misses. -/
def State.bcMissing (s : State) (g : Nat) : Nat :=
  ((List.range 64).map (fun w => bitCount 64 (s.rdi (.pond g) Reg.pondBcMiss w))).sum

/-- R428: a chunk with its header: written when its CRC matches; its missing bit clears. -/
def State.bcTake (s : State) (g object chunk crc : Nat) (bs : List Byte) : State :=
  let u := UnitId.pond g
  if object ≠ s.rd u Reg.pondBcCfgObject ∨ s.rd u Reg.pondBcCfgChunks ≤ chunk ∨ s.rd u Reg.pondBcCfgActive = 0 then s
  else
    let k := s.bcKey g (4096 * chunk)
    let s := (s.putMem k bs).healSram k bs.length
    if (crc32 bs) ≠ crc then s
    else (s.clrBiti u Reg.pondBcMiss (chunk / 64) (chunk % 64)).wr u Reg.pondBcStatMissing (
      (s.clrBiti u Reg.pondBcMiss (chunk / 64) (chunk % 64)).bcMissing g)

/-- R430: a receiver without missing bits judges the object's digest; `len` is the object's length in bytes. -/
def State.bcJudge (s : State) (g len : Nat) : State :=
  let u := UnitId.pond g
  if s.rd u Reg.pondBcCfgActive = 0 ∨ s.bcMissing g ≠ 0 then s
  else
    let d := ((List.range 4).map (fun i => s.rdi u Reg.pondBcDigestDigest i * 2 ^ (64 * i))).sum
    if shaNat (s.mem.bytes (s.bcKey g 0) len) = d then s.wr u Reg.pondBcStatDigestOk 1 else s.wr u Reg.pondBcStatDigestBad 1

/-- BROADCAST_CHUNK: a chunk arrives at the receiver of pond g while its S-core has RUN = 0; `last`: the length of the
object when this chunk may be the last missing one. -/
def broadcastChunk (g object chunk crc len : Nat) (bs : List Byte) (s : State) : State :=
  if s.flag (.tile g 5) Reg.scoreCtrlRun then s else (s.bcTake g object chunk crc bs).bcJudge g len

/-- R430, R436: FLD_BC_STAT records an object: its number, the rounds used, the chunks sent by unicast so far. -/
def State.bcNote (s : State) (f object rounds unicast : Nat) : State :=
  let u := UnitId.fld f
  let same := decide (s.rd u Reg.fldBcStatObject = object)
  let s := (s.wr u Reg.fldBcStatObject object).wr u Reg.fldBcStatRounds rounds
  let s := s.wr u Reg.fldBcStatUnicast (Min.min ((if same then s.rd u Reg.fldBcStatUnicast else 0) + unicast) 0xFFF)
  if same then s else s.wr u Reg.fldBcStatFailed 0

/-- BROADCAST_REPAIR (R429, R430): the sender resends to the receivers that miss chunks, after `rounds` repair rounds; after
the eighth it sends what is missing by unicast. `again` says whether the resends reached the receiver of pond g: the chunks
it missed arrive, or, after the eighth round, it is marked failed. A receiver whose digest did not match takes the whole
object again; a second mismatch marks it failed. `bs` is the object. -/
def broadcastRepair (g : Nat) (bs : List Byte) (rounds : Nat) (again : Bool) (s : State) : State :=
  let u := UnitId.pond g
  let object := s.rd u Reg.pondBcCfgObject
  let chunk (i : Nat) : List Byte := (bs.drop (4096 * i)).take 4096
  let fill (s : State) (l : List Nat) : State := l.foldl (fun s i => s.bcTake g object i (crc32 (chunk i)) (chunk i)) s
  let all := List.range (s.rd u Reg.pondBcCfgChunks)
  if s.rd u Reg.pondBcCfgActive = 0 then s
  else if s.bcMissing g ≠ 0 then
    let miss := all.filter (fun i => (s.rdi u Reg.pondBcMiss (i / 64)).testBit (i % 64))
    let s := s.bcNote (fieldOf g) object rounds (if rounds = 8 then miss.length else 0)
    if again then (fill s miss).bcJudge g bs.length
    else if rounds = 8 then s.bcFail g
    else s
  else if s.rd u Reg.pondBcStatDigestBad = 1 then
    let s := s.bcNote (fieldOf g) object rounds all.length
    let s := (fill s all).wr u Reg.pondBcStatDigestBad 0
    let s := s.bcJudge g bs.length
    if s.rd u Reg.pondBcStatDigestBad = 1 then s.bcFail g else s
  else s

end Sys2Proof.Machine
end

