-- ==== Sys2Proof/Machine/Logs.lean ====
section
/-! DEFINITION. Field supervisors and the logs (R17, R400, R403–R406, R412, R413). -/

namespace Sys2Proof.Machine

/-! Error records (R400–R406). -/

/-- R405: a record of severity I repeats one of the same UNIT and KIND logged within 1 ms. -/
def State.repeats (s : State) (f : Nat) (r : ErrRec) : Bool :=
  decide (sevOf r.kind = 0) && (s.err.elog.get f []).any (fun e => decide (e.unit = r.unit) && decide (e.kind = r.kind)
    && decide (s.now < e.time + 10 ^ 6))

/-- R404: a record waits to be appended to the module log. -/
def State.toModuleLog (s : State) (r : ErrRec) : State := { s with err := { s.err with mlogWait := s.err.mlogWait ++ [r] } }

/-- R403: field f's supervisor, or the one that adopted the field, logs a record. -/
def State.fieldLog (s : State) (f : Nat) (r : ErrRec) : State :=
  let u := UnitId.fld f
  if s.repeats f r then s.sat u Reg.fldElogSuppSuppressed 1
  else
    let n := s.rd u Reg.fldElogStatWritten
    let l := s.err.elog.get f []
    let r := { r with
      flags := r.flags + (if s.supvWorks f then 0 else 1)
      seq := n % 65536 }
    let s := (s.wr u Reg.fldElogStatWritten (n + 1)).sat u Reg.fldElogStatLost (if l.length < 1024 then 0 else 1)
    ({ s with err := { s.err with elog := s.err.elog.set f [] ((r :: l).take 1024) } } : State).toModuleLog r

/-- R403: the record of field f that enters its log next: the oldest on its way; of those of one service cycle the one with the
lower UNIT. -/
def State.nextRec (s : State) (f : Nat) : Option ErrRec :=
  match s.err.queue.filter (fun r => decide (r.field = f)) with
  | [] => none
  | r :: l => some ((l.filter (fun x => decide (x.time = r.time))).foldl (fun b x => if x.unit < b.unit then x else b) r)

/-- ERROR_RECORD_LOG (R403, R405, R406, R420): the oldest record of field f on its way is logged; field 63 stands for the
hub and the service controller, which have no field log. A record of severity P or F is attributed to its pond and
faults its partition. -/
def errorRecordLog (f : Nat) (s : State) : State :=
  match s.nextRec f with
  | none => s
  | some r =>
    let s : State := { s with err := { s.err with queue := s.err.queue.erase r } }
    let s := if 48 ≤ f then s.toModuleLog r
      else if s.supervised f then s.fieldLog f r
      else s.toModuleLog { r with
        flags := r.flags + 8
        seq := 0 }
    if sevOf r.kind < 2 then s
    else
      let s := if f < 48 ∧ r.pond < 288 then s.attribute (288 * f + r.pond) else s
      if r.part < 64 then s.faultPart r.part r else s

/-- MODULE_LOG_APPEND (R404): the records that wait are written to flash. -/
def moduleLogAppend (s : State) : State :=
  s.err.mlogWait.foldl (fun s r =>
    let n := s.rd .hub Reg.svcMlogStatWritten
    let l := s.err.mlog
    let s := (s.wr .hub Reg.svcMlogStatWritten (n + 1)).sat .hub Reg.svcMlogStatLost (if l.length < 65536 then 0 else 1)
    { s with err := { s.err with mlog := (r :: l).take 65536 } }) { s with err := { s.err with mlogWait := [] } }

/-! Supervisors (R17). -/

/-- The field paired with f. -/
def pairOf (f : Nat) : Nat := 8 * (f / 8) + ((f % 8) ^^^ 1)

/-- R17: compute stops in a field that no supervisor serves: every partition with a pond there is faulted. -/
def State.unsupervise (s : State) (f : Nat) : State :=
  (s.parts.map (fun e => e.1)).foldl (fun s n =>
    if (s.pondsOf n).any (fun g => decide (fieldOf g = f)) then s.faultWith n f s.now 1 (s.committed n) else s) s

/-- SUPERVISOR_FAIL (R17): the pair adopts the field, or, when it has failed too, compute stops in both. DESIGN CHOICE (log entry
37): the second failure of a pair forms no error record, for no supervisor is left to form it, and the fault of a partition with
ponds in both fields names the field that failed last. -/
def supervisorFail (f : Nat) (s : State) : State :=
  if !s.supvWorks f then s
  else
    let q := pairOf f
    let s : State := { s with err := { s.err with supvFailed := f :: s.err.supvFailed } }
    let s := s.overField f 0
    if s.supvWorks q then
      ((s.wr (.fld q) Reg.fldSupvAdopting 1).wr (.fld f) Reg.fldSupvAdopted 1).recStrip q 36 0x19 0 0xFF f
    else (s.unsupervise f).unsupervise q

end Sys2Proof.Machine
end

