-- ==== Sys2Proof/Machine/Optical.lean ====
section
/-! DEFINITION. Optical ports and the fabric (R265–R286, R292). -/

namespace Sys2Proof.Machine

/-! Ports, deal indices, cabling (R265, R279–R281). -/

/-- The optical engine of port p. -/
def portUnit (p : Nat) : UnitId := .opt (p / 4)
/-- A field of port p's block. -/
def State.prd (s : State) (p : Nat) (f : Fld) : Nat := s.rdi (portUnit p) f (p % 4)
/-- Set a field of port p's block. -/
def State.pwr_ (s : State) (p : Nat) (f : Fld) (v : Nat) : State := s.wri (portUnit p) f (p % 4) v
/-- Read a port. -/
def State.port (s : State) (p : Nat) : PortSt := s.ports.get p PortSt.init
/-- Write a port. -/
def State.setPort (s : State) (p : Nat) (x : PortSt) : State := { s with ports := s.ports.set p PortSt.init x }

/-- R265: the port is in the enabled set. -/
def State.inPortSet (s : State) (p : Nat) : Bool := decide (s.rd (portUnit p) Reg.optSysFab192 = 1) || decide (p % 4 < 2)
/-- R265, R279: the port is a spare: its number, none for an active port. -/
def State.spareNo (s : State) (p : Nat) : Option Nat :=
  if p = 61 then (if s.rd (portUnit p) Reg.optSysPromoted = 1 then none else some 0)
  else if p = 125 then some 1 else if p = 189 then some 2 else none
/-- R22, R292: the port can be used. -/
def State.portThere (s : State) (p : Nat) : Bool := s.inPortSet p && !(s.fieldW (p / 4)).testBit (40 + p % 4)
/-- R265: the deal index of an active port. -/
def State.dealOf (s : State) (p : Nat) : Nat :=
  ((List.range p).filter (fun q => s.inPortSet q && (s.spareNo q).isNone)).length
/-- R279: the active count A. -/
def activeCount (fab : Bool) (n : Nat) : Nat := (if fab then 189 else 93) + n % 2
/-- R280: rank and deal index that deal index `i` of rank r is cabled to; `a` ports are active, n > 1 modules. -/
def dealPeer (a n r i : Nat) : Nat × Nat :=
  let len := n - 1
  let q := i / len
  let k := i % len
  let rem := a % len
  let lone := decide (k = n - 2) || (decide (q = a / len) && decide (k + 1 = rem) && decide (k % 2 = 0))
  let o := k / 2 + 1
  if n % 2 = 0 ∧ lone = true then ((r + n / 2) % n, i)
  else if k % 2 = 0 then ((r + o) % n, i + 1)
  else ((r + n - o % n) % n, i - 1)
/-- R281: the rank that spare j of rank r is cabled to; none where the formula gives r. -/
def sparePeer (n r j : Nat) : Option Nat :=
  let b := (2 * j + 1 + n * 64 - r) % n
  if b = r then none else some b
/-- The rank and deal index a port must find at its far end; a spare finds a spare (index 0xFF). -/
def State.cabled (s : State) (p : Nat) : Option (Nat × Nat) :=
  match s.spareNo p with
  | some j => (sparePeer s.ranks s.rank j).map (fun b => (b, 0xFF))
  | none => some (dealPeer (s.rd (portUnit p) Reg.optSysActive) s.ranks s.rank (s.dealOf p))

/-- A port is up. -/
def State.portUp (s : State) (p : Nat) : Bool :=
  let st := s.prd p Reg.optPstatState
  decide (st = 3) || decide (st = 4)

/-! The egress table (R282, R285). -/

/-- Working ports to rank b in ascending deal index. -/
def State.portsTo (s : State) (b : Nat) : List Nat :=
  let l := (List.range 192).filter (fun p => s.portUp p && decide (s.prd p Reg.optPeerValid = 1)
    && decide (s.prd p Reg.optPeerPeerRank = b) && decide (s.prd p Reg.optPeerDeal ≠ 0xFF))
  l.mergeSort (fun p q => decide (s.prd p Reg.optPeerDeal ≤ s.prd q Reg.optPeerDeal))

/-- R285: the relay for rank b: the lowest rank, other than both, with working ports to each, plus 1; 0 for none. -/
def State.relayTo (s : State) (direct : Nat → List Nat) (b : Nat) : Nat :=
  match (List.range s.ranks).find? (fun t => decide (t ≠ b) && decide (t ≠ s.rank) && !(direct t).isEmpty
      && s.ring.maps.contains (t, b)) with
  | some t => t + 1
  | none => 0

/-- R283 step 3, R285, R286: the egress table formed from the ports, and the map published; an event for each rank that becomes
unreachable. -/
def State.formEgress (s : State) : State :=
  let rs := (List.range s.ranks).filter (fun b => decide (b ≠ s.rank))
  let was (b : Nat) : Bool := decide (s.net.egress.get b [] ≠ []) || decide (s.net.relay.get b 0 ≠ 0)
  let egress := rs.foldl (fun (t : Tab (List Nat)) b => t.set b [] (s.portsTo b)) []
  let relay := rs.foldl (fun (t : Tab Nat) b => t.set b 0 (s.relayTo (fun x => egress.get x []) b)) []
  let lost := rs.filter (fun b => was b && decide (egress.get b [] = []) && decide (relay.get b 0 = 0))
  let s : State := { s with
    net := { s.net with
      egress := egress
      relay := relay }
    ring := { s.ring with links := rs.filter (fun b => decide (egress.get b [] ≠ [])) } }
  lost.foldl (fun s b => s.postEvent 0x16 0 b 0 0xFF) s

/-- R283 steps 1–4 for a port that joins: the table with it is in force. -/
def State.joinEgress (s : State) : State := s.formEgress

/-! Going down (R283). -/

/-- R283 step 1: a port that carried traffic begins to leave: the ports stop taking new packets for its peer. -/
def State.holdPeer (s : State) (p : Nat) : State :=
  let b := s.prd p Reg.optPeerPeerRank
  if (s.net.egress.get b []).contains p then
    let s := s.setPort p { s.port p with leaving := true }
    if s.net.egressHold.contains b then s else { s with net := { s.net with egressHold := b :: s.net.egressHold } }
  else s

/-- A port leaves service for state `st` (0 dark, 1 locking, 5 down, 7 standing by); a spare gives its deal index up (R284). -/
def State.leavePort (s : State) (p st : Nat) : State :=
  let s := ((s.holdPeer p).pwr_ p Reg.optPstatState st).pwr_ p Reg.optPstatLanes 0
  if (s.spareNo p).isSome then (s.pwr_ p Reg.optPstatSubst 0).pwr_ p Reg.optPeerDeal 0xFF else s

/-- R268, R270, R272: port p goes down. -/
def State.portFails (s : State) (p : Nat) : State :=
  let s := s.leavePort p 5
  s.pwr_ p Reg.optPstatFails (Min.min (s.prd p Reg.optPstatFails + 1) 255)

/-- R283 step 2: the packets of a port: those of frames not acknowledged, then those waiting. -/
def State.portPackets (s : State) (p : Nat) : List Packet :=
  (s.port p).replay.flatMap (fun e => e.2) ++ (s.net.flights.filter (fun x => decide (x.place = .port p))).map (fun x => x.pkt)

/-- R283, R427: the change of the egress table that takes port p out is not over. -/
def State.portLeaving (s : State) (p : Nat) : Bool := (s.port p).leaving

/-- R270: port p may train: enabled, not held down, the fabric up, and no change that takes it out under way. -/
def State.mayTrain (s : State) (p : Nat) : Bool :=
  s.portThere p && decide (s.prd p Reg.optPctrlEn = 1) && decide (s.prd p Reg.optPctrlHoldDown = 0) && decide (1 < s.ranks)
    && decide (s.rd .hub Reg.svcPwrStatState = 3 ∨ s.rd .hub Reg.svcPwrStatState = 4) && !s.portLeaving p

/-- R281: a dark spare that may train stands by. -/
def State.standBy (s : State) (p : Nat) : State :=
  if (s.spareNo p).isSome ∧ s.prd p Reg.optPstatState = 0 ∧ s.mayTrain p = true then s.pwr_ p Reg.optPstatState 7 else s

/-- R283: port p has left: nothing of it waits, and packets for its peer flow again. -/
def State.closePort (s : State) (p : Nat) : State :=
  let s := s.setPort p { s.port p with
    replay := []
    bad := 0
    again := 0
    nak := false
    leaving := false }
  { s with net := { s.net with
    flights := s.net.flights.filter (fun x => decide (x.place ≠ .port p))
    egressHold := s.net.egressHold.filter (fun x => decide (x ≠ s.prd p Reg.optPeerPeerRank)) } }

/-- R427: an enable latched while port p went dark acts. -/
def State.latchedEnable (s : State) (p : Nat) : State :=
  let x := s.port p
  if (s.rd (portUnit p) Reg.optPspeSpe).testBit (p % 4) then
    let s := s.clrBiti (portUnit p) Reg.optPspeSpe 0 (p % 4)
    let s := if x.wantEn then s.pwr_ p Reg.optPctrlEn 1 else s
    let s := if x.wantFree then s.pwr_ p Reg.optPctrlHoldDown 0 else s
    (s.setPort p { x with
      wantEn := false
      wantFree := false }).standBy p
  else s

/-- PORT_DOWN (R283): the packets of port p, and of every other port that has gone down since, leave by the ports of the new
choice; the new table is in force, and packets for the peers flow again. -/
def portDown (p : Nat) (s : State) : State :=
  if !s.portLeaving p then s
  else
    let l := (List.range numPorts).filter s.portLeaving
    let ps := l.flatMap (fun q => (s.portPackets q).map (fun y => (q / 4, y)))
    let s := l.foldl State.closePort s.formEgress
    let s := ps.foldl (fun s y => s.resend y.1 y.2) s
    l.foldl State.latchedEnable s

/-! Frames (R267, R268). -/

/-- R267: the 632 bytes that the CRC of a frame covers: its header and its slots, as a number. -/
def frameBody (seq ack kind : Nat) (ps : List Packet) : Nat :=
  seq % 2 ^ 16 + ack % 2 ^ 16 * 2 ^ 16 + kind % 2 ^ 4 * 2 ^ 32 + (2 ^ ps.length - 1) % 2 ^ 13 * 2 ^ 36
    + ps.foldr (fun q a => q.header.toNat + q.payload.toNat * 2 ^ 128 + a * 2 ^ 384) 0 * 2 ^ 64

/-- R267: a frame with the packets `ps` (at most 13) in its first slots. -/
def frameOf (seq ack kind : Nat) (ps : List Packet) : BitVec 5140 :=
  let b := frameBody seq ack kind ps
  BitVec.ofNat 5140 (b + crc32 (leBytes 632 b) * 2 ^ (8 * 632))

/-- R267: SEQ, ACK, KIND and the packets of the valid slots. -/
def Frame.seq (f : Frame) : Nat := f.bits.toNat % 2 ^ 16
/-- ACK. -/
def Frame.ack (f : Frame) : Nat := f.bits.toNat / 2 ^ 16 % 2 ^ 16
/-- KIND. -/
def Frame.kind (f : Frame) : Nat := f.bits.toNat / 2 ^ 32 % 2 ^ 4
/-- The packets of the slots that VALID marks, from slot 0 on. -/
def Frame.pkts (f : Frame) : List Packet :=
  (List.range 13).filterMap (fun i => if f.bits.getLsbD (36 + i) then
    some ⟨f.bits.extractLsb' (64 + 384 * i) 128, f.bits.extractLsb' (192 + 384 * i) 256⟩ else none)
/-- R267, R268: FEC decoding and the CRC pass. -/
def Frame.good (f : Frame) : Bool :=
  f.fec && decide (crc32 (leBytes 632 f.bits.toNat) = f.bits.toNat / 2 ^ (8 * 632) % 2 ^ 32)

/-- R268: frames whose SEQ lies before `ack` are acknowledged. -/
def PortSt.acked (x : PortSt) (ack : Nat) : PortSt :=
  let keep := x.replay.filter (fun e => decide (2048 ≤ (ack + 2 ^ 16 - 1 - e.1) % 2 ^ 16))
  { x with
    replay := keep
    bad := if keep.length = x.replay.length then x.bad else 0
    again := Min.min x.again keep.length }

/-- R242, R251, R285: a packet that a frame brings to field f by port k: it enters the crossbar, its escape path beginning
anew, or is relayed. -/
def State.arriveFabric (s : State) (p : Nat) (q : Packet) : State :=
  let f := p / 4
  let enter (q : Packet) (s : State) : State :=
    { s with net := { s.net with flights := s.net.flights ++ [(⟨q, .strip f, 0, 0⟩ : Flight)] } }
  let fresh := if q.down then q.put 110 1 0 else q
  if dRank q.dest = s.rank then enter fresh s
  else
    match s.directEgress q.src q.dest with
    | some e => enter (fresh.put 112 8 e) (s.count (portUnit p) Reg.optRelayed Reg.optWrapRwrap 0 1)
    | none =>
      if 8 ≤ q.typ then s
      else if q.typ = 5 then s.recStrip f (32 + p % 4) 0x11 9 0xFF (q.tag + 2 ^ 11)
      else s.respond (srcStrip s.rank f (32 + p % 4)) q.src 0xA 0 q.tag q.ordered (nackPayload 14 q.dest)

/-- R267, R268: a frame leaves port p: a NAK that is owed; else the next frame to be resent; else up to 13 of the oldest
packets that wait at the port; else an idle frame. A NAK and an idle frame show the next SEQ and do not take it. -/
def State.sendFrame (s : State) (p : Nat) : State :=
  let x := s.port p
  let s := s.counti (portUnit p) Reg.optTxFrames (p % 4) Reg.optWrapPwrap 0 (4 * (p % 4)) 1
  let l := (s.net.flights.zipIdx.filter (fun e => decide (e.1.place = .port p))).take 13
  if x.nak then s.setPort p { x with
    nak := false
    last := frameOf x.tx x.rx 2 [] }
  else
    match if x.again = 0 then none else x.replay[x.replay.length - x.again]? with
    | some e =>
      (s.setPort p { x with
        again := x.again - 1
        last := frameOf e.1 x.rx 0 e.2 }).counti (portUnit p) Reg.optReplay (p % 4) Reg.optWrapPwrap 0 (4 * (p % 4) + 3) 1
    | none =>
      if l.isEmpty || decide (2048 ≤ x.replay.length) then s.setPort p { x with last := frameOf x.tx x.rx 1 [] }
      else
        let s : State := { s with net := { s.net with
          flights := (s.net.flights.zipIdx.filter (fun e => !l.any (fun y => decide (y.2 = e.2)))).map (fun e => e.1) } }
        s.setPort p { x with
          tx := (x.tx + 1) % 2 ^ 16
          replay := x.replay ++ [(x.tx, l.map (fun e => e.1.pkt))]
          last := frameOf x.tx x.rx 0 (l.map (fun e => e.1.pkt)) }

/-- R268: the peer expects SEQ `seq`: every frame from it on is to be resent; the frame at the head that fails 16 times in a row
brings the port down. -/
def State.takeNak (s : State) (p seq : Nat) : State :=
  let x := s.port p
  let head := decide ((x.replay.head?.map (fun e => e.1)) = some seq)
  let y := x.acked seq
  let bad := if y.replay.isEmpty then 0 else if head then x.bad + 1 else 1
  let s := s.setPort p { y with
    bad := bad
    again := y.replay.length }
  if 16 ≤ bad then s.portFails p else s

/-- R267, R268: a frame arrives. A bad frame is discarded and owes the peer a NAK; a data frame out of sequence is not accepted. -/
def State.takeFrame (s : State) (p : Nat) (f : Frame) (corrected : Nat) : State :=
  let u := portUnit p
  let k := p % 4
  let s := s.counti u Reg.optFecCorr k Reg.optWrapPwrap 0 (4 * k + 2) corrected
  if !f.good then (s.sati u Reg.optFrameErr k 1).setPort p { s.port p with nak := true }
  else
    let s := s.counti u Reg.optRxFrames k Reg.optWrapPwrap 0 (4 * k + 1) 1
    if f.kind = 2 then s.takeNak p f.ack
    else
      let x := (s.port p).acked f.ack
      if f.kind ≠ 0 ∨ f.seq ≠ x.rx then s.setPort p x
      else f.pkts.foldl (fun s q => s.arriveFabric p q) (s.setPort p { x with rx := (x.rx + 1) % 2 ^ 16 })

/-- DATA_FRAME (R267, R268, R285). -/
def dataFrame (p : Nat) (e : FrameEv) (s : State) : State :=
  if !s.portUp p then s
  else
    match e with
    | .sent => s.sendFrame p
    | .received f n => s.takeFrame p f n

/-- NAK (R268): a good NAK frame that carries SEQ `seq` arrives. -/
def nakFrame (p seq : Nat) (s : State) : State :=
  if !s.portUp p then s
  else (s.counti (portUnit p) Reg.optRxFrames (p % 4) Reg.optWrapPwrap 0 (4 * (p % 4) + 1) 1).takeNak p seq

/-! Training and width (R270–R273). -/

/-- R272: the width that a set of good lanes gives; 0 below 4. -/
def widthOf (n : Nat) : Nat := if 16 ≤ n then 16 else if 12 ≤ n then 12 else if 8 ≤ n then 8 else if 4 ≤ n then 4 else 0

/-- R272: the record and the event of a degraded port. -/
def State.degraded (s : State) (p w : Nat) : State :=
  (s.recStrip (p / 4) (32 + p % 4) 0x13 0 0xFF w).postEvent 0x13 0 p (4 + w * 8) 0xFF

/-- R272, R273: the port comes up at the width that its good lanes, none of a wavelength flagged low, give, or goes down. -/
def State.agreeWidth (s : State) (p ok : Nat) : State :=
  let lanes := ok - (ok &&& s.rd (portUnit p) Reg.optLaserLow)
  let w := widthOf (bitCount 16 lanes)
  let s := s.pwr_ p Reg.optPstatLaneOk lanes
  if w = 0 then s.portFails p
  else
    let s := (s.pwr_ p Reg.optPstatLanes w).pwr_ p Reg.optPstatState (if w = 16 then 3 else 4)
    if w = 16 then s else s.degraded p w

/-- R284: the spare that stands in for deal index `i`, if any. -/
def State.standIn (s : State) (i : Nat) : Option Nat :=
  [61, 125, 189].find? (fun q => decide (s.prd q Reg.optPstatSubst = 1) && decide (s.prd q Reg.optPeerDeal = i))

/-- R284: a spare goes dark again; what it carried goes on by the other ports. -/
def State.darkenSpare (s : State) (q : Nat) : State := portDown q (s.leavePort q 7)

/-- R271: port p goes to MISCABLED. -/
def State.miscabled (s : State) (p : Nat) (x : Ident) : State :=
  (s.pwr_ p Reg.optPstatState 6).recStrip (p / 4) (32 + p % 4) 0x12 0 0xFF (x.rank % 64 + x.deal % 256 * 2 ^ 8)

/-- R271: what the far end of port p sends of itself is what must be there. -/
def State.rightPeer (s : State) (p : Nat) (x : Ident) : Bool :=
  decide (x.size = s.ranks) && decide (x.fab = decide (s.rd (portUnit p) Reg.optSysFab192 = 1))
    && decide (s.cabled p = some (x.rank, x.deal))

/-- Show the far end of port p. -/
def State.showPeer (s : State) (p rank deal : Nat) : State :=
  ((s.pwr_ p Reg.optPeerPeerRank rank).pwr_ p Reg.optPeerPeerDeal deal).pwr_ p Reg.optPeerValid 1

/-- A port that trained to a width is in service: its frames begin anew. -/
def State.enterService (s : State) (p : Nat) : State := s.setPort p { PortSt.init with was := true }

/-- R270, R274: the supply of port p shines, the wavelengths `low` below +14 dBm. -/
def State.supplyLight (s : State) (p low : Nat) : State :=
  (List.range 4).foldl (fun s n => (s.wr (.opt (p / 16 * 4 + n)) Reg.optLaserPresent 1).wr (.opt (p / 16 * 4 + n)) Reg.optLaserLow low) s

/-- R270: port p locks; the far end is unknown until step 3. -/
def State.startTraining (s : State) (p : Nat) : State := (s.pwr_ p Reg.optPeerValid 0).pwr_ p Reg.optPstatState 1

/-- PORT_TRAINING (R270–R272): spares are lit by SPARE_LIGHT only. -/
def portTraining (p : Nat) (e : TrainEv) (s : State) : State :=
  let st := s.prd p Reg.optPstatState
  if !s.mayTrain p then s
  else
    match e with
    | .light low =>
      let s := s.supplyLight p low.toNat
      if st = 0 ∧ s.spareNo p = none then s.startTraining p else s
    | .locked => if st = 1 ∧ s.rd (portUnit p) Reg.optLaserPresent = 1 then s.pwr_ p Reg.optPstatState 2 else s
    | .silent => if st = 2 then s.portFails p else s
    | .identity x =>
      if st ≠ 2 then s
      else if s.rightPeer p x then s.showPeer p x.rank x.deal
      else s.miscabled p x
    | .lanes ok =>
      if st ≠ 2 ∨ s.prd p Reg.optPeerValid = 0 then s
      else
        let s := s.agreeWidth p ok.toNat
        if !s.portUp p then s
        else
          let i := s.dealOf p
          let s := (s.enterService p).pwr_ p Reg.optPeerDeal i
          match s.standIn i with
          | some q => (s.darkenSpare q).joinEgress
          | none => s.joinEgress

/-- R270, R281: port p trains again; a spare stands by. -/
def State.trainAgain (s : State) (p : Nat) : State :=
  if (s.spareNo p).isSome then s.pwr_ p Reg.optPstatState 7 else s.startTraining p

/-- TRAINING_RETRY (R270): a down port tries again, unless it has come up and this is past its third failure. -/
def trainingRetry (p : Nat) (s : State) : State :=
  if s.prd p Reg.optPstatState ≠ 5 ∨ !s.mayTrain p then s
  else if (s.port p).was ∧ 3 ≤ s.prd p Reg.optPstatFails then s
  else if s.rd (portUnit p) Reg.optLaserPresent = 1 then s.trainAgain p
  else s

/-- R273: lanes leave a port in service: it steps down to the next width. -/
def State.dropLanes (s : State) (p lost : Nat) : State :=
  if !s.portUp p then s
  else
    let ok := s.prd p Reg.optPstatLaneOk
    let ok' := ok - (ok &&& lost)
    let w := Min.min (widthOf (bitCount 16 ok')) (s.prd p Reg.optPstatLanes)
    let s := s.pwr_ p Reg.optPstatLaneOk ok'
    if w = 0 then s.portFails p
    else if w = s.prd p Reg.optPstatLanes then s
    else ((s.pwr_ p Reg.optPstatLanes w).pwr_ p Reg.optPstatState 4).degraded p w

/-- LANE_DROP (R273). -/
def laneDrop (p : Nat) (lost : BitVec 16) (s : State) : State := s.dropLanes p lost.toNat

/-! Laser supply (R274–R276). -/

/-- LASER_LOW (R276): wavelength j of supply i falls below +14 dBm. -/
def laserLow (i j : Nat) (s : State) : State :=
  let s := (List.range 4).foldl (fun s n => s.setBiti (.opt (4 * i + n)) Reg.optLaserLow 0 j) s
  (List.range 16).foldl (fun s n => s.dropLanes (16 * i + n) (2 ^ j)) s

/-- LASER_LOST (R276): supply i has been dark for 10 µs. -/
def laserLost (i : Nat) (s : State) : State :=
  let s := (List.range 4).foldl (fun s n =>
    (s.wr (.opt (4 * i + n)) Reg.optLaserPresent 0).wr (.opt (4 * i + n)) Reg.optLaserLost 1) s
  let s := (List.range 16).foldl (fun s n =>
    let st := s.prd (16 * i + n) Reg.optPstatState
    if 1 ≤ st ∧ st ≤ 4 then s.portFails (16 * i + n) else s) s
  s.postEvent 0x14 0 i 0 0xFF

/-! Spares and control (R270, R284, R292, R427). -/

/-- R283, R284: active port p is down: it failed, or it was kept dark after it had come up. -/
def State.portIsDown (s : State) (p : Nat) : Bool :=
  let st := s.prd p Reg.optPstatState
  (s.spareNo p).isNone && !s.portLeaving p && (decide (st = 5) || (decide (st = 0) && (s.port p).was))

/-- R284: the lowest-numbered dark spare cabled to rank b. -/
def State.spareTo (s : State) (b : Nat) : Option Nat :=
  [61, 125, 189].find? (fun q => match s.spareNo q with
    | some j => decide (sparePeer s.ranks s.rank j = some b) && decide (s.prd q Reg.optPstatState = 7) && s.mayTrain q
    | none => false)

/-- SPARE_LIGHT (R270–R272, R284): active port p is down and no spare has its deal index: the lowest-numbered dark spare cabled
to its peer is lit, finds `peer` at its far end (none: silence), trains with the lanes `ok`, and takes the index. -/
def spareLight (p : Nat) (peer : Option Ident) (ok : BitVec 16) (s : State) : State :=
  match s.cabled p with
  | none => s
  | some (b, far) =>
    let i := s.dealOf p
    if !s.portIsDown p ∨ (s.standIn i).isSome then s
    else
      match s.spareTo b, peer with
      | none, _ => s
      | some q, none => if s.rd (portUnit q) Reg.optLaserPresent = 1 then s.portFails q else s
      | some q, some x =>
        if s.rd (portUnit q) Reg.optLaserPresent = 0 then s
        else if !s.rightPeer q x then s.miscabled q x
        else
          let s := s.agreeWidth q ok.toNat
          if !s.portUp q then s
          else (((s.showPeer q b far).pwr_ q Reg.optPstatSubst 1).pwr_ q Reg.optPeerDeal i |>.enterService q).joinEgress

/-- RETRAIN (R270, R281): the port trains again at once; a spare goes dark and stands by. -/
def retrain (p : Nat) (s : State) : State :=
  if !s.portThere p ∨ s.prd p Reg.optPctrlEn = 0 ∨ s.prd p Reg.optPctrlHoldDown = 1 ∨ s.ranks ≤ 1 then s
  else (s.leavePort p 1).trainAgain p

/-- R427: an enable while the port goes dark is latched; a disable cancels the latch. `en`: EN is written, else HOLD_DOWN. -/
def State.portGate (s : State) (p : Nat) (en : Bool) (v : Nat) (dark : Bool) : State :=
  let u := portUnit p
  let k := p % 4
  let s' := s.pwr_ p (if en then Reg.optPctrlEn else Reg.optPctrlHoldDown) v
  if !s.portThere p then s
  else if dark then
    let s := (s'.clrBiti u Reg.optPspeSpe 0 k).setPort p { s.port p with
      wantEn := false
      wantFree := false }
    s.leavePort p 0
  else if s.portLeaving p ∧ s.prd p Reg.optPstatState = 0 then
    (s.setBiti u Reg.optPspeSpe 0 k).setPort p { s.port p with
      wantEn := (s.port p).wantEn || en
      wantFree := (s.port p).wantFree || !en }
  else s'.standBy p

/-- HOLD_DOWN (R283): the port is kept dark, or released. -/
def holdDown (p : Nat) (v : Bool) (s : State) : State := s.portGate p false v.toNat v
/-- PORT_EN (R292). -/
def portEn (p : Nat) (v : Bool) (s : State) : State := s.portGate p true v.toNat (!v)

end Sys2Proof.Machine
end

