-- ==== Sys2Proof/Machine/Clocks.lean ====
section
/-! DEFINITION. Clocks and global time: the module clock, the beat, the lake sequencers, sleep and wake (chapter 13). -/

namespace Sys2Proof.Machine

/-! The module clock (R332–R338). -/

/-- R334: SVC_CLK_STAT.TRIM_SRC. -/
def State.trimSource (s : State) : State :=
  s.wr .hub Reg.svcClkStatTrimSrc
    (if s.flag .hub Reg.svcClkStatRefinOk then 1
     else if s.flag .hub Reg.svcRingStatAligned && !s.flag .hub Reg.svcRingStatMaster then 2 else 0)

/-- R336 step 4, R338: the module clock switches to REFIN once the oscillator is phase-locked to it and the switch is
wanted. -/
def State.toRefin (s : State) : State :=
  let r := s.ref
  if r.wanted && r.locked && s.flag .hub Reg.svcClkStatRefinOk && s.flag .hub Reg.svcClkStatSource then
    let s := (s.wr .hub Reg.svcClkStatSource 0).wr .hub Reg.svcClkStatReturnPending 0
    let s := if r.was then s.sat .hub Reg.svcClkSwitchesToRef 1 else s
    { s with ref := { r with wanted := false, was := true } }
  else s

/-- REFIN_WINDOW (R333, R335): a 10 µs window of the monitor ends with `edges` REFIN edges and perhaps a missing edge. -/
def refinWindow (edges : Nat) (missing : Bool) (s : State) : State :=
  let r := s.ref
  let trimmed := s.flag .hub Reg.svcClkStatTrimmed
  let within : Bool := if trimmed then decide (990 ≤ edges ∧ edges ≤ 1010) else decide (960 ≤ edges ∧ edges ≤ 1040)
  let good := within && !missing
  let windows := if good then Min.min (r.windows + 1) 100 else 0
  let ok : Bool := decide (windows = 100) || (good && s.flag .hub Reg.svcClkStatRefinOk)
  let held := if ok then Min.min (r.held + 1) 100000 else 0
  let onRef := !s.flag .hub Reg.svcClkStatSource
  let devs := (((edges : Int) - 1000) :: r.devs).take 100
  let ran := if s.rd .hub Reg.svcClkStatTrimSrc = 0 then 0 else 1
  let s : State := { s with ref := { r with
    devs := devs
    windows := windows
    held := held
    fail := if onRef then r.fail ||| (missing.toNat + 2 * (!within).toNat) else 0
    locked := r.locked && ok
    trimmed := r.trimmed + ran } }
  let s := s.wr .hub Reg.svcClkStatRefinOk ok.toNat
  let s := s.wr .hub Reg.svcClkStatReturnPending (decide (held = 100000) && !onRef && r.was).toNat
  let s := s.wr .hub Reg.svcOscTrimRefDev ((devs.sum) % 65536).toNat
  s.trimSource

/-- CLOCK_FAIL (R337): while the module clock is REFIN, a missing edge seen now or what the last window showed wrong
switches it to the oscillator. -/
def clockFail (missing : Bool) (s : State) : State :=
  let why := s.ref.fail ||| missing.toNat
  if s.flag .hub Reg.svcClkStatSource || decide (why = 0) then s
  else
    let s := ((s.wr .hub Reg.svcClkStatSource 1).wr .hub Reg.svcClkStatLastFail why).sat .hub Reg.svcClkSwitchesToOsc 1
    let s := (s.wr .hub Reg.svcClkStatRefinOk 0).wr .hub Reg.svcClkStatReturnPending 0
    let s : State := { s with ref := { s.ref with windows := 0, held := 0, fail := 0, locked := false, wanted := false } }
    s.trimSource.postEvent 1 0 0 why 0xFF

/-- RETURN (R338): a write of RETURN when a return is possible. -/
def returnWrite (s : State) : State :=
  if s.flag .hub Reg.svcClkStatReturnPending then
    ({ s with ref := { s.ref with wanted := true } } : State).toRefin
  else s

/-- AUTO_RETURN (R338): with AUTO_RETURN set, the return starts once REFIN has been qualified for 1 s. -/
def autoReturn (s : State) : State :=
  if s.flag .hub Reg.svcClkCtrlAutoReturn && s.flag .hub Reg.svcClkStatReturnPending then
    ({ s with ref := { s.ref with wanted := true } } : State).toRefin
  else s

/-- OSCILLATOR_PHASE_LOCKED (R336): the oscillator is phase-locked to a qualified REFIN with the trim `ppm` applied; a
switch that waits for it follows. -/
def oscillatorLocked (ppm : BitVec 16) (s : State) : State :=
  if s.flag .hub Reg.svcClkStatRefinOk then
    let s := (s.wr .hub Reg.svcClkStatTrimmed 1).wr .hub Reg.svcOscTrimTrim ppm.toNat
    ({ s with ref := { s.ref with locked := true } } : State).toRefin
  else s

/-- TRIM_STORE (R333): after 24 hours of trimmed running the trim is written to flash. -/
def trimStore (s : State) : State :=
  if s.ref.trimmed < 8640000000 then s
  else { s with ref := { s.ref with
    trimmed := s.ref.trimmed - 8640000000
    stored := s.rd .hub Reg.svcOscTrimTrim } }

/-! Lakes (R339–R348). -/

/-- R339: the nominal rail voltage of a ratio, mV. -/
def nominalMv (n : Nat) : Nat :=
  [550, 567, 583, 600, 617, 633, 650, 667, 683, 700, 717, 733, 750, 775, 800, 825, 850].getD (n - 4) 550

/-- A field of at most 8 bits read as signed. -/
def signed8 (v : Nat) : Int := if v < 128 then (v : Int) else (v : Int) - 256

/-- R339: the commanded voltage of lake w at a ratio: nominal plus OFFSET, at most 0.90 V. -/
def State.mv (s : State) (w n : Nat) : Nat :=
  Min.min 900 (((nominalMv n : Nat) : Int) + signed8 (s.rd (.lake w) Reg.lakeVfOffset)).toNat

/-- Read a lake sequencer. -/
def State.lake (s : State) (w : Nat) : LakeSt := s.lakes.get w LakeSt.init
/-- Write a lake sequencer. -/
def State.setLake (s : State) (w : Nat) (x : LakeSt) : State := { s with lakes := s.lakes.set w LakeSt.init x }
/-- Change a lake sequencer. -/
def State.modLake (s : State) (w : Nat) (f : LakeSt → LakeSt) : State := s.setLake w (f (s.lake w))

/-- LAKE_CLK_STAT.STATE (R347). -/
def State.lakeState (s : State) (w : Nat) : Nat := s.rd (.lake w) Reg.lakeClkStatState
/-- The ratio in force. -/
def State.ratio (s : State) (w : Nat) : Nat := s.rd (.lake w) Reg.lakeClkStatN

/-- The least of ceiling, grant and thermal limit. -/
def State.limit3 (s : State) (w : Nat) : Nat :=
  let u := UnitId.lake w
  Min.min (s.rd u Reg.lakeClkLimitCeiling) (Min.min (s.rd u Reg.lakeClkLimitGrant) (s.rd u Reg.lakeClkLimitTherm))

/-- R17, R342: the floor is in force in the lake: a regulator alert, or a field that no supervisor serves. -/
def State.floored (s : State) (w : Nat) : Bool := s.flag (.lake w) Reg.lakeClkStatAlert || !s.supervised (w / 12)

/-- R346: the target without droop. -/
def State.baseTarget (s : State) (w : Nat) : Nat := if s.floored w then 4 else s.limit3 w

/-- R342: the target. -/
def State.targetOf (s : State) (w : Nat) : Nat :=
  if s.floored w then 4
  else if s.flag (.lake w) Reg.lakeClkStatDroop then Max.max 4 (s.limit3 w - 2) else s.limit3 w

/-- R11: the wafer ponds of lake w. -/
def lakePonds (w : Nat) : List Nat :=
  (List.range 24).map (fun k => 288 * (w / 12) + 16 * (6 * (w % 12 / 4) + k / 4) + 4 * (w % 4) + k % 4)

/-- R15, R16, R346: a lake event to the S-core of every pond of the lake, but those of a partition whose presence bit is clear, and
the event posted to the host. -/
def State.lakeEvent (s : State) (w : Nat) : State :=
  if !s.supervised (w / 12) then s
  else
    let gs := (lakePonds w).filter (fun g => match s.partOf g with
      | some n => (s.presence w).testBit n
      | none => true)
    let s := gs.foldl (fun s g => s.raise g 5 5) s
    s.postEvent 0x10 (s.ratio w + 32 * s.rd (.lake w) Reg.lakeThermState) w (s.presence w) 0xFF

/-- R386: requests of a lake for a raise, and with `wake` for a wake too, are withdrawn. -/
def State.withdraw (s : State) (w : Nat) (wake : Bool) : State :=
  { s with pwr := { s.pwr with reqs := s.pwr.reqs.filter (fun r => decide (r.lake ≠ w) || (r.wake && !wake)) } }

/-- R377: lake w asks for the power step to ratio n; a later raise takes the place of the one that waits. -/
def State.askStep (s : State) (w n : Nat) (wake : Bool) : State :=
  let rs := s.pwr.reqs
  if rs.any (fun r => decide (r.lake = w) && r.wake == wake) then
    { s with pwr := { s.pwr with reqs := rs.map (fun r => if r.lake = w ∧ r.wake = wake then { r with n := n } else r) } }
  else { s with pwr := { s.pwr with reqs := rs ++ [(⟨w, n, wake⟩ : SlopeReq)] } }

/-- R344: PENDING: a raise waits for the raise or the lowering in progress. -/
def State.showPending (s : State) (w : Nat) : State :=
  let x := s.lake w
  let n := s.ratio w
  let t := s.rd (.lake w) Reg.lakeClkStatTarget
  let lowering : Bool := decide (x.ann ≠ 0) && decide (x.ann < n)
  s.wr (.lake w) Reg.lakeClkStatPending
    (decide (n < t) && (lowering || (decide (x.raise ≠ 0) && decide (x.raise ≠ t)))).toNat

/-- LOWERING (R345): the new ratio is announced; a raise in progress is abandoned and a waiting one withdrawn. -/
def State.lower (s : State) (w t : Nat) : State :=
  let s := (s.withdraw w false).modLake w (fun x => { x with
    raise := 0
    settling := false
    ann := t
    beats := 0
    annBase := s.baseTarget w
    drawn := t })
  s.wr (.lake w) Reg.lakeClkStatSeq 2

/-- RAISE_START (R344): the regulator is commanded to the new voltage and the settle wait runs. -/
def State.startRaise (s : State) (w t : Nat) : State :=
  let s := (s.withdraw w false).modLake w (fun x => { x with
    raise := t
    settling := true })
  (s.wr (.lake w) Reg.lakeVfVolt (s.mv w t)).wr (.lake w) Reg.lakeClkStatSeq 1

/-- R344, R345, R375, R386: what a running lake does with its target at a beat boundary. -/
def State.follow (s : State) (w : Nat) : State :=
  let x := s.lake w
  let n := s.ratio w
  let t := s.rd (.lake w) Reg.lakeClkStatTarget
  let lowering : Bool := decide (x.ann ≠ 0) && decide (x.ann < n)
  let s := if t < n then (if lowering && decide (x.ann = t) then s else s.lower w t)
    else if lowering || decide (x.raise ≠ 0) then s
    else if n < t then
      (if t ≤ x.drawn then s.startRaise w t else s.askStep w t false)
    else (s.withdraw w false).modLake w (fun x => { x with drawn := n })
  s.showPending w

/-- R348: no work in the lake: no packet at its routers, no busy core, no S-core instruction in progress, no generator with
work, no complete row or item with a deadline running, no Opal test, no sequencer step in progress. -/
def State.lakeIdle (s : State) (w : Nat) : Bool :=
  let here (i : Nat) : Bool := decide (lakeOf (i / 16) = w)
  let ponds := (List.range 288).map (fun p => 288 * (w / 12) + p) |>.filter (fun g => decide (lakeOf g = w))
  let stalled (x : Option SStall) : Bool := match x with
    | some .waits => true
    | some (.tokr _) => true
    | some (.tokw _) => true
    | some .idle => true
    | _ => false
  s.net.flights.all (fun f => match f.place with | .router i _ => !here i | _ => true)
    && s.mcores.all (fun e => !here e.1 || (e.2.drained && (decide (s.gateFill (e.1 / 16) (e.1 % 16) = 0)
        || !s.flag (.tile (e.1 / 16) (e.1 % 16)) Reg.mcoreCtrlRun)))
    && s.vcores.all (fun e => !here e.1 || !e.2.inRow)
    && ponds.all (fun g => !s.flag (.tile g 5) Reg.scoreCtrlRun || s.flag (.tile g 5) Reg.scoreEstatHalted
        || stalled (s.score g).stall)
    && s.gens.all (fun e => !here (e.1 / 4) || !s.flag (.tile (e.1 / 64) (e.1 / 4 % 16)) Reg.auCtrlRun
        || (e.2.run.isEmpty && e.2.queue.isEmpty && e.2.chain.isNone))
    && s.steers.all (fun e => !here (e.1 / 4) || decide (e.2.held.length < s.batchLen (e.1 / 64) (e.1 / 4 % 16) (e.1 % 4)))
    && s.opal.all (fun e => !here e.1 || !e.2.active)
    && decide (s.rd (.lake w) Reg.lakeClkStatSeq = 0)

/-- A lake at a beat boundary (R342–R349). -/
def State.lakeBeat (s : State) (w : Nat) : State :=
  let u := UnitId.lake w
  let st := s.lakeState w
  if st = 4 then s
  else
    let th := s.rd u Reg.lakeThermState
    let s := if th = 1 then s.count u Reg.lakeWarmBeats Reg.lakePwrWrap 0 1
      else if th = 2 then s.count u Reg.lakeHotBeats Reg.lakePwrWrap 1 1 else s
    let s := if st = 1 ∨ st = 2 then s.count u Reg.lakeSleepBeats Reg.lakeClkWrap 3 1 else s
    let s := if s.pwr.reqs.any (fun r => decide (r.lake = w) && r.wake) then s.count u Reg.lakeWakeWait Reg.lakeClkWrap 2 1 else s
    let s := s.wr u Reg.lakeClkStatTarget (s.targetOf w)
    let s := s.modLake w (fun x => { x with
      beats := if x.ann = 0 then 0 else x.beats + 1
      clear := if s.flag u Reg.lakeClkStatDroop then x.clear + 1 else 0
      warm := if st = 1 then x.warm + 1 else 0
      waking := if st = 3 then x.waking + 1 else 0
      idle := if st = 0 ∧ s.lakeIdle w then x.idle + 1 else 0 })
    if st = 0 then s.follow w else s

/-- R288: a ring frame: TIME, DELAY in ps, HOPS, MASTER and TOPO, the message bytes `msgs`, and its CRC. -/
def ringFrameOf (time delay hops master topo msgs : Nat) : BitVec 10000 :=
  let b := 0x5A5AC3C35A5AC3C3 + (time % 2 ^ 64) * 2 ^ 64 + (delay % 2 ^ 32) * 2 ^ 128 + (hops % 2 ^ 8) * 2 ^ 160
    + (master % 2 ^ 8) * 2 ^ 168 + (topo % 2 ^ 16) * 2 ^ 176 + (msgs % 2 ^ 9776) * 2 ^ 192
  BitVec.ofNat 10000 (b + crc32 (leBytes 1246 b) * 2 ^ 9968)

/-- R288, R289: the master whose bypass is open starts a frame in both directions when its time reaches a multiple of 1,000 ns. -/
def State.masterMark (s : State) (old : Nat) : State :=
  if s.flag .hub Reg.svcRingStatMaster && !s.flag .hub Reg.svcRingStatBypass && decide (old / 1000 < s.time / 1000) then
    let x := ringFrameOf (s.time / 1000 * 1000) 0 0 s.rank (s.rd .hub Reg.svcRingStatTopo) 0
    { s with ring := { s.ring with sent := (s.ring.sent.set 0 0 x).set 1 0 x } }
  else s

/-- R350–R352: the hub's beat: T grows by the length of the beat that ends, and the next beat is long or short while E is
beyond ±1 ns and none of the last 49 was. -/
def State.hubBeat (s : State) : State :=
  let c := s.clk
  let old := s.time
  let odd : Bool := decide (49 ≤ c.since) && (decide (1 < c.slew) || decide (c.slew < -1))
  let l := if odd then (if 1 < c.slew then 19 else 21) else 20
  let slew : Int := if odd then (if 1 < c.slew then c.slew - 1 else c.slew + 1) else c.slew
  let s : State := { s with
    time := s.time + c.beatL
    clk := { c with
      beatL := l
      half := false
      since := if odd then 0 else Min.min (c.since + 1) 49
      slew := slew
      beats := Min.min (c.beats + 1) 1024 } }
  let s := s.masterMark old
  let s := if odd then s.count .hub Reg.svcSlewBeats Reg.svcClkWrap 0 1 else s
  let s := (s.wr .hub Reg.svcTimeStatSlewing (decide (1 < slew) || decide (slew < -1)).toNat).wr .hub Reg.svcTimeStatShort
    (decide (1 < slew)).toNat
  if s.flag .hub Reg.svcPwrStatAlert then s.count .hub Reg.svcAlertBeats Reg.svcPwrWrap 0 1 else s

/-- CLK_EDGE (R351): a running beat ended with a count of edges other than N. -/
def State.clkEdge (s : State) (w edges : Nat) : State :=
  if s.lakeState w = 0 ∧ edges ≠ s.ratio w then
    (s.sat (.lake w) Reg.lakeClkErr 1).recLake w 1 0x16 0xFF (edges % 32)
  else s

/-- BEAT (R342–R352): a beat boundary. `edges`: lakes whose beat did not end with its N edges, and what they counted;
`slips`: lakes whose copy of T has gone wrong, and by how many ns. -/
def beat (edges : List (LakeIx × Nat)) (slips : List (LakeIx × Int)) (s : State) : State :=
  let s := edges.foldl (fun s e => s.clkEdge e.1 e.2) s
  let s : State := { s with clk := { s.clk with
    lakeOff := slips.foldl (fun (t : Tab Int) e => t.set e.1 0 (t.get e.1 0 + e.2)) s.clk.lakeOff } }
  let s := s.hubBeat
  if s.waferOn then (List.range numLakes).foldl State.lakeBeat s else s

/-- TIME_RELOAD (R351): every 1,024 beats the low 16 bits of T go to every lake; a copy that differs in them loads them. -/
def timeReload (s : State) : State :=
  if s.clk.beats < 1024 then s
  else
    let t : Int := s.time
    let go (s : State) (w : Nat) : State :=
      let c := t + s.clk.lakeOff.get w 0
      if c % 65536 = t % 65536 then s
      else ({ s with clk := { s.clk with
        lakeOff := s.clk.lakeOff.set w 0 (c - c % 65536 + t % 65536 - t) } } : State).sat (.lake w) Reg.lakeClkErr 1
    (List.range numLakes).foldl go { s with clk := { s.clk with beats := 0 } }

/-- DROOP_ONSET (R342): the rail of a running lake reads `mv`, more than 30 mV below the voltage of the ratio in force. -/
def droopOnset (w : Nat) (mv : Nat) (s : State) : State :=
  let u := UnitId.lake w
  if s.lakeState w ≠ 0 ∨ s.mv w (s.ratio w) ≤ mv + 30 then s
  else
    let s := (s.wr u Reg.lakeVfRail mv).modLake w (fun x => { x with clear := 0 })
    if s.flag u Reg.lakeClkStatDroop then s else (s.wr u Reg.lakeClkStatDroop 1).sat u Reg.lakeDroop 1

/-- DROOP_CLEAR (R342): 64 beats in a row had no low sample. -/
def droopClear (w : Nat) (s : State) : State :=
  let u := UnitId.lake w
  if s.flag u Reg.lakeClkStatDroop ∧ 64 ≤ (s.lake w).clear then
    (s.wr u Reg.lakeClkStatDroop 0).modLake w (fun x => { x with clear := 0 })
  else s

/-- SETTLE_WAIT_END (R344): the settle wait of a raise ends with the rail at `mv`; the ratio is announced. -/
def settleWaitEnd (w mv : Nat) (s : State) : State :=
  let u := UnitId.lake w
  let x := s.lake w
  if x.raise = 0 ∨ ¬ x.settling then s
  else
    ((s.modLake w (fun x => { x with
      settling := false
      ann := x.raise
      beats := 0
      annBase := s.baseTarget w })).wr u Reg.lakeVfRail mv).wr u Reg.lakeClkStatSeq 2

/-- DIVIDER_SWITCH (R343–R346): two beats or more after the announcement, the dividers and the schedules of the borders
switch. After a lowering the regulator is commanded to the new voltage. -/
def dividerSwitch (w : Nat) (s : State) : State :=
  let u := UnitId.lake w
  let x := s.lake w
  let n := s.ratio w
  if x.ann = 0 ∨ x.beats < 2 ∨ s.lakeState w ≠ 0 then s
  else
    let s := (s.wr u Reg.lakeClkStatN x.ann).count u Reg.lakeSwitch Reg.lakeClkWrap 4 1
    let s := if x.ann < n then (s.wr u Reg.lakeVfVolt (s.mv w x.ann)).wr u Reg.lakeClkStatSeq 3
      else s.wr u Reg.lakeClkStatSeq 0
    let s := s.modLake w (fun y => { y with
      raise := 0
      settling := false
      ann := 0
      beats := 0
      lastBase := x.annBase
      drawn := x.ann })
    let s := s.showPending w
    if x.annBase = x.lastBase then s else s.lakeEvent w

/-- LOWERING_RAIL_SETTLED (R345): the falling rail reads `mv`, within 10 mV of the commanded voltage. -/
def loweringSettled (w mv : Nat) (s : State) : State :=
  let u := UnitId.lake w
  let v := s.rd u Reg.lakeVfVolt
  if s.rd u Reg.lakeClkStatSeq = 3 ∧ v ≤ mv + 10 ∧ mv ≤ v + 10 then (s.wr u Reg.lakeVfRail mv).wr u Reg.lakeClkStatSeq 0
  else s

/-! Borders (R341). -/

/-- Grid place of a wafer lake: 32 columns, 18 rows. -/
def lakeX (w : Nat) : Nat := 4 * (w / 12 % 8) + w % 12 % 4
/-- Grid row of a wafer lake. -/
def lakeY (w : Nat) : Nat := 3 * (w / 12 / 8) + w % 12 / 4
/-- The wafer lake at a grid place. -/
def lakeAt (x y : Nat) : Nat := 12 * (8 * (y / 3) + x / 4) + 4 * (y % 3) + x % 4
/-- The lake beyond border b (0 N, 1 E, 2 S, 3 W), wrap links included (R233). -/
def lakeBeyond (w b : Nat) : Nat :=
  let x := lakeX w
  let y := lakeY w
  match b with
  | 0 => lakeAt x ((y + 1) % 18)
  | 1 => lakeAt ((x + 1) % 32) y
  | 2 => lakeAt x ((y + 17) % 18)
  | _ => lakeAt ((x + 31) % 32) y

/-- The skew register of border b. -/
def skewFld (b : Nat) : Fld :=
  match b with
  | 0 => Reg.lakePhaseSkewN
  | 1 => Reg.lakePhaseSkewE
  | 2 => Reg.lakePhaseSkewS
  | _ => Reg.lakePhaseSkewW

/-- The value of a signed number in w bits. -/
def toBits (w : Nat) (v : Int) : Nat := (v % (2 ^ w : Nat)).toNat

/-- SKEW_ALARM (R341) at one end of a border: the skew is shown; beyond ±100 ps the alarm is set, a record logged when
the border's transfers are first halved; within ±25 ps for 1 ms they are whole again. -/
def State.skewEnd (s : State) (w b : Nat) (k : Int) (log : Bool) : State :=
  let s := s.wr (.lake w) (skewFld b) (toBits 8 k)
  let x := s.lake w
  let m := k.natAbs
  if 50 < m then
    let s := s.wr (.lake w) Reg.lakeClkStatSkewAlarm 1
    let s := if log && !x.halved.testBit b then s.recLake w 1 0x15 0xFF (b + toBits 10 k * 2 ^ 8) else s
    s.modLake w (fun x => { x with
      halved := if x.halved.testBit b then x.halved else x.halved + 2 ^ b
      calm := x.calm.set b 0 0 })
  else if x.halved.testBit b then
    let c := if 2 * m ≤ 25 then x.calm.get b 0 + 64 else 0
    if 50000 ≤ c then s.modLake w (fun x => { x with
      halved := x.halved - 2 ^ b
      calm := x.calm.set b 0 0 })
    else s.modLake w (fun x => { x with calm := x.calm.set b 0 c })
  else s

/-- The generator of lake w is powered (R347). -/
def State.generatorOn (s : State) (w : Nat) : Bool := s.lakeState w = 0 || s.lakeState w = 1

/-- PHASE_TRIM (R341): after 64 beats, the phase detectors read the skews given (lake, border, how far the lake beyond leads
in units of 2 ps), and each generator steps its trim toward the mean. -/
def phaseTrim (skews : List (LakeIx × Fin 4 × Int)) (s : State) : State :=
  let s := skews.foldl (fun s e =>
    let k := Max.max (-128) (Min.min 127 e.2.2)
    (s.skewEnd e.1 e.2.1 k true).skewEnd (lakeBeyond e.1 e.2.1) ((e.2.1.val + 2) % 4) (-k) false) s
  (List.range numLakes).foldl (fun s w =>
    let sum := ((List.range 4).map (fun b => signed8 (s.rd (.lake w) (skewFld b)))).sum
    let t := s.rd (.lake w) Reg.lakePhaseTrim
    let t : Int := if t < 512 then (t : Int) else (t : Int) - 1024
    let t' : Int := if 0 < sum then Min.min 500 (t + 1) else if sum < 0 then Max.max (-500) (t - 1) else t
    if s.generatorOn w ∧ sum ≠ 0 then s.wr (.lake w) Reg.lakePhaseTrim (toBits 10 t') else s) s

/-! Sleep and wake (R347–R349). -/

/-- WARM_SLEEP (R348). -/
def warmSleep (w : Nat) (s : State) : State :=
  let u := UnitId.lake w
  let n := s.rd u Reg.lakeSleepWarmBeats
  if s.lakeState w = 0 ∧ n ≠ 0 ∧ n ≤ (s.lake w).idle then
    ((s.withdraw w true).wr u Reg.lakeClkStatState 1).modLake w (fun x => { x with
      idle := 0
      warm := 0 })
  else s

/-- COLD_SLEEP (R347, R348): the generator powers down and the rail goes to 550 mV plus OFFSET. -/
def coldSleep (w : Nat) (s : State) : State :=
  let u := UnitId.lake w
  let n := s.rd u Reg.lakeSleepColdUs
  if s.lakeState w = 1 ∧ n ≠ 0 ∧ 50 * n ≤ (s.lake w).warm then
    ((s.wr u Reg.lakeClkStatState 2).wr u Reg.lakeVfVolt (s.mv w 4)).modLake w (fun x => { x with warm := 0 })
  else s

/-- R349: something wakes lake w: a packet at one of its routers, a lake event or HOST_CMD for one of its ponds, Hot. -/
def State.wakeCause (s : State) (w : Nat) : Bool :=
  s.net.flights.any (fun f => match f.place with | .router i _ => decide (lakeOf (i / 16) = w) | _ => false)
    || s.events.any (fun e => decide (lakeOf e.1 = w) && (decide (e.2.cause = 5) || decide (e.2.cause = 9)))
    || decide (s.rd (.lake w) Reg.lakeThermState = 2)

/-- A sleeping lake asks for the step of its wake. -/
def State.askWake (s : State) (w : Nat) : State :=
  if s.lakeState w = 1 ∨ s.lakeState w = 2 then s.askStep w (s.targetOf w) true else s

/-- WAKE_TRIGGER (R349). -/
def wakeTrigger (w : Nat) (s : State) : State := if s.wakeCause w then s.askWake w else s

/-- R349 step 2: the grant of a wake: the rail goes to the voltage of the target. -/
def State.startWake (s : State) (w n : Nat) : State :=
  let u := UnitId.lake w
  if s.lakeState w = 1 ∨ s.lakeState w = 2 then
    let cold := decide (s.lakeState w = 2)
    ((s.wr u Reg.lakeClkStatState 3).wr u Reg.lakeVfVolt (s.mv w n)).modLake w (fun x => { x with
      waking := 0
      cold := cold
      drawn := n
      raise := 0
      settling := false
      ann := 0
      beats := 0 })
  else s

/-- WAKE_DONE (R349 steps 3 and 4): 8 beats after the grant, or 9 µs from cold, the core edges start at the target, with the
rail at `mv`. -/
def wakeDone (w mv : Nat) (s : State) : State :=
  let u := UnitId.lake w
  let x := s.lake w
  if s.lakeState w ≠ 3 ∨ x.waking < (if x.cold then 450 else 8) then s
  else
    let old := s.ratio w
    let t := s.targetOf w
    let n := if t ≤ x.drawn then t else x.drawn
    let s := ((s.wr u Reg.lakeClkStatState 0).wr u Reg.lakeClkStatN n).wr u Reg.lakeClkStatTarget t
    let s := ((s.wr u Reg.lakeVfRail mv).wr u Reg.lakeVfVolt (s.mv w n)).wr u Reg.lakeClkStatSeq 0
    let s := if x.cold then s.count u Reg.lakeWakeCold Reg.lakeClkWrap 1 1 else s.count u Reg.lakeWakeWarm Reg.lakeClkWrap 0 1
    let s := s.modLake w (fun x => { x with
      waking := 0
      idle := 0
      drawn := n
      lastBase := s.baseTarget w })
    if n = old then s else s.lakeEvent w

end Sys2Proof.Machine
end

