-- ==== Sys2Proof/Machine/Ring.lean ====
section
/-! DEFINITION. The service ring and global time taken from it (R285, R287–R293, R352). -/

namespace Sys2Proof.Machine

/-! Messages (R285, R288). -/

/-- R285: the relays chosen again from the link-state maps. -/
def State.newRelays (s : State) : State :=
  let rs := (List.range s.ranks).filter (fun b => decide (b ≠ s.rank))
  let relay := rs.foldl (fun (t : Tab Nat) b => t.set b 0 (s.relayTo (fun x => s.net.egress.get x []) b)) []
  let lost := rs.filter (fun b => decide (s.net.egress.get b [] = []) && decide (s.net.relay.get b 0 ≠ 0)
    && decide (relay.get b 0 = 0))
  lost.foldl (fun s b => s.postEvent 0x16 0 b 0 0xFF) { s with net := { s.net with relay := relay } }

/-- A message reaches the service controller. -/
def State.ringMsg (s : State) (m : RingMsg) : State :=
  match m with
  | .links r ps =>
    ({ s with ring := { s.ring with
      maps := s.ring.maps.filter (fun e => decide (e.1 ≠ r)) ++ ps.map (fun b => (r, b)) } } : State).newRelays
  | .digest r ctx d =>
    { s with ring := { s.ring with
      digests := s.ring.digests.filter (fun e => !(decide (e.1 = r) && decide (e.2.1 = ctx))) ++ [(r, ctx, d)] } }

/-! Time (R289, R352). -/

/-- A signed 32-bit field, saturating. -/
def sat32 (v : Int) : Int := Max.max (-(2 ^ 31)) (Min.min (2 ^ 31 - 1) v)

/-- R289, R352: the time master is the lowest rank that may be one: this module, or the one a frame names. -/
def State.judgeMaster (s : State) (m : Nat) : State :=
  let own : Bool := s.flag .hub Reg.svcRingCtrlMasterEn && !s.flag .hub Reg.svcRingStatBypass && decide (s.rank ≤ m)
  ((s.wr .hub Reg.svcRingStatMaster own.toNat).wr .hub Reg.svcRingStatMasterRank (if own then s.rank else m)).trimSource

/-- FRAME_MARK (R352): true time gives E; the first alignment steps T when no partition has started, every other correction
slews. The master and a module that is Alone make none. -/
def State.frameMark (s : State) (true_ : Nat) : State :=
  let e : Int := (s.now : Int) - true_
  let s := s.wr .hub Reg.svcTimeStatOffset (toBits 32 (sat32 e))
  if s.flag .hub Reg.svcRingStatMaster || decide (s.rd .hub Reg.svcRingStatTopo = 3) then s
  else
    let first := !s.ring.aligned
    let big : Bool := decide (1 < e) || decide (e < -1)
    let s := s.wr .hub Reg.svcRingStatAligned 1
    let s : State := { s with ring := { s.ring with aligned := true } }
    if first && !s.pwr.started && big then
      ({ s with
        time := ((s.time : Int) - e).toNat
        clk := { s.clk with slew := 0 } } : State).wr .hub Reg.svcTimeStatStepped 1
    else
      let s : State := { s with clk := { s.clk with slew := if big then e else 0 } }
      (s.wr .hub Reg.svcTimeStatSlewing big.toNat).wr .hub Reg.svcTimeStatShort (decide (1 < e)).toNat

/-- R334: the oscillator counts marks while it trims against them; after 1,024 its trim is `ppm`. -/
def State.ringTrim (s : State) (ppm : Nat) : State :=
  let s := s.trimSource
  if s.rd .hub Reg.svcClkStatTrimSrc ≠ 2 then { s with ring := { s.ring with marks := 0 } }
  else if s.ring.marks < 1023 then { s with ring := { s.ring with marks := s.ring.marks + 1 } }
  else
    (({ s with ring := { s.ring with marks := 0 } } : State).wr .hub Reg.svcOscTrimTrim ppm).wr .hub Reg.svcClkStatTrimmed 1

/-- R288: TIME, DELAY, HOPS and MASTER of a ring frame, and its message bytes. -/
def RingFrame.time (f : RingFrame) : Nat := f.bits.toNat / 2 ^ 64 % 2 ^ 64
/-- DELAY, in ps. -/
def RingFrame.delay (f : RingFrame) : Nat := f.bits.toNat / 2 ^ 128 % 2 ^ 32
/-- HOPS. -/
def RingFrame.hops (f : RingFrame) : Nat := f.bits.toNat / 2 ^ 160 % 2 ^ 8
/-- MASTER. -/
def RingFrame.master (f : RingFrame) : Nat := f.bits.toNat / 2 ^ 168 % 2 ^ 8
/-- The message bytes. -/
def RingFrame.text (f : RingFrame) : Nat := f.bits.toNat / 2 ^ 192 % 2 ^ 9776
/-- R288: the CRC passes. -/
def RingFrame.good (f : RingFrame) : Bool := decide (crc32 (leBytes 1246 f.bits.toNat) = f.bits.toNat / 2 ^ 9968)

/-- R289: a frame is passed on by the port that does not receive it, one hop further; the master passes none of its own on. -/
def State.passOn (s : State) (portB : Bool) (f : RingFrame) (hop regen : Nat) : State :=
  if s.flag .hub Reg.svcRingStatMaster then s
  else
    let x := ringFrameOf f.time (f.delay + regen + hop) (f.hops + 1) f.master (s.rd .hub Reg.svcRingStatTopo) f.text
    { s with ring := { s.ring with sent := s.ring.sent.set portB.toNat 0 x } }

/-- R289: port B is the direction in use: it has fewer HOPS. -/
def RingSt.useB (r : RingSt) : Bool :=
  match r.hopsA, r.hopsB with
  | some a, some b => decide (b < a)
  | none, some _ => true
  | _, none => false

/-- RING_FRAME (R288, R289): a frame arrives at port A, or at port B. `hop`: the delay measured of that port's hop, `regen`
the regeneration delay, both in ps; `ppm`: the trim that the oscillator's count of marks leads to. -/
def ringFrame (portB : Bool) (f : RingFrame) (hop regen : Nat) (ppm : BitVec 16) (s : State) : State :=
  if s.flag .hub Reg.svcRingStatBypass then s
  else if !f.good then s.sat .hub Reg.svcRingErr 1
  else
    let s := s.count .hub Reg.svcRingFrames Reg.svcRingWrap 0 1
    let s := s.wr .hub (if portB then Reg.svcRingDelayHopB else Reg.svcRingDelayHopA) hop
    let s := (s.judgeMaster f.master).passOn portB f hop regen
    let s : State := { s with ring := { s.ring with
      hopsA := if portB then s.ring.hopsA else some f.hops
      hopsB := if portB then some f.hops else s.ring.hopsB } }
    let s := f.msgs.foldl State.ringMsg s
    if s.ring.useB != portB then s
    else
      let s := (s.wr .hub Reg.svcRingStatDir portB.toNat).wr .hub Reg.svcRingStatHops f.hops
      (s.frameMark (f.time + (f.delay + hop) / 1000)).ringTrim ppm.toNat

/-! The ring's state (R290, R291). -/

/-- RING_STATE (R291): the light at the ports and the topology change; `cut`: this module's segment of a split ring has no
master. -/
def ringState (topo : Fin 4) (lightA lightB cut : Bool) (s : State) : State :=
  let t := if lightA || lightB then (if topo.val = 3 then 2 else topo.val) else 3
  let old := s.rd .hub Reg.svcRingStatTopo
  let s := ((s.wr .hub Reg.svcRingStatTopo t).wr .hub Reg.svcRingStatLightA lightA.toNat).wr .hub Reg.svcRingStatLightB lightB.toNat
  let s : State := { s with ring := { s.ring with
    hopsA := if lightA then s.ring.hopsA else none
    hopsB := if lightB then s.ring.hopsB else none } }
  -- no frame names a master any more
  let s := if s.ring.hopsA.isNone && s.ring.hopsB.isNone && !s.flag .hub Reg.svcRingStatBypass then s.judgeMaster s.rank else s
  let s := if t = 3 ∨ (t = 2 ∧ cut = true) then
      ({ s with clk := { s.clk with slew := 0 } } : State).wr .hub Reg.svcRingStatAligned 0 |>.wr .hub Reg.svcTimeStatSlewing 0
    else s
  let s := s.trimSource
  if t = old then s else s.postEvent 0x15 0 0 t 0xFF

/-- R290: the bypass closes: the module passes no frame and takes no time. -/
def State.closeBypass (s : State) : State :=
  let s := (((s.wr .hub Reg.svcRingStatBypass 1).wr .hub Reg.svcRingStatAligned 0).wr .hub Reg.svcRingStatMaster 0)
  ({ s with ring := { s.ring with
    hopsA := none
    hopsB := none
    marks := 0 } } : State).trimSource

/-- RING_EN (R290): EN is written; the bypass opens once the receivers have locked to the tapped light. -/
def ringEn (v locked : Bool) (s : State) : State :=
  let s := s.wr .hub Reg.svcRingCtrlEn v.toNat
  if !v then s.closeBypass
  else if locked && s.flag .hub Reg.svcRingStatBypass then (s.wr .hub Reg.svcRingStatBypass 0).judgeMaster s.rank
  else s

end Sys2Proof.Machine
end

