-- ==== Sys2Proof/Machine/Opal.lean ====
section
/-! DEFINITION. Opal tests (R392–R397). -/

namespace Sys2Proof.Machine

/-- R393: the idle condition of a unit. -/
def State.unitIdle (s : State) (g t : Nat) : Bool :=
  let q (n : Nat) : Bool := decide ((s.queue (queueKey g t false n)).count = 0)
  let m := s.mcore g t
  match tileType t with
  | .m => m.drained && m.fill.isEmpty && q 0 && q 1 && q 2
  | .v => !(s.vcore g t).inRow && q 0 && q 1
  | .a => (List.range 4).all (fun n => let x := s.gen g t n; x.run.isEmpty && x.queue.isEmpty && x.chain.isNone)
  | .s =>
    let x := s.score g
    x.fifo.isEmpty && (s.flag (.tile g 5) Reg.scoreEstatHalted || (match x.stall with
      | some .idle => true
      | some .waits => true
      | some (.tokr _) => true
      | _ => false))

/-- R390: the bound on a unit's age, in steps. -/
def ageBound (t : Nat) : Nat := if tileType t = .s then 4096 else 2048

/-- 24 hours in ns. -/
def dayNs : Nat := 86400000000000

/-- R382, R393: the supervisor may offer a test there: the unit works, no test runs in the pond, the lake is neither Hot, Shut nor
Off and has been Normal since it was last Hot, and a sleeping lake has a unit at half its bound. -/
def State.mayOffer (s : State) (g t : Nat) : Bool :=
  let w := lakeOf g
  let st := s.lakeState w
  let half : Bool := (List.range 288).any (fun p => let h := 288 * (w / 12) + p
    decide (lakeOf h = w) && (List.range 16).any (fun t => decide (ageBound t ≤ 2 * (s.opalOf h t).age)))
  !(s.tileW g t).testBit 0 && !s.closed.contains (16 * g + t)
    && (List.range 16).all (fun x => !(s.opalOf g x).active)
    && decide (s.rd (.lake w) Reg.lakeThermState < 2) && !(s.lake w).wasHot && decide (st ≠ 4) && (decide (st = 0) || half)

/-- R125: the pond's S-core expects idle core cycles of the unit: it lies in the mask of the last hint. -/
def State.hinted (s : State) (g t : Nat) : Bool :=
  (s.rd (.tile g 5) Reg.scoreOpalMask).testBit t && decide (s.rd (.tile g 5) Reg.scoreOpalIdle ≠ 0)

/-- OPAL_OFFER (R393): among the units of field f whose idle condition has held for 2,000 core cycles (`idle`: pond and tile
positions), the one of greatest age starts or goes on with its test; a sleeping lake is woken first. -/
def opalOffer (f : Nat) (idle : List (Fin 288 × BitVec 16)) (s : State) : State :=
  let cand := idle.flatMap (fun e => ((List.range 16).filter (fun t => e.2.getLsbD t
    && s.unitIdle (288 * f + e.1) t && s.mayOffer (288 * f + e.1) t)).map (fun t => (288 * f + e.1.val, t)))
  let better (a b : Nat × Nat) : Bool :=
    let x := (s.opalOf a.1 a.2).age
    let y := (s.opalOf b.1 b.2).age
    decide (y < x) || (decide (x = y) && s.hinted a.1 a.2 && !s.hinted b.1 b.2)
  if s.rd (.fld f) Reg.fldOpalCfgEn = 0 ∨ ¬ s.supervised f then s
  else
    match cand with
    | [] => s
    | c :: r =>
      let u := r.foldl (fun b x => if better x b then x else b) c
      if s.lakeState (lakeOf u.1) ≠ 0 then s.askWake (lakeOf u.1)
      else
        let x := s.opalOf u.1 u.2
        s.setOpal u.1 u.2 { x with
          active := true
          seg := if s.now ≤ x.since + dayNs then x.seg else 0 }

/-- The unit type whose known answers a test takes. -/
def opalType (t : Nat) : Nat :=
  match tileType t with
  | .m => 0
  | .v => 1
  | .a => 2
  | .s => 3

/-- OPAL_FAIL (R397): the unit is written to the overlay map, recorded, and its pond told. -/
def State.opalFail (s : State) (g t : Nat) : State :=
  let x := s.opalOf g t
  let s := (s.setOpal g t { x with
    active := false
    forced := false
    due := false
    seg := 0 }).overTile g t 0
  ((s.recTile g t 0 8 7 (x.passStep % 2 ^ 32 + x.seg * 2 ^ 32)).raise g 6 t).sat (.fld (fieldOf g)) Reg.fldOpalFail 1

/-- OPAL_SEGMENT (R394–R397): the segment in hand of a test ends with the signature `sig`. -/
def opalSegment (g t : Nat) (sig : BitVec 64) (s : State) : State :=
  let x := s.opalOf g t
  if !x.active || !s.clocked g then s
  else if sig ≠ Config.opalSignature (opalType t) (s.ratio (lakeOf g)) x.seg then s.opalFail g t
  else if x.seg + 1 < 32 then s.setOpal g t { x with
    seg := x.seg + 1
    since := if x.seg = 0 then s.now else x.since }
  else
    (s.setOpal g t { OpalT.init with
      passStep := s.rd (.tile g 5) Reg.scoreStepStep
      passTime := s.now }).count (.fld (fieldOf g)) Reg.fldOpalPass Reg.fldOpalWrap 0 1

/-- OPAL_DUE (R392): the last pass is more than 24 hours old. -/
def opalDueDay (g t : Nat) (s : State) : State :=
  let x := s.opalOf g t
  if s.now ≤ x.passTime + dayNs then s else s.setOpal g t { x with due := true }

end Sys2Proof.Machine
end

