-- ==== Sys2Proof/Machine/Power.lean ====
section
/-! DEFINITION. Supplies, power states and regulator alerts (chapter 14). -/

namespace Sys2Proof.Machine

/-- SVC_PWR_STAT.STATE (R359). -/
def State.power (s : State) : Nat := s.rd .hub Reg.svcPwrStatState

/-- Enter a power state; MOD_READY is asserted only in state 4. -/
def State.setPower (s : State) (n : Nat) : State :=
  (s.wr .hub Reg.svcPwrStatState n).wr .hub Reg.svcPwrStatModReady (decide (n = 4)).toNat

/-! The wafer without power (R362). -/

/-- R362: what the wafer held is lost: memories, registers, traffic, the running image set, seals, saved contexts, the field
logs and the records on their way. The hub, both maps, global time and the module log stay. -/
def State.wipeWafer (s : State) : State :=
  let keep := s.net.outst.filter (fun o => match o.purpose with
    | .hubDma _ _ => true
    | .hubSig _ => true
    | .hubAcc => true
    | _ => false)
  { s with
    regs := s.regs.clear (fun k => decide (k / 64 / 2 ^ 23 ≠ UnitId.hub.idx))
    mem := []
    bad := []
    queues := []
    steers := []
    springs := []
    waiters := []
    evals := []
    senders := []
    arrivals := []
    mcores := []
    vcores := []
    scores := []
    gens := []
    pmem := []
    opal := []
    latches := s.latches.clear (fun k => decide (k / 4 ≠ UnitId.hub.idx))
    saved := []
    events := []
    net := NetSt.init keep
    err := { s.err with
      queue := s.err.queue.filter (fun r => decide (48 ≤ r.field))
      elog := []
      supvFailed := [] }
    parts := []
    img := ImgSt.init
    drams := []
    colls := []
    closed := []
    drainDone := []
    tests := []
    ports := []
    lakes := []
    clk := { s.clk with lakeOff := [] } }

/-- The alert episode and the slope requests end with the wafer's power; VR_ALERT_N stays as it is. -/
def State.endAlerts (s : State) : State :=
  let s : State := { s with pwr := { s.pwr with
    sources := s.pwr.sources.filter (fun e => decide (e.1 = .ext))
    episode := false
    ended := 0
    reqs := [] } }
  (s.wr .hub Reg.svcPwrStatAlert 0).wr .hub Reg.svcPwrStatAlertInt 0

/-- The wafer's rails are off: everything on it is lost, commands that name a partition end with ABORTED code 2. -/
def State.railsOff (s : State) : State :=
  let s := (s.abortPartCommands 2).wipeWafer.endAlerts
  let s : State := { s with
    hub := { s.hub with warm := false }
    pwr := { s.pwr with
      step := 0
      cause := 0
      stackPrev := [] } }
  (s.wr .hub Reg.svcBringupStatPath 0).wr .hub Reg.svcBringupStatStep 0

/-- EMERGENCY_OFF (R362): with the wafer powered, every rail goes off and the module enters state `target`; LAST_OFF holds the
first cause. Without, only a way to Off counts. -/
def State.emergencyOff (s : State) (cause target : Nat) : State :=
  let st := s.power
  if 2 ≤ st ∧ st ≤ 5 then
    let last := if s.pwr.cause = 0 then cause else s.pwr.cause
    (s.railsOff.setPower target).wr .hub Reg.svcPwrStatLastOff last
  else if target = 0 then s.setPower 0
  else s

/-! AUX (R356, R357, R360). -/

/-- R360 step 2, R459: the hub after AUX has come up: its registers at reset but for the stored ones, T at 0, the module clock
on the oscillator with the stored trim. -/
def State.hubUp (s : State) (addr : Nat) : State :=
  let auto := s.rd .hub Reg.svcPwrCtrlAutoOn
  let dt := s.rd .hub Reg.svcModCfgDtLimit
  let out := s.rd .hub Reg.svcModCfgOutLimit
  let smb := s.rd .hub Reg.svcModCfgSmbOffEn
  let wrt := s.rd .hub Reg.svcMlogStatWritten
  let lost := s.rd .hub Reg.svcMlogStatLost
  let s : State := { s with
    regs := s.regs.clear (fun k => decide (k / 64 / 2 ^ 23 = UnitId.hub.idx))
    latches := s.latches.clear (fun k => decide (k / 4 = UnitId.hub.idx))
    time := 0
    clk := ⟨20, false, 49, 0, 0, []⟩
    ring := RingSt.init
    ref := RefSt.init s.ref.stored
    hub := { s.hub with
      gen := 0
      msix := []
      msixTable := [] }
    telem := s.telem.clear (fun k => decide (k / 64 / 2 ^ 23 = UnitId.hub.idx))
    pwr := { s.pwr with
      faulted := false
      capTime := 0
      trim := 0
      budget := 0
      started := false
      coolPrev := 0
      coolClear := 0
      smbSeen := 0 } }
  let s := ((s.wr .hub Reg.svcPwrCtrlAutoOn auto).wr .hub Reg.svcModCfgDtLimit dt).wr .hub Reg.svcModCfgOutLimit out
  let s := ((s.wr .hub Reg.svcModCfgSmbOffEn smb).wr .hub Reg.svcMlogStatWritten wrt).wr .hub Reg.svcMlogStatLost lost
  let s := (s.wr .hub Reg.svcOscTrimTrim s.ref.stored).wr .hub Reg.svcModStatSmbAddr addr
  (s.setPower 0).wr .hub Reg.svcPwrStatAuxOk 1

/-- R314, R356, R358: the hub is held in reset: the host interface, the commands, the IDE stream and the SPDM connection end,
and the ring bypasses close (R290). -/
def State.hubDown (s : State) : State :=
  let s := s.hostReset.ideEnd.pcieDown
  let s : State := { s with
    hub := { s.hub with
      busMaster := false
      warm := false
      cmds := [] }
    trust := { s.trust with
      conn := 0
      exchange := false
      session := false
      recovery := false } }
  s.trustShow.closeBypass

/-- AUX_QUALIFIED (R356, R360): AUX has been at `mv` within 10.8–13.2 V for 1 ms: the hub leaves reset. `addr`: the SMBus
address pins; `seated`: the laser-supply connector. -/
def auxQualified (mv : Nat) (addr : Fin 8) (seated : Bool) (s : State) : State :=
  if s.flag .hub Reg.svcPwrStatAuxOk ∨ mv < 10800 ∨ 13200 < mv then s
  else ((s.hubUp addr.val).wr .hub Reg.svcPwrMeasAuxV mv).wr .hub Reg.svcModStatSupplySeated seated.toNat

/-- AUX_LOSS (R356, R404): AUX below 10.5 V for 50 µs: emergency off, the hub resets, the module is Off. Records not yet in
the module log are lost. -/
def auxLoss (mv us : Nat) (s : State) : State :=
  if ¬ s.flag .hub Reg.svcPwrStatAuxOk ∨ 10500 ≤ mv ∨ us < 50 then s
  else
    let s := (s.emergencyOff 0 0).hubDown
    let s : State := { s with err := { s.err with
      queue := []
      mlogWait := [] } }
    ((s.setPower 0).wr .hub Reg.svcPwrStatAuxOk 0).wr .hub Reg.svcPwrMeasAuxV mv

/-! MOD_RESET_N (R358, R478). -/

/-- MOD_RESET_N: held low for 1 µs or more. -/
def modResetN (ns : Nat) (s : State) : State :=
  if s.pwr.modReset ∨ ns < 1000 then s
  else
    let s := ((s.emergencyOff 4 0).hubDown).setPower 0
    { s with pwr := { s.pwr with
      modReset := true
      smbSeen := 0 } }

/-- MOD_RESET_N_RELEASE: the module powers up from step 2 of R360: the hub boots next. -/
def modResetRelease (s : State) : State := { s with pwr := { s.pwr with modReset := false } }

/-! Alerts (R364–R368). -/

/-- R480: a condition of SMB_ALERT_N (bit b) has ended: when it appears again it is a further one. -/
def State.forgetSeen (s : State) (b : Nat) : State :=
  if s.pwr.smbSeen.testBit b then { s with pwr := { s.pwr with smbSeen := s.pwr.smbSeen - 2 ^ b } } else s

/-- R365: the floor in force at every lake, ALERT_LIMIT at every DRAM channel; or lifted. -/
def State.setFloor (s : State) (on : Bool) : State :=
  let s := s.wr .hub Reg.svcPwrStatAlert on.toNat
  let s := if on then s else s.forgetSeen 0
  let s := (List.range numLakes).foldl (fun s w => s.wr (.lake w) Reg.lakeClkStatAlert on.toNat) s
  (List.range numFields).foldl (fun s f => s.wr (.dram f) Reg.dramThrottleAlert on.toNat) s

/-- R369: ALERT_EXT and ALERT_INT show the sources active now. -/
def State.showAlerts (s : State) : State :=
  let ext := s.pwr.sources.any (fun e => decide (e.1 = .ext))
  let int := s.pwr.sources.any (fun e => decide (e.1 ≠ .ext))
  (s.wr .hub Reg.svcPwrStatAlertExt ext.toNat).wr .hub Reg.svcPwrStatAlertInt int.toNat

/-- R364: the first source of an episode. -/
def State.openEpisode (s : State) : State :=
  if s.pwr.episode then s
  else
    let s : State := { s with pwr := { s.pwr with
      episode := true
      postedExt := false
      postedInt := false
      ended := 0 } }
    let s := (s.sat .hub Reg.svcAlerts 1).setFloor true
    let s := ((s.wr .hub Reg.svcAlertSrcLake 0x3FF).wr .hub Reg.svcAlertSrcField 0x3F).wr .hub Reg.svcAlertSrcExt 0
    ((s.wr .hub Reg.svcAlertSrcLakeSeen 0).wr .hub Reg.svcAlertSrcFieldSeen 0).wr .hub Reg.svcAlertSrcMainUv 0

/-- R369: SVC_ALERT_SRC notes a source of the episode. -/
def State.noteSource (s : State) (a : AlertSrc) : State :=
  match a with
  | .ext => s.wr .hub Reg.svcAlertSrcExt 1
  | .mainUv => s.wr .hub Reg.svcAlertSrcMainUv 1
  | .lake w =>
    if s.flag .hub Reg.svcAlertSrcLakeSeen then s
    else (s.wr .hub Reg.svcAlertSrcLake w.val).wr .hub Reg.svcAlertSrcLakeSeen 1
  | .field f =>
    if s.flag .hub Reg.svcAlertSrcFieldSeen then s
    else (s.wr .hub Reg.svcAlertSrcField f.val).wr .hub Reg.svcAlertSrcFieldSeen 1

/-- VR_ALERT (R366): one event for the episode's first external source and one for its first internal source. -/
def State.postAlert (s : State) (a : AlertSrc) : State :=
  let ext := decide (a = .ext)
  if (if ext then s.pwr.postedExt else s.pwr.postedInt) then s
  else
    let s : State := { s with pwr := { s.pwr with
      postedExt := s.pwr.postedExt || ext
      postedInt := s.pwr.postedInt || !ext } }
    s.postEvent 2 0 (!ext).toNat (match a with | .lake w => w.val | _ => 0xFFFF) 0xFF

/-- A source appears in state 3 or 4 (R359, R364–R366). -/
def State.alertOn (s : State) (a : AlertSrc) : State :=
  if s.pwr.sources.any (fun e => decide (e.1 = a)) then s
  else
    let s : State := { s with pwr := { s.pwr with sources := s.pwr.sources ++ [(a, s.now)] } }
    if s.power = 3 ∨ s.power = 4 then ((s.openEpisode.noteSource a).postAlert a).showAlerts else s.showAlerts

/-- A source clears. -/
def State.alertOff (s : State) (a : AlertSrc) : State :=
  ({ s with pwr := { s.pwr with sources := s.pwr.sources.filter (fun e => decide (e.1 ≠ a)) } } : State).showAlerts

/-- R368: a lake regulator is failed (`why`: bit 0 16 alerts in an hour, bit 1 an alert of 100 ms): the overlay, its rail off
through a table update, a record for each partition present. -/
def State.lakeRegFail (s : State) (w : LakeIx) (why : Nat) : State :=
  if (s.lakeW w).testBit 0 then s
  else
    let s := (s.overLake w 0).alertOff (.lake w)
    let s := (s.withdraw w true).modLake w (fun x => { x with off := if x.off = 0 then 2 else x.off })
    let s : State := { s with net := { s.net with cutLakes := w.val :: s.net.cutLakes.filter (fun x => decide (x ≠ w.val)) } }
    match s.present w with
    | [] => s.recLake w 0 0x1B 0xFF why
    | l => l.foldl (fun s n => s.recLake w 0 0x1B n why) s

/-- One hour in ns. -/
def hourNs : Nat := 3600000000000

/-- VR_ALERT_N (R364, R365): the pin has been low for `ns`; high ends the source. -/
def vrAlertN (low : Bool) (ns : Nat) (s : State) : State :=
  if !low then s.alertOff .ext
  else if ns < 100 then s
  else s.alertOn .ext

/-- INTERNAL_ALERT (R364–R366, R368): an internal source appears or clears. -/
def internalAlert (a : AlertSrc) (on : Bool) (s : State) : State :=
  if a = .ext then s
  else if !on then s.alertOff a
  else if s.pwr.sources.any (fun e => decide (e.1 = a)) ∨ ¬ (s.power = 3 ∨ s.power = 4) then s
  else
    let s := s.alertOn a
    match a with
    | .lake w =>
      let l := s.now :: (s.lake w).alerts.filter (fun t => decide (s.now < t + hourNs))
      let s := (s.modLake w (fun x => { x with alerts := l })).lakeEvent w
      if 16 ≤ l.length then s.lakeRegFail w 1 else s
    | .field f => s.sat (.pwr f) Reg.pwrAlertsField 1
    | _ => s

/-- ALERT_EPISODE_END (R367): every source has cleared. -/
def alertEpisodeEnd (s : State) : State :=
  if s.pwr.episode && s.pwr.sources.isEmpty then
    { s with pwr := { s.pwr with
      episode := false
      ended := s.now + 1 } }
  else s

/-- FLOOR_LIFT (R367): 1 ms after the episode's end the floor lifts. -/
def floorLift (s : State) : State :=
  if s.pwr.ended ≠ 0 ∧ s.pwr.ended + 1000000 ≤ s.now + 1 then
    ({ s with pwr := { s.pwr with ended := 0 } } : State).setFloor false
  else s

/-- ALERT_LASTS_100_MS (R368): a source has been in force for 100 ms: a lake regulator is failed, a field converter causes an
emergency off. -/
def alertLasts (a : AlertSrc) (s : State) : State :=
  match s.pwr.sources.find? (fun e => decide (e.1 = a)) with
  | none => s
  | some e =>
    if s.now < e.2 + 100000000 then s
    else match a with
      | .lake w => s.lakeRegFail w 2
      | .field _ => s.emergencyOff 6 1
      | _ => s

/-! MAIN (R356, R357). -/

/-- SVC_PWR_MEAS.MAIN_V from a voltage in mV. -/
def State.measMain (s : State) (mv : Nat) : State := s.wr .hub Reg.svcPwrMeasMainV (Min.min (mv / 10) 0xFFFF)

/-- MAIN_QUALIFIED (R356, R364): MAIN is back at 38 V, which ends an under-voltage; within 38–48 V for 10 ms it is qualified. -/
def mainQualified (mv us : Nat) (s : State) : State :=
  if mv < 38000 ∨ ¬ s.flag .hub Reg.svcPwrStatAuxOk then s
  else
    let s := (s.measMain mv).alertOff .mainUv
    if mv ≤ 48000 ∧ 10000 ≤ us then s.wr .hub Reg.svcPwrStatMainOk 1 else s

/-- MAIN_UNDERVOLTAGE (R356, R364): below 38 V for 5 µs. -/
def mainUndervoltage (mv us : Nat) (s : State) : State :=
  if 38000 ≤ mv ∨ us < 5 then s
  else
    let s := (s.measMain mv).wr .hub Reg.svcPwrStatMainOk 0
    if s.power = 3 ∨ s.power = 4 then s.alertOn .mainUv else s

/-- MAIN_LOSS (R356): below 35 V for 50 µs, or below 33 V for 1 µs. -/
def mainLoss (mv us : Nat) (s : State) : State :=
  if (mv < 35000 ∧ 50 ≤ us) ∨ (mv < 33000 ∧ 1 ≤ us) then
    (((s.measMain mv).wr .hub Reg.svcPwrStatMainOk 0).emergencyOff 2 1)
  else s

/-- MAIN_OVERVOLTAGE (R356): above 50 V for 10 µs. -/
def mainOvervoltage (mv us : Nat) (s : State) : State :=
  if 50000 < mv ∧ 10 ≤ us then ((s.measMain mv).wr .hub Reg.svcPwrStatMainOk 0).emergencyOff 3 1 else s

/-! Power-up (R359, R360). -/

/-- A BRINGUP command waits or runs. -/
def State.wantsBringup (s : State) : Bool := s.hub.cmds.any (fun c => decide (c.op = 0x0D) && !c.done)

/-- R359: state 1 leaves to state 2. -/
def State.mayPowerUp (s : State) : Bool :=
  decide (s.power = 1) && s.flag .hub Reg.svcPwrStatMainOk && s.pwr.mapOk && !s.trust.recovery
    && ((s.flag .hub Reg.svcPwrCtrlAutoOn && !s.pwr.faulted) || s.wantsBringup)

/-- R360 steps 7 and 8: the rails are in regulation, the lakes cold asleep, a lake with a failed regulator or generator Off. -/
def State.railsOn (s : State) : State :=
  let s := (List.range numFields).foldl (fun s f =>
    let u := UnitId.pwr f
    ((((s.wr u Reg.pwrRailsStrip 1).wr u Reg.pwrRailsSram 1).wr u Reg.pwrRailsDramCore 1).wr u Reg.pwrRailsDramWl 1).wr u
      Reg.pwrRailsOpt 3) s
  (List.range numLakes).foldl (fun s w =>
    let u := UnitId.lake w
    if (s.lakeW w).testBit 0 || (s.lakeW w).testBit 1 then s.wr u Reg.lakeClkStatState 4
    else ((s.wr u Reg.lakeVfVolt (s.mv w 4)).wr u Reg.lakeVfRail (s.mv w 4)).wri (.pwr (w / 12)) Reg.pwrLakeEnabled (w % 12) 1) s

/-- POWER_UP (R359, R360): in state 1 the precharge starts; in state 2 every rail has come into regulation and bring-up begins
on the cold path. -/
def powerUp (s : State) : State :=
  if s.power = 2 then
    let s := s.railsOn.setPower 3
    let s := ((s.wr .hub Reg.svcBringupStatPath 1).wr .hub Reg.svcBringupStatStep 1)
    let s : State := { s with pwr := { s.pwr with upAt := s.now } }
    s.pwr.sources.foldl (fun s e => ((s.openEpisode.noteSource e.1).postAlert e.1).showAlerts) s
  else if s.mayPowerUp then
    ({ s with pwr := { s.pwr with faulted := false } } : State).setPower 2
  else s

/-- RAIL_FAULT (R360): a rail is not in regulation within its step's latest time. -/
def railFault (s : State) : State :=
  if s.power ≠ 2 then s
  else
    let s := s.emergencyOff 6 1
    { s with pwr := { s.pwr with faulted := true } }

/-! Powering down (R362, R363). -/

/-- R362 step 1: an orderly power-down begins: partitions stop at their next step boundary. -/
def State.beginOff (s : State) : State :=
  if s.power ≠ 4 then s
  else
    let s := s.setPower 5
    let s : State := { s with pwr := { s.pwr with
      step := 2
      cause := 1 } }
    (s.parts.map (fun e => e.1)).foldl (fun s n =>
      match (s.parts.get n Part.none).state with
      | 3 => s.askStop n 4
      | 6 => s.modPart n (fun p => { p with
          state := 5
          recStep := 0
          moves := [] })
      | _ => s) s

/-- R362 step 2: partitions that have reached a boundary drain and stop. -/
def State.stopAll (s : State) : State :=
  (s.parts.map (fun e => e.1)).foldl (fun s n =>
    let p := s.parts.get n Part.none
    if p.state ≠ 4 then s
    else if !p.draining then (if s.atBoundary n then (s.clearRun n).flinvPart n else s)
    else if p.drained || s.quiet ((s.pondsOf n).flatMap tilesOf) true then
      s.modPart n (fun p => { p with
        state := 5
        draining := false
        drained := false })
    else s) s

/-- R362 step 3: every lake Off, its rail off. -/
def State.lakesOff (s : State) : State :=
  (List.range numLakes).foldl (fun s w =>
    ((s.wr (.lake w) Reg.lakeClkStatState 4).wr (.lake w) Reg.lakeVfRail 0).wri (.pwr (w / 12)) Reg.pwrLakeEnabled (w % 12) 0) s

/-- R362 step 4: optical engines dark. -/
def State.portsDark (s : State) : State :=
  (List.range numPorts).foldl (fun s p => (s.pwr_ p Reg.optPstatState 0).pwr_ p Reg.optPstatLanes 0) s

/-- WAFER_OFF (R362, R363): a write in state 4 begins the power-down; in state 5 its next step ends. `late`: partitions have
had 1 s to stop and are abandoned. -/
def waferOff (late : Bool) (s : State) : State :=
  if s.power = 4 then s.beginOff
  else if s.power ≠ 5 then s
  else
    let next (s : State) (n : Nat) : State := { s with pwr := { s.pwr with step := n } }
    match s.pwr.step with
    | 2 =>
      let s := s.stopAll
      if late || s.parts.all (fun e => decide (e.2.state ≠ 4)) then next s 3 else s
    | 3 => next s.lakesOff 4
    | 4 => next s.portsDark 5
    | _ => s.emergencyOff 1 1

end Sys2Proof.Machine
end

