-- ==== Sys2Proof/Machine/Thermal.lean ====
section
/-! DEFINITION. The power cap, the slope limit and thermal control (chapter 15). -/

namespace Sys2Proof.Machine

/-! Predictions (R374). -/

/-- Nominal voltage of a ratio as a rational number of volts. -/
def volts (n : Nat) : Rat := (nominalMv n : Rat) / 1000

/-- R374: predict(l, n) in W; 0 for a lake that is Off. -/
def State.predict (s : State) (w n : Nat) : Rat :=
  let u := UnitId.lake w
  let st := s.lakeState w
  if st = 4 then 0
  else
    let nf := s.ratio w
    let leak : Rat := (s.rd u Reg.lakePwrLeak : Rat) / 4
    let meas : Rat := ((if st = 0 then s.rd u Reg.lakePwrPower else (s.lake w).ran : Nat) : Rat) / 4
    leak * volts n / volts nf + (meas - leak) * ((n : Rat) * volts n ^ 2) / ((nf : Rat) * volts nf ^ 2)

/-! Slope limit (R377, R378). -/

/-- SVC_CAP_CTRL.SLOPE in W/µs. -/
def State.slope (s : State) : Nat := s.rd .hub Reg.svcCapCtrlSlope

/-- R377: the step of a request in W. -/
def State.stepOf (s : State) (r : SlopeReq) : Rat :=
  if r.wake then s.predict r.lake r.n
  else s.predict r.lake r.n - s.predict r.lake (Max.max (s.ratio r.lake) (s.lake r.lake).drawn)

/-- R377: a request is served: a wake begins; a raise may start at the next beat. -/
def State.serveSlope (s : State) (r : SlopeReq) : State :=
  if r.wake then s.startWake r.lake r.n else s.modLake r.lake (fun x => { x with drawn := r.n })

/-- R377: requests served oldest first while the budget covers them; one larger than the largest budget is served when the
budget is full, and leaves 0. -/
def State.serveReqs : Nat → State → State
  | 0, s => s
  | n + 1, s =>
    match s.pwr.reqs with
    | [] => s
    | r :: rest =>
      let full : Rat := (4 * s.slope : Nat)
      let step := s.stepOf r
      let b := s.pwr.budget
      if step ≤ b ∨ (full < step ∧ full ≤ b) then
        State.serveReqs n (({ s with pwr := { s.pwr with
          reqs := rest
          budget := if step ≤ b then b - step else 0 } } : State).serveSlope r)
      else s

/-- SLOPE_GRANT (R377): `us` µs have passed: the budget accrues SLOPE / 2 W in each, up to SLOPE × 4 W, waits are counted, and
requests that it covers are served. -/
def slopeGrant (us : Nat) (s : State) : State :=
  let full : Rat := (4 * s.slope : Nat)
  let b := s.pwr.budget + (us : Rat) * (s.slope : Rat) / 2
  let waits := !s.pwr.reqs.isEmpty
  let s : State := { s with pwr := { s.pwr with budget := if b ≤ full then b else full } }
  let s := if waits then s.count .hub Reg.svcSlopeWait Reg.svcCapWrap 1 us else s
  State.serveReqs s.pwr.reqs.length s

/-- SLEW_HOLD (R378): the draw of a running lake rises by `rise` µW per µs, faster than SLOPE / 1,152 W per µs: its M-cores and
V-cores hold issue for `cycles` core cycles, and stall as for a full input. -/
def slewHold (w rise cycles : Nat) (s : State) : State :=
  if s.lakeState w ≠ 0 ∨ rise * 1152 ≤ s.slope * 1000000 then s
  else
    let s := s.count (.lake w) Reg.lakeSlewHold Reg.lakePwrWrap 2 cycles
    let ponds := (List.range 288).map (fun p => 288 * (w / 12) + p) |>.filter (fun g => decide (lakeOf g = w))
    ponds.foldl (fun s g => (List.range 16).foldl (fun s t =>
      let u := UnitId.tile g t
      match tileType t with
      | .m => if s.flag u Reg.mcoreCtrlRun then s.count u Reg.mcoreStallIn Reg.mcoreWrap 0 cycles else s
      | .v => if s.flag u Reg.vcoreCtrlRun then s.count u Reg.vcoreStallIn Reg.vcoreWrap 1 cycles else s
      | _ => s) s) s

/-! The cap (R371–R376). -/

/-- R369, R387–R389: measurements shown. -/
def State.showMeas (s : State) (m : PowerMeas) : State :=
  let s := (s.wr .hub Reg.svcPwrMeasMainW m.mainW).wr .hub Reg.svcCapMeasLinksW m.links
  let s := ((s.wr .hub Reg.svcCapMeasMemW m.mem).wr .hub Reg.svcCapMeasComputeW m.compute).wr .hub Reg.svcCapMeasLossW m.loss
  let s := m.lakes.foldl (fun s x =>
    let w := x.lake.val
    let u := UnitId.pwr (w / 12)
    let s := (s.wr (.lake w) Reg.lakePwrPower x.power).wri u Reg.pwrLakeVolt (w % 12) x.volt
    let s := (s.wri u Reg.pwrLakeAmps (w % 12) x.amps).wri u Reg.pwrLakePhTemp (w % 12) x.temp
    if s.lakeState w = 0 then s.modLake w (fun y => { y with ran := x.power % 4096 }) else s) s
  m.fields.foldl (fun s x =>
    ((s.wr (.pwr x.field) Reg.pwrBusVolt x.volt).wr (.pwr x.field) Reg.pwrBusAmps x.amps).wr (.pwr x.field)
      Reg.pwrBusConvTemp x.temp) s

/-- A lake in R372's loop: its number, priority, whether the loop may lower it, and g. -/
structure CapLake where
  lake : Nat
  prio : Nat
  free : Bool
  g : Nat
  deriving DecidableEq, Repr

/-- R372: the lake of a priority with the highest g above 4, ties to the lowest number. -/
def capPick (l : List CapLake) (prio : Nat) : Option CapLake :=
  (l.filter (fun x => x.free && decide (x.prio = prio) && decide (4 < x.g))).foldl (fun b x =>
    match b with
    | none => some x
    | some y => if y.g < x.g ∨ (y.g = x.g ∧ x.lake < y.lake) then some x else b) none

/-- R372: lower one priority while the sum exceeds the allowance. -/
def capLower (p : Nat → Nat → Rat) (allow : Rat) (prio : Nat) : Nat → List CapLake → Rat → List CapLake × Rat
  | 0, l, sum => (l, sum)
  | n + 1, l, sum =>
    if sum ≤ allow then (l, sum)
    else
      match capPick l prio with
      | none => (l, sum)
      | some x => capLower p allow prio n (l.map (fun y => if y.lake = x.lake then { y with g := y.g - 1 } else y))
          (sum - p x.lake x.g + p x.lake (x.g - 1))

/-- R372: the predicted power of a lake with grant g: a Hot lake at the floor, a Shut one 0. -/
def State.capPredict (s : State) (w g : Nat) : Rat :=
  match s.rd (.lake w) Reg.lakeThermState with
  | 3 => 0
  | 2 => s.predict w 4
  | _ => s.predict w g

/-- Floor of a rational, at least 0, at most `top`. -/
def ratNat (r : Rat) (top : Nat) : Nat := Min.min r.floor.toNat top

/-- R375: POWER commands that raise the cap or change only SLOPE complete at the next computation. -/
def State.powerApplied (s : State) : State :=
  (s.hub.cmds.filter (fun c => decide (c.op = 0x0C) && c.launched && !c.done && decide (c.stage = 1))).foldl
    (fun s c => s.finish c 0 0 0 0) s

/-- CAP_COMPUTATION (R372): 100 µs have passed. -/
def capComputation (m : PowerMeas) (s : State) : State :=
  if !s.waferOn then s.powerApplied
  else
    let was := s.flag .hub Reg.svcCapStatCapped
    let s := s.showMeas m
    let cap := s.rd .hub Reg.svcCapCtrlCapW
    let hold : Bool := decide (s.pwr.capTime ≠ 0) && decide (s.now + 1 < s.pwr.capTime + 10000000)
    -- trim in quarters of a watt
    let trim : Int := if hold then s.pwr.trim
      else Max.max (-8000) (Min.min 2000 (s.pwr.trim + ((cap : Int) - m.mainW)))
    let room : Rat := (cap : Rat) + (trim : Rat) / 4 - m.links - m.loss
    let lim := s.rd .hub Reg.svcCapStatMemLimit
    let memAt (x : Nat) : Rat := ((m.mem : Rat) - m.dram) + (m.dram : Rat) * x / (Max.max lim 1 : Nat)
    let on := (List.range numLakes).filter (fun w => decide (s.lakeState w ≠ 4))
    let floor := (on.map (fun w => s.predict w 4)).sum
    let limit := if floor ≤ room - memAt 100 then 100
      else Max.max 10 (((List.range 101).filter (fun x => decide (memAt x ≤ room - floor))).foldl Max.max 0)
    let allow := room - memAt limit
    let top (w : Nat) : Nat := Min.min (s.rd (.lake w) Reg.lakeClkLimitCeiling) (s.rd (.lake w) Reg.lakeClkLimitTherm)
    let l0 : List CapLake := on.map (fun w =>
      ⟨w, s.rd (.lake w) Reg.lakePwrPrio, decide (s.rd (.lake w) Reg.lakeThermState < 2), top w⟩)
    let sum0 := (l0.map (fun x => s.capPredict x.lake x.g)).sum
    let l := ((List.range 8).foldl (fun (a : List CapLake × Rat) prio =>
      capLower s.capPredict allow prio (16 * numLakes) a.1 a.2) (l0, sum0)).1
    let s := (List.range numFields).foldl (fun s f => s.wr (.dram f) Reg.dramThrottleLimit limit) s
    let s := l.foldl (fun s x => s.wr (.lake x.lake) Reg.lakeClkLimitGrant x.g) s
    let held := l.filter (fun x => decide (x.g < top x.lake))
    let s := (s.wr .hub Reg.svcCapStatAllowW (ratNat allow 65535)).wr .hub Reg.svcCapStatMemLimit limit
    let s := s.wr .hub Reg.svcCapStatPrio (held.foldl (fun b x => Min.min b x.prio) 7)
    let s := (s.wr .hub Reg.svcCapStatCapped (!held.isEmpty).toNat).wr .hub Reg.svcCapStatTrimW (toBits 16 (trim / 4))
    let s := if was then s.count .hub Reg.svcCappedUs Reg.svcCapWrap 0 100 else s
    ({ s with pwr := { s.pwr with trim := trim } } : State).powerApplied

/-- POWER (R322, R371, R375): the cap and SLOPE are written; a command that lowers the cap completes once MAIN_W, averaged over
10 ms (`avg`), is at or below it. -/
def powerCmd (slot avg : Nat) (s : State) : State :=
  match s.command slot 0x0C with
  | none => s
  | some c =>
    let cap := c.f 16 4
    if !c.launched then
      let old := s.rd .hub Reg.svcCapCtrlCapW
      let s := (s.wr .hub Reg.svcCapCtrlCapW cap).wr .hub Reg.svcCapCtrlSlope (c.f 20 4)
      let s : State := if cap = old then s else { s with pwr := { s.pwr with capTime := s.now + 1 } }
      s.modCmd slot (fun x => { x with
        launched := true
        stage := if cap < old then 2 else 1 })
    else if c.stage = 2 ∧ avg ≤ cap then s.finish c 0 0 0 0
    else s

/-! Lake temperature (R379–R384). -/

/-- Lakes of the same field that share a border with lake w. -/
def fieldNeighbours (w : Nat) : List Nat :=
  let x := w % 12 % 4
  let y := w % 12 / 4
  (List.range 12).filterMap (fun l =>
    let d := (l % 4 - x) + (x - l % 4) + (l / 4 - y) + (y - l / 4)
    if d = 1 then some (12 * (w / 12) + l) else none)

/-- R379: sensors that fail: outside 0–150 °C, or more than 25 °C from every other good sensor. -/
def sensorFails (good : Nat → Bool) (r : Nat → Int) (i : Nat) : Bool :=
  let others := (List.range 4).filter (fun j => decide (j ≠ i) && good j)
  decide (r i < 0) || decide (600 < r i)
    || (!others.isEmpty && others.all (fun j => decide (100 < (r i - r j).natAbs)))

/-- R380: the thermal state after two samples; Shut is left only through R384. -/
def thermNext (old prev temp : Nat) : Nat :=
  let lo := Min.min prev temp
  let hi := Max.max prev temp
  let up := if 440 ≤ lo then 3 else if 400 ≤ lo then 2 else if 380 ≤ lo then 1 else 0
  if old = 3 then 3
  else if old < up then up
  else if old = 2 ∧ hi < 392 then 1
  else if old = 1 ∧ hi < 372 then 0
  else old

/-- R382: an Opal test in the lake aborts as if work had arrived. -/
def State.abortOpal (s : State) (w : Nat) : State :=
  (s.opal.filter (fun e => e.2.active && decide (lakeOf (e.1 / 16) = w))).foldl (fun s e =>
    let s := s.opalAbort (e.1 / 16) (e.1 % 16)
    s.setOpal (e.1 / 16) (e.1 % 16) { s.opalOf (e.1 / 16) (e.1 % 16) with
      active := false
      forced := false }) s

/-- HOT_GATE (R382, R386): THERM 4, the cores gated, tests aborted, waiting requests withdrawn; a sleeping lake wakes at the
floor. -/
def State.enterHot (s : State) (w : Nat) : State :=
  let s := ((s.wr (.lake w) Reg.lakeClkLimitTherm 4).abortOpal w).withdraw w true
  s.askWake w

/-- R383: partitions with a pond in the lake fault with UNIT_FAIL. -/
def State.faultLake (s : State) (w : Nat) : State :=
  (s.present w).foldl (fun s n => s.faultWith n (w / 12) s.now 1 (s.committed n)) s

/-- SHUT (R383 steps 1 and 2). -/
def State.enterShut (s : State) (w : Nat) : State :=
  let s := (((s.wr (.lake w) Reg.lakeClkLimitTherm 4).abortOpal w).withdraw w true).sat (.lake w) Reg.lakeShuts 1
  let s := s.modLake w (fun x => { x with
    off := 1
    age := 0
    cool := 0 })
  let s : State := { s with net := { s.net with cutLakes := w :: s.net.cutLakes.filter (fun x => decide (x ≠ w)) } }
  let s := s.faultLake w
  -- a wake ends; the lake goes Off
  if s.lakeState w = 3 then s.wr (.lake w) Reg.lakeClkStatState 2 else s

/-- R383: the context of the lake's ponds can be scanned out: their partitions have stopped and drained. -/
def State.scanReady (s : State) (w : Nat) : Bool :=
  (s.present w).all (fun n =>
    let p := s.parts.get n Part.none
    decide (p.state = 1) || decide (p.state = 5) || (decide (p.state = 6) && p.drained))

/-- R383 step 4: the contexts of the lake's ponds are scanned out. -/
def State.scanLake (s : State) (w : Nat) : State :=
  (s.present w).foldl (fun s n =>
    let p := s.parts.get n Part.none
    if p.state = 1 then s
    else
      (p.sites.filter (fun x => decide (lakeOf x.2 = w))).foldl (fun s x =>
        (s.saveCtx n x.1 x.2).modPart n (fun p => { p with kept := x.1 :: p.kept.filter (fun y => decide (y ≠ x.1)) })) s) s

/-- The lake is out of the tables in force, escape is open again, and no packet is in it (R383 step 5). -/
def State.lakeClear (s : State) (w : Nat) : Bool :=
  s.net.tabLakes.contains w && !s.escapeShut
    && s.net.flights.all (fun f => match f.place with | .router i _ => decide (lakeOf (i / 16) ≠ w) | _ => true)

/-- R383 step 6: the generator stopped, the rail off. R427: an enable latched meanwhile waits its 10 s anew. -/
def State.lakeOffNow (s : State) (w : Nat) : State :=
  let u := UnitId.lake w
  let s := s.preReset (fun u => match u with
    | .tile g _ => decide (lakeOf g = w)
    | .pond g => decide (lakeOf g = w)
    | .lake v => decide (v = w)
    | _ => false)
  let s := (s.wr u Reg.lakeClkStatState 4).wr u Reg.lakeVfRail 0
  let s := ((s.wr u Reg.lakeClkStatSeq 0).wr u Reg.lakeClkStatPending 0).wr u Reg.lakeRstStatSpe 0
  let s := (s.wr u Reg.lakeRstStatReturning 0).wri (.pwr (w / 12)) Reg.pwrLakeEnabled (w % 12) 0
  s.modLake w (fun x => { x with
    off := 0
    age := 0
    cool := 0
    raise := 0
    settling := false
    ann := 0
    beats := 0
    drawn := 4 })

/-- R383 steps 4–6: what a sample finds of a lake that is going Off. -/
def State.goOff (s : State) (w : Nat) : State :=
  let x := s.lake w
  let s := s.modLake w (fun x => { x with age := x.age + 1 })
  match x.off with
  | 0 => s
  | 1 =>
    if s.scanReady w then (s.scanLake w).modLake w (fun x => { x with off := 2 })
    else if 2500 ≤ x.age then s.modLake w (fun x => { x with off := 2 })
    else s
  | _ => if s.lakeClear w then s.lakeOffNow w else s

/-- WAFER_TRIP (R385): THERM_TRIP_N, the emergency off to state 6, the event. -/
def State.trip (s : State) : State :=
  if s.power < 2 ∨ 5 < s.power then s
  else
    let w := (List.range numLakes).foldl (fun b w =>
      if s.rd (.lake b) Reg.lakeThermTemp < s.rd (.lake w) Reg.lakeThermTemp then w else b) 0
    let temp := s.rd (.lake w) Reg.lakeThermTemp
    (s.emergencyOff 5 6).postEvent 3 0 w temp 0xFF

/-- A change of thermal state is acted on and reported (R380–R383). -/
def State.thermChange (s : State) (w old new : Nat) : State :=
  let s := (s.wr (.lake w) Reg.lakeThermState new).modLake w (fun x => { x with wasHot := decide (2 ≤ new) || (x.wasHot && decide (new ≠ 0)) })
  let s := match new with
    | 1 => if old = 0 then s.wr (.lake w) Reg.lakeClkLimitTherm (s.ratio w) else s
    | 2 => s.enterHot w
    | 3 => s.enterShut w
    | _ => s
  s.lakeEvent w

/-- SENSOR_SAMPLE (R379–R385): the four sensors of lake w read the values given, in 0.25 °C steps. -/
def sensorSample (w : Nat) (r0 r1 r2 r3 : Int) (s : State) : State :=
  if !s.waferOn then s
  else
    let u := UnitId.lake w
    let r (i : Nat) : Int := [r0, r1, r2, r3].getD i 0
    let show_ (v : Int) : Nat := (Max.max 0 (Min.min 1023 v)).toNat
    let s := (((s.wr u Reg.lakeTsensS0 (show_ r0)).wr u Reg.lakeTsensS1 (show_ r1)).wr u Reg.lakeTsensS2 (show_ r2)).wr u
      Reg.lakeTsensS3 (show_ r3)
    let good (i : Nat) : Bool := !(s.lakeW w).testBit (2 + i)
    let fails := (List.range 4).filter (fun i => good i && sensorFails good r i)
    let s := fails.foldl (fun s i => s.overLake w (2 + i)) s
    let live := (List.range 4).filter (fun i => good i && !fails.contains i)
    let est := live.isEmpty
    let temp := if est then
        ((fieldNeighbours w).map (fun v => s.rd (.lake v) Reg.lakeThermTemp)).foldl Max.max 0 + 20
      else (live.map (fun i => show_ (r i))).foldl Max.max 0
    let temp := Min.min temp 1023
    let prev := (s.lake w).prev
    let s := (s.wr u Reg.lakeThermTemp temp).wr u Reg.lakeThermEst est.toNat
    let s := s.modLake w (fun x => { x with prev := temp })
    let old := s.rd u Reg.lakeThermState
    let new := thermNext old prev temp
    let s := if new = old then s else s.thermChange w old new
    -- R384: cooling while Shut; a return that finds 110 °C twice goes Off again
    let s := if old = 3 then s.modLake w (fun x => { x with cool := if temp < 340 then Min.min (x.cool + 1) 500000 else 0 }) else s
    let s := if old = 3 ∧ 440 ≤ Min.min prev temp ∧ s.flag u Reg.lakeRstStatReturning = true then
        ({ s with net := { s.net with cutLakes := w :: s.net.cutLakes.filter (fun x => decide (x ≠ w)) } } : State).modLake w
          (fun x => { x with off := 2 })
      else s
    let s := if (s.lake w).off = 0 then s else s.goOff w
    if 480 ≤ Min.min prev temp then s.trip else s

/-- THERM_STEP (R381): 1 ms has passed. -/
def thermStep (w : Nat) (s : State) : State :=
  let u := UnitId.lake w
  let t := s.rd u Reg.lakeClkLimitTherm
  match s.rd u Reg.lakeThermState with
  | 0 => s.wr u Reg.lakeClkLimitTherm (Min.min 20 (t + 1))
  | 1 => if 380 ≤ s.rd u Reg.lakeThermTemp then s.wr u Reg.lakeClkLimitTherm (Max.max 4 (t - 1)) else s
  | _ => s

/-- SHUT_RETURN (R384, R427): after 10 s below 85 °C the lake is powered at the floor and its ponds take the self-test with the
outcomes `tests`; once the table update that brings it back is in force it is in service, Normal with THERM at 4. Asked for
while the lake is going Off, the enable is latched. -/
def shutReturn (w : Nat) (tests : List (PondIx × TestFail)) (s : State) : State :=
  let u := UnitId.lake w
  let x := s.lake w
  if s.rd u Reg.lakeThermState ≠ 3 then s
  else if x.off ≠ 0 then (if x.cool = 500000 then s.wr u Reg.lakeRstStatSpe 1 else s)
  else if s.lakeState w ≠ 4 ∨ x.cool < 500000 then s
  else if !s.flag u Reg.lakeRstStatReturning then
    let s := ((s.wr u Reg.lakeRstStatReturning 1).wr u Reg.lakeVfVolt (s.mv w 4)).wr u Reg.lakeVfRail (s.mv w 4)
    let s := (s.wr u Reg.lakeClkStatN 4).wri (.pwr (w / 12)) Reg.pwrLakeEnabled (w % 12) 1
    let ponds := (List.range 288).map (fun p => 288 * (w / 12) + p) |>.filter (fun g => decide (lakeOf g = w))
    let s := ponds.foldl (fun s g => s.coldPond g (testOf tests g)) s
    { s with net := { s.net with cutLakes := s.net.cutLakes.filter (fun x => decide (x ≠ w)) } }
  else if s.net.tabLakes.contains w then s
  else
    let s := (s.clearCtrs (fun v => decide (v = u))).rebase (fun v => decide (v = u))
    let s := ((s.wr u Reg.lakeRstStatReturning 0).wr u Reg.lakeClkStatState 0).wr u Reg.lakeThermState 0
    let s := (s.wr u Reg.lakeClkLimitTherm 4).modLake w (fun x => { LakeSt.init with
      prev := x.prev
      ran := x.ran
      alerts := x.alerts })
    s.lakeEvent w

/-- DRAM_STATE (R158, R385): the hottest sensor of a stack reads `temp`; at or above 115 °C twice, the module trips. -/
def dramState (f temp : Nat) (s : State) : State :=
  let prev := s.pwr.stackPrev.get f 0
  let s := ({ s with pwr := { s.pwr with stackPrev := s.pwr.stackPrev.set f 0 temp } } : State).dramSample f temp
  if 460 ≤ prev ∧ 460 ≤ temp then s.trip else s

end Sys2Proof.Machine
end

