-- ==== Sys2Proof/Machine/Bringup.lean ====
section
/-! DEFINITION. Whole-engine bring-up (R26, R278, R279, R431–R434, R459). -/

namespace Sys2Proof.Machine

/-! What the tests of a bring-up find. -/

/-- Failed channels of field f. -/
def BringFind.chans (x : BringFind) (f : Nat) : Nat :=
  ((x.channels.filter (fun e => decide (e.1.val = f))).map (fun e => e.2.toNat)).foldl (· ||| ·) 0

/-- R24: the overlay map after the tests: a pond's units are marked or cleared; channels and generators are marked. -/
def BringFind.overlay (x : BringFind) (m : DMap) (ponds : Nat → Bool) : DMap :=
  let word (i : Nat) : Nat := (testOf x.tests (i / 16)).tileWord (i % 16)
  let bad := (x.tests.map (fun e => e.1.val)).filter ponds
  { m with
    tile := bad.foldl (fun t g => (testOf x.tests g).farEnds g t)
      ((bad.flatMap (fun g => (List.range 16).map (fun t => 16 * g + t))).foldl (fun t i => t.set i 0 (word i))
        (m.tile.clear (fun i => ponds (i / 16))))
    pond := bad.foldl (fun t g => t.set g 0 (testOf x.tests g).banks.toNat) (m.pond.clear ponds)
    lake := x.generators.foldl (fun t w => t.set w.val 0 (Tab.get t w.val 0 ||| 2)) m.lake
    field := (List.range numFields).foldl (fun t f => t.set f 0 (Tab.get t f 0 ||| x.chans f * 2 ^ 8)) m.field }

/-! Steps that both paths share. -/

/-- SVC_BRINGUP_STAT.STEP. -/
def State.bringStep (s : State) : Nat := s.rd .hub Reg.svcBringupStatStep
/-- Go to a step. -/
def State.toStep (s : State) (n : Nat) : State := s.wr .hub Reg.svcBringupStatStep n

/-- R17, R430: the supervisors run; one whose image does not verify is failed, and its pair adopts its field. -/
def State.startSupervisors (s : State) (bad : List FieldIx) : State :=
  let s : State := { s with err := { s.err with
    elog := []
    supvFailed := [] } }
  let s := (List.range numFields).foldl (fun s f =>
    let q := pairOf f
    let s := s.wr (.fld f) Reg.fldElogStatWritten 0
    if !s.supvWorks f && s.supvWorks q then (s.wr (.fld q) Reg.fldSupvAdopting 1).wr (.fld f) Reg.fldSupvAdopted 1 else s) s
  bad.foldl (fun s f => supervisorFail f.val s) s

/-- R155: the interleave of field f over the channels that are good now, nothing held. -/
def State.interleave (s : State) (f : Nat) : State :=
  s.setDram f { DramSt.init with chans := 2 ^ 32 - 1 - s.fieldW f / 256 % 2 ^ 32 }

/-- R162, R432, R433: the DRAM of field f zeroed, its seals cleared. -/
def State.wipeDram (s : State) (f : Nat) : State :=
  let s := s.zeroMem (dramKey f 0) (2 ^ 37)
  { s with
    bad := s.bad.filter (fun e => !(decide (dramKey f 0 ≤ e.1) && decide (e.1 < dramKey f 0 + 2 ^ 37)))
    img := { s.img with seals := s.img.seals.clear (fun k => decide (k = f)) } }

/-- Working map formed, R26 checked; tables and escape tree computed from it (R245). -/
def State.formTables (s : State) : State :=
  let s := s.gradeCheck (gradeCounts s.factory.grade)
  let s : State := { s with net := { s.net with
    cutPonds := []
    cutLakes := (List.range numLakes).filter (fun w => decide (s.lakeState w = 4)) } }
  let g := s.nextGraph
  { s with net := { s.net with
    tabTile := g.word
    tabPonds := g.ponds
    tabLakes := g.lakes
    update := 0
    again := false } }

/-- R278: the system size N that the next fabric has: without FABRIC-192, more than 32 modules form none. -/
def State.nextSize (s : State) (fab : Bool) : Nat :=
  if s.hub.sysSize = 0 ∨ (!fab ∧ 32 < s.hub.sysSize) then 1 else s.hub.sysSize

/-- R265, R278, R279, R292: rank, system size, port set (`fab`: FABRIC-192 is in effect), deal indices and spares as SYSTEM says;
ports dark, and spares standing by when N > 1. -/
def State.formFabric (s : State) (fab : Bool) : State :=
  let n := s.nextSize fab
  let s := (List.range numFields).foldl (fun s f =>
    let u := UnitId.opt f
    let s := ((s.wr u Reg.optSysRank s.hub.sysRank).wr u Reg.optSysSize n).wr u Reg.optSysFab192 fab.toNat
    (s.wr u Reg.optSysPromoted (decide (n % 2 = 1) && decide (1 < n)).toNat).wr u Reg.optSysActive
      (if n = 1 then 0 else activeCount fab n)) s
  let s : State := { s with
    ports := []
    net := { s.net with
      egress := []
      relay := []
      egressHold := [] } }
  (List.range numPorts).foldl (fun s p =>
    let spare := (s.spareNo p).isSome
    let s := (s.pwr_ p Reg.optPstatSpare spare.toNat).pwr_ p Reg.optPstatSubst 0
    let s := ((s.pwr_ p Reg.optPstatFails 0).pwr_ p Reg.optPeerValid 0).pwr_ p Reg.optPstatLanes 0
    let s := s.pwr_ p Reg.optPeerDeal (if spare || !s.inPortSet p || decide (n = 1) then 0xFF else s.dealOf p)
    s.pwr_ p Reg.optPstatState (if spare && s.mayTrain p then 7 else 0)) s

/-- R449: FABRIC-192 is used: its licences are verified again. -/
def State.useFabric (s : State) : State × Bool := if s.hasLicence 1 then s.useLicence 1 else (s, false)

/-- R434: what the engine must have to serve, degraded: a host bridge whose field is supervised and has a good DRAM channel, and
a good pond in a supervised field that the working network joins to that field's field links. -/
def State.serves (s : State) : Bool :=
  let g := s.nextGraph
  [19, 20, 27, 28].any (fun f =>
    !(s.fieldW f).testBit 44 && s.supervised f && decide (1 ≤ s.goodChans f)
      && (let d := g.distTo ((fieldLinks f).map (fun i => (0, i)))
          (List.range numPonds).any (fun p => s.goodPond p && s.supervised (fieldOf p)
            && (List.range 16).any (fun t => (d (16 * p + t)).isSome))))

/-- Every lake that runs falls asleep (R432 step 8, R433 step 7). -/
def State.lakesAsleep (s : State) : State :=
  (List.range numLakes).foldl (fun s w =>
    if s.lakeState w = 4 then s
    else
      let u := UnitId.lake w
      let s := (((s.wr u Reg.lakeClkStatState 2).wr u Reg.lakeClkStatN 4).wr u Reg.lakeClkStatTarget 4).wr u Reg.lakeClkStatSeq 0
      (((s.withdraw w true).wr u Reg.lakeClkStatPending 0).wr u Reg.lakeVfVolt (s.mv w 4)).modLake w (fun x => { LakeSt.init with
        prev := x.prev
        ran := x.ran
        alerts := x.alerts })) s

/-- R463: totals count from this bring-up. The counters of the hub keep their values, which become the last raw ones. -/
def State.clearTotals (s : State) : State :=
  let s : State := { s with telem := [] }
  let s := (hubCtrs.filter (fun c => decide (c.fld ≠ Reg.svcTelemStatSweeps) && decide (c.fld ≠ Reg.svcTelemStatInexact))).foldl
    (fun s c => if s.rd .hub c.fld = 0 then s
      else s.setTelem (c.fld.key .hub 0) { Telem.init with
        raw := s.rd .hub c.fld
        last := s.now }) s
  (s.wr .hub Reg.svcTelemStatSweeps 0).wr .hub Reg.svcTelemStatInexact 0

/-- The bring-up has ended: SVC_BRINGUP_STAT, and the BRINGUP commands in `l` complete. -/
def State.endBringup (s : State) (warm : Bool) (l : List HCmd) : State :=
  let s := ((s.wr .hub Reg.svcBringupStatPath 0).toStep 0).wr .hub Reg.svcBringupStatLastWarm warm.toNat
  let s := s.wr .hub Reg.svcBringupStatLastMs ((s.now - s.pwr.upAt) / 10 ^ 6)
  l.foldl (fun s c => s.finish c 0 0 0 0) s

/-- BRINGUP commands accepted and not complete. -/
def State.bringCmds (s : State) : List HCmd := s.hub.cmds.filter (fun c => decide (c.op = 0x0D) && !c.done)
/-- COLD of a BRINGUP command. -/
def HCmd.isCold (c : HCmd) : Bool := (c.f 16 1).testBit 0

/-! The cold path (R432). -/

/-- R432 step 5: every pond has taken its self-test; those good afterwards have passed it. -/
def State.testAll (s : State) (x : BringFind) : State :=
  let s' : State := { s with overlay := x.overlay s.overlay (fun _ => true) }
  { s with tests := (List.range numPonds).map (fun g =>
      if s'.goodPond g then (g, (⟨s.now + 1, false⟩ : PTest)) else (g, { s.tests.get g PTest.none with attr := true })) }

/-- R131: the bank map of every pond. -/
def State.bankMaps (s : State) : State :=
  { s with pmem := (List.range numPonds).filterMap (fun g =>
      if s.pondW g % 2 ^ 34 = 0 then none else some (g, { PondMem.init with mapFailed := s.pondW g % 2 ^ 34 })) }

/-- One step of the cold path ends. -/
def State.coldStep (s : State) (x : BringFind) : State :=
  match s.bringStep with
  | 1 => ((s.clearTotals.startSupervisors x.supervisors).toStep 2)
  | 2 =>
    -- every generator that locks runs at N = 4
    ((List.range numLakes).foldl (fun s w =>
      if s.lakeState w = 4 then s
      else if x.generators.any (fun v => decide (v.val = w)) then
        ((s.wr (.lake w) Reg.lakeClkStatState 4).wr (.lake w) Reg.lakeVfRail 0).wri (.pwr (w / 12)) Reg.pwrLakeEnabled (w % 12) 0
      else s.wr (.lake w) Reg.lakeClkStatState 0) s).toStep 3
  | 3 => ((List.range numFields).foldl State.wipeDram s).toStep 4
  | 4 => s.toStep 5
  | 5 => (s.testAll x).toStep 6
  | 6 =>
    let m := x.overlay s.overlay (fun _ => true)
    let n := m.changes s.overlay
    let s : State := if n = 0 then s else ({ s with overlay := { m with seq := s.overlay.seq + n } } : State).signOverlay
    let s := ((List.range numFields).foldl State.interleave s.bankMaps).formTables
    s.toStep 7
  | 7 => let u := s.useFabric
         (u.1.formFabric u.2).toStep 8
  | _ =>
    if s.serves then
      let s := s.lakesAsleep.setPower 4
      let s := s.endBringup false s.bringCmds
      { s with hub := { s.hub with warm := false } }
    else s

/-- BRINGUP_COLD (R431, R432): in state 3 the next step of the cold path ends; in state 4 a cold BRINGUP that may start begins
the power-down that goes before it. -/
def bringupCold (x : BringFind) (s : State) : State :=
  if s.power = 3 then s.coldStep x
  else if s.power = 4 then
    match s.bringCmds.find? (fun c => c.isCold && s.mayStart c) with
    | some _ => if s.rd .hub Reg.svcBringupStatPath = 0 then (s.abortPartCommands 1).beginOff else s
    | none => s
  else s

/-! The warm path (R433). -/

/-- R433 step 1: every partition is killed without RETAIN (R424): RUN cleared, boundaries closed, output queues emptied. -/
def State.killAll (s : State) : State :=
  (s.parts.map (fun e => e.1)).foldl (fun s n =>
    let l := (s.pondsOf n).flatMap tilesOf
    let s := ((s.abortDmaWaits n).clearRun n).closeTiles l
    (l.foldl (fun s i => s.dropOutputs i false) s).modPart n (fun p => { p with
      state := 8
      recStep := 0
      moves := [] })) s

/-- R433 step 1: the killed partitions leave, and the running set is empty; seals and what other ranks export stay. -/
def State.emptySet (s : State) (x : BringFind) : State :=
  let s := (s.parts.map (fun e => e.1)).foldl (fun s n => s.freePart n x.tests) s
  { s with
    parts := []
    img := { ImgSt.init with
      seals := s.img.seals
      peers := s.img.peers } }

/-- R433 step 3: ponds that do not qualify under R420 take a cold reset, the others are reset as R421 step 3 says. -/
def State.resetAll (s : State) (x : BringFind) : State :=
  (List.range numPonds).foldl (fun s g =>
    if s.lakeState (lakeOf g) = 4 then s
    else if s.warmOk g then s.clearPond g true
    else s.coldPond g (testOf x.tests g)) s

/-- R433 step 4: DRAM is kept, with seals; a field with a channel that failed in service has its interleave recomputed. -/
def State.keepDram (s : State) : State :=
  (List.range numFields).foldl (fun s f => if (s.dram f).dead = 0 then s else (s.wipeDram f).interleave f) s

/-- R433 step 6: rank, N and port set are unchanged. -/
def State.samePorts (s : State) (fab : Bool) : Bool :=
  decide (s.rank = s.hub.sysRank) && decide (s.ranks = s.nextSize fab) && decide (s.rd (.opt 0) Reg.optSysFab192 = fab.toNat)

/-- R270, R433 step 6: the ports are kept; their failures count from this bring-up. -/
def State.keepPorts (s : State) : State :=
  (List.range numPorts).foldl (fun s p => (s.pwr_ p Reg.optPstatFails 0).setPort p { s.port p with was := s.portUp p }) s

/-- One step of the warm path ends; `c` is the command that runs it. -/
def State.warmStep (s : State) (c : HCmd) (x : BringFind) : State :=
  match s.bringStep with
  | 1 => if s.parts.all (fun e => e.2.drained) then (s.emptySet x).toStep 2 else s
  | 2 => (s.startSupervisors x.supervisors).toStep 3
  | 3 => (s.resetAll x).toStep 4
  | 4 => s.keepDram.toStep 5
  | 5 => s.formTables.toStep 6
  | 6 => let u := s.useFabric
         (if u.1.samePorts u.2 then u.1.keepPorts else u.1.formFabric u.2).toStep 7
  | _ =>
    let s := s.lakesAsleep
    let s := s.endBringup true [c]
    { s with hub := { s.hub with warm := s.bringCmds.any (fun c => !c.isCold) } }

/-- BRINGUP (R431, R433): a BRINGUP with COLD = 0 that may start kills every partition; applied again, the next step of the warm
path ends. Counters of the wafer return to 0 (R459). -/
def bringup (slot : Nat) (x : BringFind) (s : State) : State :=
  match s.command slot 0x0D with
  | none => s
  | some c =>
    if c.isCold ∨ s.power ≠ 4 then s
    else if !c.launched then
      if s.rd .hub Reg.svcBringupStatPath ≠ 0 then s
      else
        let s : State := { s with pwr := { s.pwr with upAt := s.now } }
        let s := ((s.abortPartCommands 1).modCmd slot (fun c => { c with launched := true })).killAll
        let s := (s.clearCtrs (fun u => decide (u ≠ .hub))).clearTotals
        (s.wr .hub Reg.svcBringupStatPath 2).toStep 1
    else s.warmStep c x

end Sys2Proof.Machine
end

