-- ==== Sys2Proof/Machine/Module.lean ====
section
/-! DEFINITION. Telemetry, register writes over the service plane, and the module's hardware: coolant, laser permit, pins, SMBus,
JTAG (R61, R456, R462–R466, R472, R473, R478–R484). -/

namespace Sys2Proof.Machine

/-! Telemetry (R462–R466). -/

/-- TELEM_SWEEP (R462): a multiple of PERIOD_S seconds has passed since the last sweep: every counter is sampled. -/
def telemSweep (s : State) : State :=
  let p := s.rd .hub Reg.svcTelemCtrlPeriodS * 10 ^ 9
  let t := s.now
  if s.rd .hub Reg.svcTelemCtrlEn = 0 ∨ t / p ≤ s.rd .hub Reg.svcTelemLastTime / p then s
  else
    let s := (s.sampleUnits (fun u => !s.unitShut u)).sat .hub Reg.svcTelemStatSweeps 1
    s.wr .hub Reg.svcTelemLastTime t

/-- SVC_TELEM_SEL (R466): the counter whose total is shown. -/
def svcTelemSel (addr : Nat) (s : State) : State := s.wr .hub Reg.svcTelemSelAddr addr

/-- WRAP_WRITE_IGNORED (R465): a core or the host writes the wrap register at offset `o` of unit `u`. -/
def wrapWriteIgnored (u : UnitId) (o v : Nat) (s : State) : State :=
  if isWrapReg u o then s.csrWriteBytes u o 8 v true else s

/-- COUNTER_READ_LOW (R456): a requester (0 S-core, 1 field supervisor, 2 service controller, 3 host) reads four bytes of the
counter register at offset `o` of unit `u`: its low half, which latches the high one, or its high half. R263: an absent unit
answers UNIT_ABSENT. -/
def counterReadLow (u : UnitId) (o : Nat) (high : Bool) (who : Nat) (s : State) : State :=
  if (ctrOf u o).isNone then s
  else if s.regAbsent u o then s.answer 1 []
  else
    let r := s.csrRead32 u (o + (if high then 4 else 0)) who
    r.2.answer 0 (leBytes 4 r.1)

/-! CSR_WRITE (R61). -/

/-- R61: a hub or service register takes no value outside its range: `v` is the merged value. -/
def hubRefused (o v : Nat) : Bool :=
  match o with
  | 0x8 => decide (slice v 16 16 = 0)
  | 0x30 => decide (slice v 0 11 = 0)
  | 0x780 => decide (slice v 0 16 < 6000) || decide (25000 < slice v 0 16) || decide (slice v 16 9 = 0)
      || decide (500 < slice v 16 9)
  | 0x7F0 => decide (slice v 0 8 = 0)
  | 0x900 => decide (slice v 1 12 = 0) || decide (3600 < slice v 1 12)
  | 0x948 => decide (slice v 0 8 < 5) || decide (40 < slice v 0 8) || decide (slice v 8 8 < 30) || decide (70 < slice v 8 8)
  | _ => false

/-- A write of a register of the hub or the service controller (R293, R331, R353, R369, R387, R413, R436, R466, R490). Fields that
have a command of their own act as that command; the light that opens the ring's bypass comes with RING_EN. -/
def State.hubWrite (s : State) (o v mask : Nat) : State :=
  if hubRefused o v then s
  else if 0x50000 ≤ o ∧ o < 0x58000 then
    { s with hub := { s.hub with msixTable := s.hub.msixTable.putBytes (o - 0x50000) (leBytes 8 v) } }
  else if o = 0x8 then
    let s := s.wr .hub Reg.hubCtrlRspTmo (slice v 16 16)
    if mask.testBit 0 then clogEn (v.testBit 0) s else s
  else if o = 0x20 then clogHead (slice v 0 32) s
  else if o = 0x40 then hubBar2Base (slice v 0 7) s
  else if o = 0x48 then hubCsrWin (slice v 0 6) (slice v 8 9) s
  else if 0x400 ≤ o ∧ o < 0x600 then hubHspr ((o - 0x400) / 8) (slice v 0 32) s
  else if o = 0x600 then
    let s := if mask.testBit 1 then
        (s.wr .hub Reg.svcRingCtrlMasterEn (slice v 1 1)).judgeMaster (s.rd .hub Reg.svcRingStatMasterRank)
      else s
    if mask.testBit 0 then ringEn (v.testBit 0) false s else s
  else if o = 0x700 then
    let s := if mask.testBit 0 then s.wr .hub Reg.svcClkCtrlAutoReturn (slice v 0 1) else s
    if mask.testBit 1 && v.testBit 1 then returnWrite s else s
  else if o = 0x740 then
    let s := if mask.testBit 0 then s.wr .hub Reg.svcPwrCtrlAutoOn (slice v 0 1) else s
    if mask.testBit 1 && v.testBit 1 then s.beginOff else s
  else if o = 0x780 then
    let old := s.rd .hub Reg.svcCapCtrlCapW
    let s := s.csrStore .hub o v mask
    if s.rd .hub Reg.svcCapCtrlCapW = old then s else { s with pwr := { s.pwr with capTime := s.now + 1 } }
  else s.csrStore .hub o v mask

/-- A write of an optical engine's register (R292). -/
def State.optWrite (s : State) (f o v mask : Nat) : State :=
  if 0x100 ≤ o ∧ o < 0x200 ∧ o % 64 = 0 then
    let p := 4 * f + (o - 0x100) / 64
    let s := if mask.testBit 2 then holdDown p (v.testBit 2) s else s
    let s := if mask.testBit 0 then portEn p (v.testBit 0) s else s
    if mask.testBit 1 && v.testBit 1 then retrain p s else s
  else s.csrStore (.opt f) o v mask

/-- CSR_WRITE (R61, R315, R316): `n` bytes of the register at offset `o` of a unit; `svc`: over the service plane, else by a core. A
unit without power takes no write. -/
def csrWriteCmd (u : UnitId) (o n v : Nat) (svc : Bool) (s : State) : State :=
  if !regOpOk o n || s.regAbsent u o then s
  else
    let r := o / 8 * 8
    let val := v % 2 ^ (8 * n) * 2 ^ (8 * (o % 8))
    let mask := (2 ^ (8 * n) - 1) * 2 ^ (8 * (o % 8))
    if s.wrapIgnored u r then s.sat .hub Reg.svcTelemWrIgnCount 1
    else
      let merged := maskMerge (s.csrRead u r) val mask
      match u with
      | .hub => s.hubWrite r merged mask
      | .opt f => s.optWrite f r merged mask
      | .fld _ => s.csrStore u r val mask
      | .pwr _ => s.csrStore u r val mask
      | _ => s.csrWriteBytes u o n v svc

/-! Pins (R478). -/

/-- AUX is qualified and the hub is not held in reset. -/
def State.hubOn (s : State) : Bool := s.flag .hub Reg.svcPwrStatAuxOk && !s.pwr.modReset
/-- THERM_TRIP_N is low. -/
def State.thermTripLow (s : State) : Bool := decide (s.power = 6)
/-- LASER_PERMIT_N is low. -/
def State.laserPermitLow (s : State) : Bool := s.flag .hub Reg.svcPwrStatAuxOk && s.flag .hub Reg.svcModStatSupplySeated
/-- R480: the conditions of SMB_ALERT_N: bit 0 alert in force, 1 COOL_WARN, 2 state 6. -/
def State.smbConds (s : State) : Nat :=
  bitsOf [s.flag .hub Reg.svcPwrStatAlert, s.flag .hub Reg.svcModStatCoolWarn, decide (s.power = 6)]
/-- SMB_ALERT_N is low: a condition holds that no alert response has answered. -/
def State.smbAlertLow (s : State) : Bool := s.hubOn && decide (s.smbConds &&& s.pwr.smbSeen ≠ s.smbConds)
/-- R481: what the boundary-scan chain drives: the preloaded cells under EXTEST while MOD_RESET_N is asserted. -/
def State.scanDrive (s : State) : Option (List Bool) :=
  if s.pwr.modReset ∧ s.pwr.jtag = 3 then some s.pwr.boundary else none

/-! Coolant and laser supply (R472, R473, R484). -/

/-- The coolant conditions of a sample: bit 0 rise above the limit, 1 outlet above its limit, 2 a sensor out of range; `less` is
what both limits are lowered by, in quarters of a kelvin. -/
def State.coolConds (s : State) (inlet outlet : Int) (less : Int) : Nat :=
  let dt : Int := (4 * s.rd .hub Reg.svcModCfgDtLimit : Nat)
  let top : Int := (4 * s.rd .hub Reg.svcModCfgOutLimit : Nat)
  let out (x : Int) : Bool := decide (x < 0) || decide (400 < x)
  bitsOf [decide (inlet + dt - less < outlet), decide (top - less < outlet), out inlet || out outlet]

/-- COOLANT_SAMPLE (R472, R473): 100 ms have passed; inlet and outlet in 0.25 °C steps. -/
def coolantSample (inlet outlet : Int) (s : State) : State :=
  if !s.hubOn then s
  else
    let show_ (x : Int) : Nat := (Max.max 0 (Min.min 1023 x)).toNat
    let s := (s.wr .hub Reg.svcModStatCoolIn (show_ inlet)).wr .hub Reg.svcModStatCoolOut (show_ outlet)
    let now := s.coolConds inlet outlet 0
    let both := now &&& s.pwr.coolPrev
    let cause := if both.testBit 0 then some 0 else if both.testBit 1 then some 1 else if now.testBit 2 then some 2 else none
    let clear := if s.coolConds inlet outlet 8 = 0 then Min.min (s.pwr.coolClear + 1) 100 else 0
    let s : State := { s with pwr := { s.pwr with
      coolPrev := now
      coolClear := clear } }
    if s.flag .hub Reg.svcModStatCoolWarn then
      (if clear = 100 then (s.wr .hub Reg.svcModStatCoolWarn 0).forgetSeen 1 else s)
    else
      match cause with
      | none => s
      | some a => ((s.wr .hub Reg.svcModStatCoolWarn 1).sat .hub Reg.svcCoolWarns 1).postEvent 0x1B 0 a
          (show_ inlet + show_ outlet * 2 ^ 16) 0xFF

/-- LASER_PERMIT_N (R478, R484): the supply connector is seated or unseated; unseated, the ports that its supplies feed go down. -/
def laserPermitN (seated : Bool) (s : State) : State :=
  if ¬ s.flag .hub Reg.svcPwrStatAuxOk then s
  else
    let s := s.wr .hub Reg.svcModStatSupplySeated seated.toNat
    if seated then s
    else (List.range 12).foldl (fun s i => if s.rd (.opt (4 * i)) Reg.optLaserPresent = 1 then laserLost i s else s) s

/-! SMBus (R480). -/

/-- The hub answers: in states 1–6, out of reset. -/
def State.smbAnswers (s : State) : Bool := s.hubOn && decide (1 ≤ s.power) && decide (s.power ≤ 6)

/-- A read of n bytes over SMBus. -/
def State.smbRead (s : State) (n v : Nat) : State :=
  if s.smbAnswers then s.answer 0 (leBytes n v) else s.answer 1 []

/-- PWR_STAT: SVC_PWR_STAT [15:0]. -/
def smbPwrStat (s : State) : State := s.smbRead 2 (s.csrRead .hub 0x748)
/-- MAIN_V, in 10 mV. -/
def smbMainV (s : State) : State := s.smbRead 2 (s.rd .hub Reg.svcPwrMeasMainV)
/-- MAIN_W. -/
def smbMainW (s : State) : State := s.smbRead 2 (s.rd .hub Reg.svcPwrMeasMainW)
/-- AUX_V, in mV. -/
def smbAuxV (s : State) : State := s.smbRead 2 (s.rd .hub Reg.svcPwrMeasAuxV)
/-- WAFER_TEMP: the hottest lake, Off lakes included. -/
def smbWaferTemp (s : State) : State :=
  s.smbRead 2 ((List.range numLakes).foldl (fun m w => Max.max m (s.rd (.lake w) Reg.lakeThermTemp)) 0)
/-- COOL_IN. -/
def smbCoolIn (s : State) : State := s.smbRead 2 (s.rd .hub Reg.svcModStatCoolIn)
/-- COOL_OUT. -/
def smbCoolOut (s : State) : State := s.smbRead 2 (s.rd .hub Reg.svcModStatCoolOut)
/-- CAP_W. -/
def smbCapW (s : State) : State := s.smbRead 2 (s.rd .hub Reg.svcCapCtrlCapW)
/-- FLAGS. -/
def smbFlags (s : State) : State :=
  s.smbRead 1 (bitsOf [s.flag .hub Reg.svcPwrStatAlert, s.flag .hub Reg.svcModStatCoolWarn, decide (s.power = 6),
    s.flag .hub Reg.svcPwrStatModReady, s.laserPermitLow, decide (s.rd .hub Reg.hubStatusLinkWidth ≠ 0)])
/-- SERIAL: 16 bytes. -/
def smbSerial (s : State) : State := s.smbRead 16 (leNat (Config.moduleSerial.take 16))
/-- LAST_OFF. -/
def smbLastOff (s : State) : State := s.smbRead 1 (s.rd .hub Reg.svcPwrStatLastOff)

/-- SMB_WAFER_OFF (R362, R480): a write of `v`; `pec`: its error code is right, or there is none. -/
def smbWaferOff (v : Byte) (pec : Bool) (s : State) : State :=
  if s.smbAnswers && pec && decide (v = 0xA5) && s.flag .hub Reg.svcModCfgSmbOffEn then s.beginOff else s

/-- ALERT_RESPONSE (R480): asserting SMB_ALERT_N, the hub answers with its address and releases it. -/
def alertResponse (s : State) : State :=
  if s.smbAnswers && s.smbAlertLow then
    ({ s with pwr := { s.pwr with smbSeen := s.smbConds } } : State).answer 0
      (leBytes 1 (2 * (0x58 + s.rd .hub Reg.svcModStatSmbAddr)))
  else s.answer 1 []

/-! JTAG (R481). -/

/-- Select an instruction. -/
def State.jtagInst (s : State) (n : Nat) : State := { s with pwr := { s.pwr with jtag := n } }

/-- The port works. -/
def State.jtagOn (s : State) : Bool := s.flag .hub Reg.svcPwrStatAuxOk

/-- BYPASS: the one-bit register captures 0. -/
def jtagBypass (s : State) : State := if s.jtagOn then (s.jtagInst 0).answer 0 [0] else s.answer 1 []

/-- IDCODE. -/
def jtagIdcode (s : State) : State := if s.jtagOn then (s.jtagInst 1).answer 0 (leBytes 4 0x1A4803B5) else s.answer 1 []

/-- The cells captured from the pins, one byte each (DESIGN CHOICE, log entry 9). -/
def State.cells (s : State) : List Byte := (Config.boundaryCells s.free).map (fun b => if b then 1 else 0)

/-- SAMPLE_PRELOAD: the cells are captured and `cells` preloaded; outside MOD_RESET_N as BYPASS. -/
def samplePreload (cells : List Bool) (s : State) : State :=
  if !s.jtagOn then s.answer 1 []
  else if !s.pwr.modReset then (s.jtagInst 2).answer 0 [0]
  else (({ s with pwr := { s.pwr with
      boundary := cells
      jtag := 2 } } : State).drawn).answer 0 s.cells

/-- EXTEST: the preloaded cells drive the pins and the cells are captured; outside MOD_RESET_N as BYPASS. -/
def extest (s : State) : State :=
  if !s.jtagOn then s.answer 1 []
  else if !s.pwr.modReset then (s.jtagInst 3).answer 0 [0]
  else ((s.jtagInst 3).drawn).answer 0 s.cells

end Sys2Proof.Machine
end

