-- ==== Sys2Proof/Machine/Exec.lean ====
section
/-! DEFINITION. What every meaning shares: where a command acts, and what commands of its kind never touch. -/

namespace Sys2Proof.Machine

/-- What a command answers. -/
abbrev Result := Host.Outcome State Fault Refusal

/-! Where a command acts. An event that cannot happen in the state at hand has no effect (DESIGN CHOICE, log entry 3). -/

/-- A core does it: its lake is clocked, it works and is not Off, and no forced test withholds it (R17, R211, R347, R396). -/
def State.atCore (s : State) (g t : Nat) (f : State → State) : State :=
  if s.clocked g && !s.withheld g t && !(s.tileW g t).testBit 0 && !s.tileOff g t then f s else s

/-- An A-unit does it: its lake is clocked, it works and is not Off. What has started goes on while a test waits (R396). -/
def State.atAunit (s : State) (g t : Nat) (f : State → State) : State :=
  if s.clocked g && !(s.tileW g t).testBit 0 && !s.tileOff g t then f s else s

/-- A unit of pond g does it on the core clock. -/
def State.atPond (s : State) (g : Nat) (f : State → State) : State := if s.clocked g then f s else s

/-- A register of a unit is written: the unit is present and has power. -/
def State.atUnit (s : State) (u : UnitId) (f : State → State) : State := if s.ctrAbsent u then s else f s

/-- A unit that the command names, if there is one. -/
def State.atNamed (s : State) (u : UnitId) (f : State → State) : State := if u.ok then f s else s

/-- The hub does it: it is out of reset (R356, R358). -/
def State.atHub (s : State) (f : State → State) : State := if s.hubOn then f s else s

/-! What a command leaves alone. -/

/-- The queue of commands is no part of a command's effect, and the factory map is in fuses (R21). -/
def State.ends (s t : State) : Result :=
  .next { t with
    pending := s.pending
    factory := s.factory }

/-- Only the commands of chapter 18 and the resets of the hub reach the fuses, the flash slots, the SPDM connection and the IDE
keys (R437–R451). -/
def State.endsOutside (s t : State) : Result := s.ends { t with trust := s.trust }

/-- A command of the module outside the wafer leaves what the wafer holds. -/
def State.endsQuiet (s t : State) : Result :=
  s.endsOutside { t with
    mem := s.mem
    bad := s.bad
    queues := s.queues
    steers := s.steers
    springs := s.springs
    waiters := s.waiters
    evals := s.evals
    senders := s.senders
    arrivals := s.arrivals
    mcores := s.mcores
    vcores := s.vcores
    scores := s.scores
    gens := s.gens
    pmem := s.pmem
    opal := s.opal
    saved := s.saved
    net := s.net
    overlay := s.overlay
    parts := s.parts
    img := s.img
    drams := s.drams
    colls := s.colls
    closed := s.closed
    drainDone := s.drainDone
    tests := s.tests
    ports := s.ports }

end Sys2Proof.Machine
end

