-- ==== Sys2Proof/Machine/RunClocks.lean ====
section
/-! DEFINITION. The commands of the clocks: one meaning per row of the table. -/

namespace Sys2Proof.Machine

/-- REFIN_WINDOW. R335: a monitor window of 10 µs ends. -/
def execRefinWindow (edges : Nat) (missing : Bool) (s : State) : Result :=
s.endsQuiet (s.atHub (refinWindow edges missing))

/-- CLOCK_FAIL. R337: REFIN fails. -/
def execClockFail (missing : Bool) (s : State) : Result :=
s.endsQuiet (s.atHub (clockFail missing))

/-- RETURN. R338: a write of RETURN. -/
def execRefinReturn (s : State) : Result :=
s.endsQuiet (s.atHub (returnWrite))

/-- AUTO_RETURN. R338: the clock returns by itself. -/
def execAutoReturn (s : State) : Result :=
s.endsQuiet (s.atHub (autoReturn))

/-- TRIM_STORE. R333: the trim is stored. -/
def execTrimStore (s : State) : Result :=
s.endsQuiet (s.atHub (trimStore))

/-- BEAT. R350: a beat boundary; `edges`: lakes that miscount, `slips`: errors of their copies of T. -/
def execBeat (edges : List (LakeIx × Nat)) (slips : List (LakeIx × Int)) (s : State) : Result :=
s.endsOutside (s.atHub (beat edges slips))

/-- TIME_RELOAD. R351: the hub sends its time. -/
def execTimeReload (s : State) : Result :=
s.endsOutside (s.atHub (timeReload))

/-- DROOP_ONSET. R342: the rail reads `mv`. -/
def execDroopOnset (w : LakeIx) (mv : Nat) (s : State) : Result :=
s.endsOutside (droopOnset w mv s)

/-- DROOP_CLEAR. R342: 64 clean beats have passed. -/
def execDroopClear (w : LakeIx) (s : State) : Result :=
s.endsOutside (droopClear w s)

/-- SETTLE_WAIT_END. R344: the settle wait of a raise ends. -/
def execSettleWaitEnd (w : LakeIx) (mv : Nat) (s : State) : Result :=
s.endsOutside (settleWaitEnd w mv s)

/-- DIVIDER_SWITCH. R343: the dividers switch. -/
def execDividerSwitch (w : LakeIx) (s : State) : Result :=
s.endsOutside (dividerSwitch w s)

/-- PHASE_TRIM. R341: the generators step their trims; `skews`: border skews measured. -/
def execPhaseTrim (skews : List (LakeIx × Fin 4 × Int)) (s : State) : Result :=
s.endsOutside (phaseTrim skews s)

/-- WARM_SLEEP. R348: the lake goes warm asleep. -/
def execWarmSleep (w : LakeIx) (s : State) : Result :=
s.endsOutside (warmSleep w s)

/-- COLD_SLEEP. R348: the lake goes cold asleep. -/
def execColdSleep (w : LakeIx) (s : State) : Result :=
s.endsOutside (coldSleep w s)

/-- WAKE_TRIGGER. R349: a wake trigger. -/
def execWakeTrigger (w : LakeIx) (s : State) : Result :=
s.endsOutside (wakeTrigger w s)

/-- WAKE_DONE. R349: the lake is awake. -/
def execWakeDone (w : LakeIx) (mv : Nat) (s : State) : Result :=
s.endsOutside (wakeDone w mv s)

end Sys2Proof.Machine
end

