-- ==== Sys2Proof/Machine/RunCores.lean ====
section
/-! DEFINITION. The commands of the matrix cores, vector cores: one meaning per row of the table. -/

namespace Sys2Proof.Machine

/-- CSR_WRITE. R61: a write of `n` bytes of the register at offset `o` of unit `u`, over the service plane or by a core. -/
def execCsrWrite (u : UnitId) (o n v : Nat) (svc : Bool) (s : State) : Result :=
s.endsOutside (s.atNamed u (csrWriteCmd u o n v svc))

/-- SUPERVISOR_FAIL. R17: the supervisor of a field fails. -/
def execSupervisorFail (f : FieldIx) (s : State) : Result :=
s.endsOutside (supervisorFail f s)

/-- GATE_BUFFER_WRITE. R33, R36: an entry of queue 0 enters the gate buffer. -/
def execGateBufferWrite (g : PondIx) (m : Fin 8) (dt : Nat) (s : State) : Result :=
s.endsOutside (s.atCore g (mPos m) (gateBufferWrite g (mPos m) dt))

/-- GATE_DEADLINE. R36: the gate deadline expires. -/
def execGateDeadline (g : PondIx) (m : Fin 8) (dt : Nat) (s : State) : Result :=
s.endsOutside (s.atCore g (mPos m) (gateDeadlineExpires g (mPos m) dt))

/-- MCORE_CTRL_RUN. R40: a write of MCORE_CTRL.RUN. -/
def execMcoreCtrlRun (g : PondIx) (m : Fin 8) (v : Bool) (s : State) : Result :=
s.endsOutside (s.atUnit (.tile g (mPos m)) (mcoreRunWrite g (mPos m) v))

/-- MCORE_DRAIN. R37: a write of DRAIN. -/
def execMcoreDrain (g : PondIx) (m : Fin 8) (s : State) : Result :=
s.endsOutside (s.atUnit (.tile g (mPos m)) (fun s => mcoreDrain g (mPos m) (s.batchDrain g (mPos m))))

/-- MCORE_DRAIN_DONE. R37: the drain has ended. -/
def execMcoreDrainDone (g : PondIx) (m : Fin 8) (s : State) : Result :=
s.endsOutside (s.atCore g (mPos m) (mcoreDrainDone g (mPos m)))

/-- GATE_RELEASE. R37: a write of GATE_RELEASE. -/
def execGateRelease (g : PondIx) (m : Fin 8) (s : State) : Result :=
s.endsOutside (s.atUnit (.tile g (mPos m)) (gateReleaseWrite g (mPos m)))

/-- MCORE_GATE_WRITE. R39, R40: a write of MCORE_GATE. -/
def execMcoreGateWrite (g : PondIx) (m : Fin 8) (v : DWord) (s : State) : Result :=
s.endsOutside (s.atUnit (.tile g (mPos m)) (mcoreGateWrite g (mPos m) v))

/-- MCORE_MODE. R47: a write of MODE. -/
def execMcoreMode (g : PondIx) (m : Fin 8) (v : Bool) (s : State) : Result :=
s.endsOutside (s.atUnit (.tile g (mPos m)) (mcoreModeWrite g (mPos m) v))

/-- MODE_CHANGE_APPLY. R47: the latched MODE takes effect. -/
def execModeChangeApply (g : PondIx) (m : Fin 8) (s : State) : Result :=
s.endsOutside (s.atCore g (mPos m) (modeChangeApply g (mPos m)))

/-- SEGMENT_CHECK. R49–R52: a check segment of array `a` ends, with the upsets that struck it. -/
def execSegmentCheck (g : PondIx) (m : Fin 8) (a : Fin 4) (ups : List Upset) (dt : Nat) (c : Fin 20) (s : State) : Result :=
s.endsOutside (s.atCore g (mPos m) (segmentCheck g (mPos m) a ups dt c))

/-- ROTATED_RECOMPUTE_DONE. R53: the recompute of array `a` ends, with the upsets that struck it. -/
def execRotatedRecomputeDone (g : PondIx) (m : Fin 8) (a : Fin 4) (ups : List Upset) (s : State) : Result :=
s.endsOutside (s.atCore g (mPos m) (rotatedRecomputeDone g (mPos m) a ups))

/-- QUARTER_FINAL. R41: a final quarter moves into the block buffer. -/
def execQuarterFinal (g : PondIx) (m : Fin 8) (a : Fin 4) (dt : Nat) (s : State) : Result :=
s.endsOutside (s.atCore g (mPos m) (quarterFinal g (mPos m) a dt))

/-- EPILOGUE_ROW. R43: one row of the epilogue. -/
def execEpilogueRow (g : PondIx) (m : Fin 8) (seen : RowSeen) (s : State) : Result :=
s.endsOutside (s.atCore g (mPos m) (epilogueRow g (mPos m) seen.dt seen.ecc))

/-- ELEMENT_WISE_ENTRY. R46: one entry in element-wise mode. -/
def execElementWiseEntry (g : PondIx) (m : Fin 8) (seen : RowSeen) (s : State) : Result :=
s.endsOutside (s.atCore g (mPos m) (elementWiseEntry g (mPos m) seen.dt seen.ecc))

/-- SPARSE_RECORD_LOAD. R92: array `a` loads a quarter record. -/
def execSparseRecordLoad (g : PondIx) (m : Fin 8) (a : Fin 4) (s : State) : Result :=
s.endsOutside (s.atCore g (mPos m) (sparseRecordLoad g (mPos m) a))

/-- NEURON_MASK_PAIR. R103: a neuron mask is paired with its row. -/
def execNeuronMaskPair (g : PondIx) (m : Fin 8) (dt : Nat) (s : State) : Result :=
s.endsOutside (s.atCore g (mPos m) (neuronMaskPair g (mPos m) dt))

/-- TOKEN_AT_HEAD. R177: a token other than WAIT is at the head of input queue `q`. -/
def execTokenAtHead (g : PondIx) (t : Fin 16) (q : Fin 8) (s : State) : Result :=
s.endsOutside (s.atCore g t (tokenAtHead g t q))

/-- VCORE_ENTRY. R109: a V-core takes an entry; `dt` cycles it waited, `gw` cycles its accesses waited. -/
def execVcoreEntry (g : PondIx) (v : Fin 4) (dt gw : Nat) (s : State) : Result :=
s.endsOutside (s.atCore g (vPos v) (vcoreEntry g (vPos v) dt gw))

/-- VCORE_SET_WRITE. R117: a write of VCORE_CTRL.SET. -/
def execVcoreSetWrite (g : PondIx) (v : Fin 4) (n : Fin 4) (s : State) : Result :=
s.endsOutside (s.atUnit (.tile g (vPos v)) (vcoreSetWrite g (vPos v) n))

/-- VCORE_DRAIN. R126: a write of DRAIN. -/
def execVcoreDrain (g : PondIx) (v : Fin 4) (s : State) : Result :=
s.endsOutside (s.atUnit (.tile g (vPos v)) (fun s => vcoreDrain g (vPos v) (s.batchDrain g (vPos v))))

/-- SELECTION_ROW. R118: a row in selection mode. -/
def execSelectionRow (g : PondIx) (v : Fin 4) (dt : Nat) (s : State) : Result :=
s.endsOutside (s.atCore g (vPos v) (selectionRow g (vPos v) dt))

end Sys2Proof.Machine
end

