-- ==== Sys2Proof/Machine/RunFabric.lean ====
section
/-! DEFINITION. The commands of the wafer network, the optical fabric and the collectives: one meaning per row of the table. -/

namespace Sys2Proof.Machine

/-- LINK_CRC_ERROR. R235: a bad link CRC at port `q` of a router. -/
def execLinkCrcError (router : Fin 221184) (q : Fin 4) (s : State) : Result :=
s.endsOutside (s.linkCrcError router q)

/-- PACKET_HOP. R243: one cycle of an output port or a crossbar. -/
def execPacketHop (x : HopAt) (s : State) : Result :=
s.endsOutside (s.packetHop x)

/-- ESCAPE_ENTRY. R244: the packet in flight `n` enters the escape channel. -/
def execEscapeEntry (n : Nat) (s : State) : Result :=
s.endsOutside (s.escapeEntry n)

/-- TABLE_UPDATE. R253: the next step of a table update; `late`: its drain is 100 µs old. -/
def execTableUpdate (late : Bool) (s : State) : Result :=
s.endsOutside (s.tableUpdate late)

/-- MCAST. R255: a multicast is issued or served. -/
def execMcast (a : McastAct) (s : State) : Result :=
s.endsOutside (s.mcast a)

/-- HOLD_SLOT_SEND. R257: a copy leaves its hold slot. -/
def execHoldSlotSend (router : Fin 221184) (q : Fin 6) (dt : Nat) (s : State) : Result :=
s.endsOutside (s.holdSlotSend router q dt)

/-- REDUCE. R260: a REDUCE combines. -/
def execReduce (a : ReduceAct) (s : State) : Result :=
s.endsOutside (reduceCmd a s)

/-- DATA_FRAME. R267: an optical frame is sent or received. -/
def execDataFrame (p : PortIx) (e : FrameEv) (s : State) : Result :=
s.endsOutside (dataFrame p e s)

/-- NAK. R268: a NAK frame names SEQ. -/
def execNak (p : PortIx) (seq : BitVec 16) (s : State) : Result :=
s.endsOutside (nakFrame p seq.toNat s)

/-- PORT_TRAINING. R270: training goes on. -/
def execPortTraining (p : PortIx) (e : TrainEv) (s : State) : Result :=
s.endsOutside (portTraining p e s)

/-- TRAINING_RETRY. R270: a down port tries again. -/
def execTrainingRetry (p : PortIx) (s : State) : Result :=
s.endsOutside (trainingRetry p s)

/-- LANE_DROP. R273: lanes fail. -/
def execLaneDrop (p : PortIx) (lost : BitVec 16) (s : State) : Result :=
s.endsOutside (laneDrop p lost s)

/-- LASER_LOW. R276: wavelength `j` of supply `i` is low. -/
def execLaserLow (i : Fin 12) (j : Fin 16) (s : State) : Result :=
s.endsOutside (laserLow i j s)

/-- LASER_LOST. R276: supply `i` has been dark for 10 µs. -/
def execLaserLost (i : Fin 12) (s : State) : Result :=
s.endsOutside (laserLost i s)

/-- PORT_DOWN. R283: a port fails. -/
def execPortDown (p : PortIx) (s : State) : Result :=
s.endsOutside (portDown p s)

/-- SPARE_LIGHT. R284: a spare serves the pair. -/
def execSpareLight (p : PortIx) (seen : SpareSeen) (s : State) : Result :=
s.endsOutside (spareLight p seen.peer seen.ok s)

/-- RETRAIN. R270: a write of RETRAIN. -/
def execRetrain (p : PortIx) (s : State) : Result :=
s.endsOutside (retrain p s)

/-- HOLD_DOWN. R283: a write of HOLD_DOWN. -/
def execHoldDown (p : PortIx) (v : Bool) (s : State) : Result :=
s.endsOutside (holdDown p v s)

/-- PORT_EN. R292: a write of OPT_PCTRL.EN. -/
def execPortEn (p : PortIx) (v : Bool) (s : State) : Result :=
s.endsOutside (portEn p v s)

/-- RING_FRAME. R288: a ring frame arrives; `hop`, `regen`: delays in ps; `ppm`: the frequency error measured. -/
def execRingFrame (portB : Bool) (f : RingFrame) (hop regen : Nat) (ppm : BitVec 16) (s : State) : Result :=
s.endsOutside (s.atHub (ringFrame portB f hop regen ppm))

/-- RING_STATE. R291: the topology and the light found. -/
def execRingState (topo : Fin 4) (lightA lightB cut : Bool) (s : State) : Result :=
s.endsOutside (s.atHub (ringState topo lightA lightB cut))

/-- RING_EN. R290: a write of SVC_RING_CTRL.EN. -/
def execRingEn (v locked : Bool) (s : State) : Result :=
s.endsOutside (s.atHub (ringEn v locked))

/-- CONTRIBUTING_QUEUE_ENTRY. R300: a contributing queue sends its entry. -/
def execContributingQueueEntry (g : PondIx) (t : Fin 16) (q : Fin 8) (s : State) : Result :=
s.endsOutside (s.atPond g (contributingQueueEntry g t q))

/-- START_MARKER. R306: the start marker in flight `n` arrives. -/
def execStartMarker (n dt : Nat) (s : State) : Result :=
s.endsOutside (startMarker n dt s)

/-- MEMORY_MODE_COMBINE. R304: a context in memory mode combines. -/
def execMemoryModeCombine (f : FieldIx) (c : Fin 16) (p : Fin 2) (s : State) : Result :=
s.endsOutside (memoryModeCombine f c p s)

/-- COLL_TIMEOUT. R308: a context times out. -/
def execCollTimeout (f : FieldIx) (c : Fin 16) (s : State) : Result :=
s.endsOutside (collTimeout f c s)

/-- EXPORT_RECEIVED. R216: rank `r` publishes the ponds of a partition. -/
def execExportReceived (r : BitVec 6) (part : PartIx) (sites : List (Nat × PondIx)) (s : State) : Result :=
s.endsOutside (s.atHub (exportReceived r.toNat part sites))

end Sys2Proof.Machine
end

