-- ==== Sys2Proof/Machine/RunFaults.lean ====
section
/-! DEFINITION. The commands of the faults, tests and resets: one meaning per row of the table. -/

namespace Sys2Proof.Machine

/-- OPAL_OFFER. R393: a test is offered; `idle`: tiles idle for 2,000 core cycles. -/
def execOpalOffer (f : FieldIx) (idle : List (Fin 288 × BitVec 16)) (s : State) : Result :=
s.endsOutside (opalOffer f idle s)

/-- OPAL_SEGMENT. R394: a segment ends with a signature. -/
def execOpalSegment (g : PondIx) (t : Fin 16) (sig : BitVec 64) (s : State) : Result :=
s.endsOutside (opalSegment g t sig s)

/-- OPAL_DUE. R392: the last pass is 24 hours old. -/
def execOpalDue (g : PondIx) (t : Fin 16) (s : State) : Result :=
s.endsOutside (opalDueDay g t s)

/-- ERROR_RECORD_LOG. R403: the oldest record on its way is logged. -/
def execErrorRecordLog (f : FieldIx) (s : State) : Result :=
s.endsOutside (errorRecordLog f s)

/-- MODULE_LOG_APPEND. R404: the records that wait enter the module log. -/
def execModuleLogAppend (s : State) : Result :=
s.endsOutside (s.atHub (moduleLogAppend))

/-- RECOVERY. R407: recovery of a partition goes on. -/
def execRecovery (p : PartIx) (s : State) : Result :=
s.endsOutside (s.atHub (recovery p))

/-- TILE. R493: a tile reset; `bad`: a word does not read back as zero. -/
def execTile (g : PondIx) (t : Fin 16) (bad : Bool) (s : State) : Result :=
s.endsOutside (tileReset g t bad s)

/-- COLD. R418: a pond cold reset; `x`: what its self-test finds. -/
def execCold (g : PondIx) (x : TestFail) (s : State) : Result :=
s.endsOutside (coldReset g x s)

/-- DRAIN_END. R415: a drain ends or times out. -/
def execDrainEnd (b : Boundary) (s : State) : Result :=
s.endsOutside (drainEnd b s)

/-- BROADCAST_CHUNK. R428: a chunk arrives at a receiver. -/
def execBroadcastChunk (g : PondIx) (object chunk : Nat) (crc : BitVec 32) (len : Nat) (bs : List Byte) (s : State) : Result
    :=
s.endsOutside (broadcastChunk g object chunk crc.toNat len bs s)

/-- BROADCAST_REPAIR. R429: the sender repairs what a receiver misses. -/
def execBroadcastRepair (g : PondIx) (bs : List Byte) (rounds : Nat) (again : Bool) (s : State) : Result :=
s.endsOutside (broadcastRepair g bs rounds again s)

end Sys2Proof.Machine
end

