-- ==== Sys2Proof/Machine/RunHost.lean ====
section
/-! DEFINITION. The commands of the host interface: one meaning per row of the table. -/

namespace Sys2Proof.Machine

/-- NOP. R322: the accepted command in `slot` is NOP. -/
def execNop (slot : Fin 1024) (s : State) : Result :=
s.endsOutside (s.atHub (nopCmd slot))

/-- SYSTEM. R322: SYSTEM. -/
def execSystem (slot : Fin 1024) (s : State) : Result :=
s.endsOutside (s.atHub (systemCmd slot))

/-- LOAD. R229: LOAD goes on; `bad`: words that do not scrub; `failed`: receivers that fail. -/
def execLoad (slot : Fin 1024) (bad : List (PondIx × TestFail)) (failed : List PondIx) (s : State) : Result :=
s.endsOutside (s.atHub (loadCmd slot bad failed))

/-- START. R422: START without RESTORE; `tests`: what self-tests find. -/
def execStart (slot : Fin 1024) (tests : List (PondIx × TestFail)) (s : State) : Result :=
s.endsOutside (s.atHub (startCmd slot tests))

/-- START_RESTORE. R422: START with RESTORE. -/
def execStartRestore (slot : Fin 1024) (tests : List (PondIx × TestFail)) (s : State) : Result :=
s.endsOutside (s.atHub (startRestore slot tests))

/-- PEER_UNPLACED. R216: remote fix-ups have stayed unpublished for 1 s. -/
def execPeerUnplaced (slot : Fin 1024) (s : State) : Result :=
s.endsOutside (s.atHub (peerUnplaced slot))

/-- STOP. R322: STOP. -/
def execStop (slot : Fin 1024) (s : State) : Result :=
s.endsOutside (s.atHub (stopCmd slot))

/-- TEARDOWN. R425: TEARDOWN. -/
def execTeardown (slot : Fin 1024) (bad : List (PondIx × TestFail)) (s : State) : Result :=
s.endsOutside (s.atHub (teardownCmd slot bad))

/-- TEARDOWN_SAVE. R425: TEARDOWN with SAVE. -/
def execTeardownSave (slot : Fin 1024) (bad : List (PondIx × TestFail)) (s : State) : Result :=
s.endsOutside (s.atHub (teardownSave slot bad))

/-- KILL. R424: KILL. -/
def execKill (slot : Fin 1024) (bad : List (PondIx × TestFail)) (s : State) : Result :=
s.endsOutside (s.atHub (killCmd slot bad))

/-- KILL_RETAIN. R426: KILL with RETAIN. -/
def execKillRetain (slot : Fin 1024) (bad : List (PondIx × TestFail)) (s : State) : Result :=
s.endsOutside (s.atHub (killRetain slot bad))

/-- DMA_IN. R323: a transfer from host memory goes on. -/
def execDmaIn (slot : Fin 1024) (s : State) : Result :=
s.endsOutside (s.atHub (dmaIn slot))

/-- DMA_OUT. R323: a transfer to host memory goes on. -/
def execDmaOut (slot : Fin 1024) (s : State) : Result :=
s.endsOutside (s.atHub (dmaOut slot))

/-- DMA_DONE. R323: a transfer ends. -/
def execDmaDone (slot : Fin 1024) (s : State) : Result :=
s.endsOutside (s.atHub (dmaDone slot))

/-- WAIT_HUB. R325: a wait on a hub spring. -/
def execWaitHub (slot : Fin 1024) (s : State) : Result :=
s.endsOutside (s.atHub (waitHub slot))

/-- HOST_SIGNAL. R322: the SIGNAL command. -/
def execHostSignal (slot : Fin 1024) (s : State) : Result :=
s.endsOutside (s.atHub (hostSignal slot))

/-- SEAL. R226: SEAL. -/
def execSeal (slot : Fin 1024) (s : State) : Result :=
s.endsOutside (s.atHub (sealCmd slot))

/-- POWER. R375: POWER; `avg`: the average of the draw over 10 ms in W. -/
def execPower (slot : Fin 1024) (avg : Nat) (s : State) : Result :=
s.endsOutside (s.atHub (powerCmd slot avg))

/-- BRINGUP. R433: a warm bring-up goes on; `x`: what its tests find. -/
def execBringup (slot : Fin 1024) (x : BringFind) (s : State) : Result :=
s.endsOutside (s.atHub (bringup slot x))

/-- BRINGUP_COLD. R432: a cold bring-up goes on; `x`: what its tests find. -/
def execBringupCold (x : BringFind) (s : State) : Result :=
s.endsOutside (s.atHub (bringupCold x))

/-- FW_STAGE. R444: FW_STAGE; `flash`: the flash took the bundle. -/
def execFwStage (slot : Fin 1024) (flash : Bool) (s : State) : Result :=
s.ends (s.atHub (fwStage slot flash))

/-- FW_ACTIVATE. R444: FW_ACTIVATE with COMMIT = 0. -/
def execFwActivate (slot : Fin 1024) (s : State) : Result :=
s.ends (s.atHub (fwActivate slot))

/-- FW_ACTIVATE_COMMIT. R445: FW_ACTIVATE with COMMIT = 1. -/
def execFwActivateCommit (slot : Fin 1024) (s : State) : Result :=
s.ends (s.atHub (fwActivateCommit slot))

/-- LICENCE_INSTALL. R448: LICENCE_INSTALL; `flash`: the flash took the blob. -/
def execLicenceInstall (slot : Fin 1024) (flash : Bool) (s : State) : Result :=
s.ends (s.atHub (licenceInstall slot flash))

/-- ENROLL_KEY. R446: ENROLL_KEY. -/
def execEnrollKey (slot : Fin 1024) (s : State) : Result :=
s.ends (s.atHub (enrollKey slot))

/-- SUBMIT. R318: a read of SUBMIT. -/
def execSubmit (slot : Fin 1024) (s : State) : Result :=
s.endsOutside (s.atHub (submit slot))

/-- SLOT_WRITE. R318: bytes are written to a slot. -/
def execSlotWrite (slot : Fin 1024) (o : BitVec 8) (bs : List Byte) (s : State) : Result :=
s.endsOutside (s.atHub (slotWrite slot o.toNat bs))

/-- HOST_INTERFACE_RESET. R314: a Function Level or hot reset, or link-down. -/
def execHostInterfaceReset (down : Bool) (s : State) : Result :=
s.ends (s.atHub (hostInterfaceReset down))

/-- PERST. R482: PERST# is asserted. -/
def execPerst (s : State) : Result :=
s.ends (s.atHub (perst))

/-- HUB_CSR_WIN. R316: the pond of the tile window. -/
def execHubCsrWin (f : BitVec 6) (p : BitVec 9) (s : State) : Result :=
s.endsOutside (s.atHub (hubCsrWin f.toNat p.toNat))

/-- TILE_WINDOW_ACCESS. R316: an access through the tile window. -/
def execTileWindowAccess (a : RegOp) (s : State) : Result :=
s.endsOutside (s.atHub (tileWindowAccess a))

/-- BAR2_ACCESS. R317: an access through the aperture. -/
def execBar2Access (a : Bar2) (s : State) : Result :=
s.endsOutside (s.atHub (bar2Access a))

/-- HUB_BAR2_BASE. R317: the aperture moves. -/
def execHubBar2Base (v : BitVec 7) (s : State) : Result :=
s.endsOutside (s.atHub (hubBar2Base v.toNat))

/-- HOST_WINDOW_REQUEST. R325: the request in flight `n` goes to host memory. -/
def execHostWindowRequest (n : Nat) (s : State) : Result :=
s.endsOutside (s.atHub (hostWindowRequest n))

/-- NOTIFY_WRITE. R325: the write in flight `n` goes to the notify window. -/
def execNotifyWrite (n : Nat) (s : State) : Result :=
s.endsOutside (s.atHub (notifyWrite n))

/-- HUB_HSPR. R325: the host replaces a hub spring. -/
def execHubHspr (m : Fin 64) (v : BitVec 32) (s : State) : Result :=
s.endsOutside (s.atHub (hubHspr m v.toNat))

/-- CLOG_EN. R326: a write of CLOG_EN. -/
def execClogEn (v : Bool) (s : State) : Result :=
s.endsOutside (s.atHub (clogEn v))

/-- CLOG_HEAD. R326: a write of HEAD. -/
def execClogHead (v : BitVec 32) (s : State) : Result :=
s.endsOutside (s.atHub (clogHead v.toNat))

end Sys2Proof.Machine
end

