-- ==== Sys2Proof/Machine/RunMemory.lean ====
section
/-! DEFINITION. The commands of the memory hierarchy: one meaning per row of the table. -/

namespace Sys2Proof.Machine

/-- PATROL_SCRUB. R139: a bank reads and corrects one line; `corr` words were corrected; `hour` ends an hour of counting. -/
def execPatrolScrub (g : PondIx) (unit : Fin 17) (bank : Fin 34) (corr : Nat) (hour : Bool) (s : State) : Result :=
s.endsOutside (s.atPond g (patrolScrub g unit bank corr hour))

/-- CACHE_MIB. R140: a write of the cache share. -/
def execCacheMib (g : PondIx) (c : Fin 8) (s : State) : Result :=
s.endsOutside (s.atUnit (.pond g) (cacheMib g c))

/-- SPLIT_DONE. R140: the change of the split ends. -/
def execSplitDone (g : PondIx) (s : State) : Result :=
s.endsOutside (s.atPond g (splitDone g))

/-- CACHE_FILL. R141: the fill of line `l` returns. -/
def execCacheFill (g : PondIx) (l : Nat) (s : State) : Result :=
s.endsOutside (s.atPond g (cacheFill g l))

/-- FLUSH. R144: a cache command over the range or the whole cache, with an optional spring. -/
def execFlush (g : PondIx) (range : Bool) (spring : Fin 64) (sig : Bool) (s : State) : Result :=
s.endsOutside (s.atUnit (.pond g) (cacheCommand g 1 range spring sig))

/-- INVAL. R144: a cache command over the range or the whole cache, with an optional spring. -/
def execInval (g : PondIx) (range : Bool) (spring : Fin 64) (sig : Bool) (s : State) : Result :=
s.endsOutside (s.atUnit (.pond g) (cacheCommand g 2 range spring sig))

/-- FLINV. R144: a cache command over the range or the whole cache, with an optional spring. -/
def execFlinv (g : PondIx) (range : Bool) (spring : Fin 64) (sig : Bool) (s : State) : Result :=
s.endsOutside (s.atUnit (.pond g) (cacheCommand g 3 range spring sig))

/-- CACHE_CMD_DONE. R144: a cache command completes. -/
def execCacheCmdDone (g : PondIx) (s : State) : Result :=
s.endsOutside (s.atPond g (cacheCmdDone g))

/-- DESCRIPTOR_START. R151: generator `n` starts its next descriptor. -/
def execDescriptorStart (g : PondIx) (a : Fin 3) (n : Fin 4) (s : State) : Result :=
s.endsOutside (s.atAunit g (aPos a) (descriptorStart g (aPos a) n))

/-- DESCRIPTOR_REQUEST. R150: generator `n` issues one request. -/
def execDescriptorRequest (g : PondIx) (a : Fin 3) (n : Fin 4) (wait : GenWait) (s : State) : Result :=
s.endsOutside (s.atAunit g (aPos a) (descriptorRequest g (aPos a) n wait.dt wait.conf))

/-- DESCRIPTOR_COMPLETE. R151: a descriptor completes. -/
def execDescriptorComplete (g : PondIx) (a : Fin 3) (n : Fin 4) (s : State) : Result :=
s.endsOutside (s.atAunit g (aPos a) (descriptorComplete g (aPos a) n))

/-- ABORT. R153: a write to AU_CTRL.ABORT. -/
def execAbort (g : PondIx) (a : Fin 3) (n : Fin 4) (s : State) : Result :=
s.endsOutside (s.atUnit (.tile g (aPos a)) (abortGenerator g (aPos a) n))

/-- AU_DRAIN. R167: DRAIN is written, or the generators have become idle. -/
def execAuDrain (g : PondIx) (a : Fin 3) (write : Bool) (s : State) : Result :=
s.endsOutside (s.atUnit (.tile g (aPos a)) (fun s => auDrain g (aPos a) write (if write then s.batchDrain g (aPos a) else s)))

/-- AU_ERR_CLEAR. R153: 1s are written to AU_STATUS.ERR. -/
def execAuErrClear (g : PondIx) (a : Fin 3) (mask : BitVec 4) (s : State) : Result :=
s.endsOutside (s.atUnit (.tile g (aPos a)) (auErrClear g (aPos a) mask.toNat))

/-- DRAM_REQUEST. R155: a channel controller serves the n-th held request. -/
def execDramRequest (f : FieldIx) (n dt : Nat) (ecc : Ecc) (s : State) : Result :=
s.endsOutside (dramRequest f n dt ecc s)

/-- DRAM_PATROL. R157: the patrol reads the burst at offset `o`. -/
def execDramPatrol (f : FieldIx) (o : BitVec 37) (ecc : Ecc) (pass : Bool) (s : State) : Result :=
s.endsOutside (dramPatrol f o.toNat ecc pass s)

/-- DRAM_STATE. R158: the hottest stack sensor reads `temp`. -/
def execDramState (f : FieldIx) (temp : Nat) (s : State) : Result :=
s.endsOutside (dramState f temp s)

/-- DRAM_STOPPED. R158: the hold time of a stopped stack expires. -/
def execDramStopped (f : FieldIx) (s : State) : Result :=
s.endsOutside (dramStoppedCmd f s)

/-- CHANNEL_FAIL. R162: a channel fails in service. -/
def execChannelFail (f : FieldIx) (ch : Fin 32) (s : State) : Result :=
s.endsOutside (channelFail f ch s)

end Sys2Proof.Machine
end

