-- ==== Sys2Proof/Machine/RunScalar.lean ====
section
/-! DEFINITION. The commands of the S-core: one meaning per row of the table. -/

namespace Sys2Proof.Machine

/-- ADD. R120: rd := rs1 + rs2. -/
def execAdd (g : PondIx) (dt : Nat) (s : State) : Result :=
s.endsOutside (s.scoreCmd g dt 0 (fun w s => s.alu g dt w.rd (fun r => r w.rs1 + r w.rs2)))

/-- SUB. R120: rd := rs1 − rs2. -/
def execSub (g : PondIx) (dt : Nat) (s : State) : Result :=
s.endsOutside (s.scoreCmd g dt 1 (fun w s => s.alu g dt w.rd (fun r => r w.rs1 - r w.rs2)))

/-- ADDI. R120: rd := rs1 + imm. -/
def execAddi (g : PondIx) (dt : Nat) (s : State) : Result :=
s.endsOutside (s.scoreCmd g dt 2 (fun w s => s.alu g dt w.rd (fun r => r w.rs1 + sx w.imm)))

/-- AND. R120: rd := rs1 AND rs2. -/
def execAnd (g : PondIx) (dt : Nat) (s : State) : Result :=
s.endsOutside (s.scoreCmd g dt 3 (fun w s => s.alu g dt w.rd (fun r => r w.rs1 &&& r w.rs2)))

/-- OR. R120: rd := rs1 OR rs2. -/
def execOr (g : PondIx) (dt : Nat) (s : State) : Result :=
s.endsOutside (s.scoreCmd g dt 4 (fun w s => s.alu g dt w.rd (fun r => r w.rs1 ||| r w.rs2)))

/-- XOR. R120: rd := rs1 XOR rs2. -/
def execXor (g : PondIx) (dt : Nat) (s : State) : Result :=
s.endsOutside (s.scoreCmd g dt 5 (fun w s => s.alu g dt w.rd (fun r => r w.rs1 ^^^ r w.rs2)))

/-- ANDI. R120: rd := rs1 AND imm, zero-extended. -/
def execAndi (g : PondIx) (dt : Nat) (s : State) : Result :=
s.endsOutside (s.scoreCmd g dt 6 (fun w s => s.alu g dt w.rd (fun r => r w.rs1 &&& zx w.imm)))

/-- ORI. R120: rd := rs1 OR imm, zero-extended. -/
def execOri (g : PondIx) (dt : Nat) (s : State) : Result :=
s.endsOutside (s.scoreCmd g dt 7 (fun w s => s.alu g dt w.rd (fun r => r w.rs1 ||| zx w.imm)))

/-- SHLI. R120: left shift by imm[4:0]. -/
def execShli (g : PondIx) (dt : Nat) (s : State) : Result :=
s.endsOutside (s.scoreCmd g dt 8 (fun w s => s.alu g dt w.rd (fun r => r w.rs1 <<< (w.imm.toNat % 32))))

/-- SHRI. R120: logical right shift by imm[4:0]. -/
def execShri (g : PondIx) (dt : Nat) (s : State) : Result :=
s.endsOutside (s.scoreCmd g dt 9 (fun w s => s.alu g dt w.rd (fun r => r w.rs1 >>> (w.imm.toNat % 32))))

/-- SHAI. R120: arithmetic right shift by imm[4:0]. -/
def execShai (g : PondIx) (dt : Nat) (s : State) : Result :=
s.endsOutside (s.scoreCmd g dt 10 (fun w s => s.alu g dt w.rd (fun r => (r w.rs1).sshiftRight (w.imm.toNat % 32))))

/-- SLT. R120: signed comparison. -/
def execSlt (g : PondIx) (dt : Nat) (s : State) : Result :=
s.endsOutside (s.scoreCmd g dt 11 (fun w s => s.alu g dt w.rd (fun r => if (r w.rs1).slt (r w.rs2) then 1 else 0)))

/-- SLTU. R120: unsigned comparison. -/
def execSltu (g : PondIx) (dt : Nat) (s : State) : Result :=
s.endsOutside (s.scoreCmd g dt 12 (fun w s => s.alu g dt w.rd (fun r => if (r w.rs1).ult (r w.rs2) then 1 else 0)))

/-- MUL. R120: low 32 bits of the product. -/
def execMul (g : PondIx) (dt : Nat) (s : State) : Result :=
s.endsOutside (s.scoreCmd g dt 13 (fun w s => s.alu g dt w.rd (fun r => r w.rs1 * r w.rs2)))

/-- LUI. R120: rd := imm shifted left by 16. -/
def execLui (g : PondIx) (dt : Nat) (s : State) : Result :=
s.endsOutside (s.scoreCmd g dt 14 (fun w s => s.alu g dt w.rd (fun _ => zx w.imm <<< 16)))

/-- LW. R120: a 32-bit load; `ecc` is what the check of the words read finds. -/
def execLw (g : PondIx) (dt : Nat) (ecc : Ecc) (s : State) : Result :=
s.endsOutside (s.scoreCmd g dt 15 (fun w s => s.load g dt 4 false w.rd w.rs1 w.imm ecc))

/-- LH. R120: a sign-extended 16-bit load. -/
def execLh (g : PondIx) (dt : Nat) (ecc : Ecc) (s : State) : Result :=
s.endsOutside (s.scoreCmd g dt 16 (fun w s => s.load g dt 2 true w.rd w.rs1 w.imm ecc))

/-- LBU. R120: a zero-extended byte load. -/
def execLbu (g : PondIx) (dt : Nat) (ecc : Ecc) (s : State) : Result :=
s.endsOutside (s.scoreCmd g dt 17 (fun w s => s.load g dt 1 false w.rd w.rs1 w.imm ecc))

/-- SW. R120: a word store. -/
def execSw (g : PondIx) (dt : Nat) (s : State) : Result :=
s.endsOutside (s.scoreCmd g dt 18 (fun w s => s.store g dt 4 w.rd w.rs1 w.imm))

/-- SB. R120: a byte store. -/
def execSb (g : PondIx) (dt : Nat) (s : State) : Result :=
s.endsOutside (s.scoreCmd g dt 19 (fun w s => s.store g dt 1 w.rd w.rs1 w.imm))

/-- AMOADD. R120: atomic fetch-and-add. -/
def execAmoadd (g : PondIx) (dt : Nat) (s : State) : Result :=
s.endsOutside (s.scoreCmd g dt 20 (fun w s => s.amoAdd g dt w.rd w.rs1 w.rs2))

/-- BEQ. R120: branch when rd = rs1. -/
def execBeq (g : PondIx) (dt : Nat) (s : State) : Result :=
s.endsOutside (s.scoreCmd g dt 21 (fun w s => s.branch g dt w.rd w.rs1 w.imm (fun x y => decide (x = y))))

/-- BNE. R120: branch when rd ≠ rs1. -/
def execBne (g : PondIx) (dt : Nat) (s : State) : Result :=
s.endsOutside (s.scoreCmd g dt 22 (fun w s => s.branch g dt w.rd w.rs1 w.imm (fun x y => decide (x ≠ y))))

/-- BLT. R120: branch when rd < rs1, signed. -/
def execBlt (g : PondIx) (dt : Nat) (s : State) : Result :=
s.endsOutside (s.scoreCmd g dt 23 (fun w s => s.branch g dt w.rd w.rs1 w.imm (fun x y => x.slt y)))

/-- BGE. R120: branch when rd ≥ rs1, signed. -/
def execBge (g : PondIx) (dt : Nat) (s : State) : Result :=
s.endsOutside (s.scoreCmd g dt 24 (fun w s => s.branch g dt w.rd w.rs1 w.imm (fun x y => !x.slt y)))

/-- BLTU. R120: branch when rd < rs1, unsigned. -/
def execBltu (g : PondIx) (dt : Nat) (s : State) : Result :=
s.endsOutside (s.scoreCmd g dt 25 (fun w s => s.branch g dt w.rd w.rs1 w.imm (fun x y => x.ult y)))

/-- JAL. R120: jump and link. -/
def execJal (g : PondIx) (dt : Nat) (s : State) : Result :=
s.endsOutside (s.scoreCmd g dt 26 (fun w s => s.jal g dt w.rd w.imm))

/-- JALR. R120: jump to rs1 + imm and link. -/
def execJalr (g : PondIx) (dt : Nat) (s : State) : Result :=
s.endsOutside (s.scoreCmd g dt 27 (fun w s => s.jalr g dt w.rd w.rs1 w.imm))

/-- HALT. R120: stop until an event of cause 2, 6 or 9. -/
def execHalt (g : PondIx) (dt : Nat) (s : State) : Result :=
s.endsOutside (s.scoreCmd g dt 28 (fun _ s => s.halt g dt))

/-- CSRR. R120: read a register of the own pond. -/
def execCsrr (g : PondIx) (dt : Nat) (s : State) : Result :=
s.endsOutside (s.scoreCmd g dt 29 (fun w s => s.csrr g dt w.rd w.rs1 w.imm))

/-- CSRW. R120: write a register of the own pond. -/
def execCsrw (g : PondIx) (dt : Nat) (s : State) : Result :=
s.endsOutside (s.scoreCmd g dt 30 (fun w s => s.csrw g dt w.rd w.rs1 w.imm))

/-- SIG. R120: signal a spring. -/
def execSig (g : PondIx) (dt : Nat) (s : State) : Result :=
s.endsOutside (s.scoreCmd g dt 31 (fun w s => s.sigInstr g dt w.rs1 w.rs2))

/-- WAITS. R120: wait on a spring. -/
def execWaits (g : PondIx) (dt : Nat) (s : State) : Result :=
s.endsOutside (s.scoreCmd g dt 32 (fun w s => s.waitsInstr g dt w.rs1 w.imm))

/-- POLLS. R120: read a spring. -/
def execPolls (g : PondIx) (dt : Nat) (s : State) : Result :=
s.endsOutside (s.scoreCmd g dt 33 (fun w s => s.polls g dt w.rd w.rs1))

/-- TOKW. R120: eight registers to an output queue. -/
def execTokw (g : PondIx) (dt : Nat) (s : State) : Result :=
s.endsOutside (s.scoreCmd g dt 34 (fun w s => s.tokw g dt w.rs1 w.imm))

/-- TOKR. R120: an input-queue entry to eight registers. -/
def execTokr (g : PondIx) (dt : Nat) (s : State) : Result :=
s.endsOutside (s.scoreCmd g dt 35 (fun w s => s.tokr g dt w.rd w.imm))

/-- TOKQ. R120: entries waiting in an input queue. -/
def execTokq (g : PondIx) (dt : Nat) (s : State) : Result :=
s.endsOutside (s.scoreCmd g dt 36 (fun w s => s.tokq g dt w.rd w.imm))

/-- AGGO. R120: queue a descriptor on a generator. -/
def execAggo (g : PondIx) (dt : Nat) (s : State) : Result :=
s.endsOutside (s.scoreCmd g dt 37 (fun w s => s.aggo g dt w.rd w.rs1 w.rs2))

/-- AGST. R152: status of a descriptor handle. -/
def execAgst (g : PondIx) (dt : Nat) (s : State) : Result :=
s.endsOutside (s.scoreCmd g dt 38 (fun w s => s.agst g dt w.rd w.rs1))

/-- EVT. R120: an error record of severity I. -/
def execEvt (g : PondIx) (dt : Nat) (s : State) : Result :=
s.endsOutside (s.scoreCmd g dt 39 (fun w s => s.evt g dt w.rs1 w.rs2 w.imm))

/-- FENCE. R120: wait until every earlier write, signal and token is accepted. -/
def execFence (g : PondIx) (dt : Nat) (s : State) : Result :=
s.endsOutside (s.scoreCmd g dt 40 (fun _ s => s.fence g dt))

/-- TIMEL. R120: global time [31:0] at core cycle `c` of the beat. -/
def execTimel (g : PondIx) (dt : Nat) (c : Fin 20) (s : State) : Result :=
s.endsOutside (s.scoreCmd g dt 41 (fun w s => s.timel g dt w.rd c))

/-- TIMEH. R120: the latched global time [63:32]. -/
def execTimeh (g : PondIx) (dt : Nat) (s : State) : Result :=
s.endsOutside (s.scoreCmd g dt 42 (fun w s => s.timeh g dt w.rd))

/-- IDLE. R120: wait for the next event. -/
def execIdle (g : PondIx) (dt : Nat) (s : State) : Result :=
s.endsOutside (s.scoreCmd g dt 43 (fun _ s => s.idle g dt))

/-- OPAL. R120: an Opal hint. -/
def execOpal (g : PondIx) (dt : Nat) (s : State) : Result :=
s.endsOutside (s.scoreCmd g dt 44 (fun w s => s.opalHint g dt w.rs1 w.rs2))

/-- RETI. R120: return from the event handler. -/
def execReti (g : PondIx) (dt : Nat) (s : State) : Result :=
s.endsOutside (s.scoreCmd g dt 45 (fun _ s => s.reti g dt))

/-- EVEN. R120: the maskable event enables. -/
def execEven (g : PondIx) (dt : Nat) (s : State) : Result :=
s.endsOutside (s.scoreCmd g dt 46 (fun w s => s.even g dt w.rs1))

/-- STEP. R124: a step boundary. -/
def execStep (g : PondIx) (dt : Nat) (s : State) : Result :=
s.endsOutside (s.scoreCmd g dt 47 (fun _ s => s.stepInstr g dt))

/-- EVENT_ENQUEUE. R122: the first `k` events raised arrive in one core cycle. -/
def execEventEnqueue (g : PondIx) (k : Nat) (s : State) : Result :=
s.endsOutside (s.atPond g (eventEnqueue g k))

/-- EVENT_TAKE. R122: the S-core takes the head event. -/
def execEventTake (g : PondIx) (s : State) : Result :=
s.endsOutside (eventTake g s)

/-- SCORE_DEAD. R123: the FIFO head has waited `us` µs more. -/
def execScoreDead (g : PondIx) (us : Nat) (s : State) : Result :=
s.endsOutside (scoreDead g us s)

end Sys2Proof.Machine
end

