-- ==== Sys2Proof/Machine/RunService.lean ====
section
/-! DEFINITION. The commands of the telemetry and the module hardware: one meaning per row of the table. -/

namespace Sys2Proof.Machine

/-- TELEM_SWEEP. R462: Geper sweeps the counters. -/
def execTelemSweep (s : State) : Result :=
s.endsOutside (s.atHub (telemSweep))

/-- SVC_TELEM_SEL. R466: a counter is selected. -/
def execSvcTelemSel (addr : DWord) (s : State) : Result :=
s.endsQuiet (s.atHub (svcTelemSel addr.toNat))

/-- WRAP_WRITE_IGNORED. R465: a wrap register is written. -/
def execWrapWriteIgnored (u : UnitId) (o v : Nat) (s : State) : Result :=
s.endsOutside (s.atHub (fun s => s.atNamed u (wrapWriteIgnored u o v)))

/-- COUNTER_READ_LOW. R456: half of a counter is read. -/
def execCounterReadLow (u : UnitId) (o : Nat) (high : Bool) (who : Fin 4) (s : State) : Result :=
s.endsQuiet (s.atHub (fun s => s.atNamed u (counterReadLow u o high who)))

/-- COOLANT_SAMPLE. R472: the coolant temperatures in steps of 0.25 °C. -/
def execCoolantSample (inlet outlet : Int) (s : State) : Result :=
s.endsQuiet (s.atHub (coolantSample inlet outlet))

/-- LASER_PERMIT_N. R484: the supply connector is seated or unseated. -/
def execLaserPermitN (seated : Bool) (s : State) : Result :=
s.endsOutside (laserPermitN seated s)

/-- PWR_STAT. R480: an SMBus read. -/
def execSmbPwrStat (s : State) : Result :=
s.endsQuiet (smbPwrStat s)

/-- MAIN_V. R480: an SMBus read. -/
def execSmbMainV (s : State) : Result :=
s.endsQuiet (smbMainV s)

/-- MAIN_W. R480: an SMBus read. -/
def execSmbMainW (s : State) : Result :=
s.endsQuiet (smbMainW s)

/-- AUX_V. R480: an SMBus read. -/
def execSmbAuxV (s : State) : Result :=
s.endsQuiet (smbAuxV s)

/-- WAFER_TEMP. R480: an SMBus read. -/
def execSmbWaferTemp (s : State) : Result :=
s.endsQuiet (smbWaferTemp s)

/-- COOL_IN. R480: an SMBus read. -/
def execSmbCoolIn (s : State) : Result :=
s.endsQuiet (smbCoolIn s)

/-- COOL_OUT. R480: an SMBus read. -/
def execSmbCoolOut (s : State) : Result :=
s.endsQuiet (smbCoolOut s)

/-- CAP_W. R480: an SMBus read. -/
def execSmbCapW (s : State) : Result :=
s.endsQuiet (smbCapW s)

/-- FLAGS. R480: an SMBus read. -/
def execSmbFlags (s : State) : Result :=
s.endsQuiet (smbFlags s)

/-- SERIAL. R480: an SMBus read. -/
def execSmbSerial (s : State) : Result :=
s.endsQuiet (smbSerial s)

/-- LAST_OFF. R480: an SMBus read. -/
def execSmbLastOff (s : State) : Result :=
s.endsQuiet (smbLastOff s)

/-- SMB_WAFER_OFF. R480: an SMBus write to WAFER_OFF. -/
def execSmbWaferOff (v : Byte) (pec : Bool) (s : State) : Result :=
s.endsOutside (smbWaferOff v pec s)

/-- ALERT_RESPONSE. R480: a read of the Alert Response Address. -/
def execAlertResponse (s : State) : Result :=
s.endsQuiet (alertResponse s)

/-- BYPASS. R481. -/
def execJtagBypass (s : State) : Result :=
s.endsQuiet (jtagBypass s)

/-- IDCODE. R481. -/
def execJtagIdcode (s : State) : Result :=
s.endsQuiet (jtagIdcode s)

/-- SAMPLE_PRELOAD. R481. -/
def execSamplePreload (cells : List Bool) (s : State) : Result :=
s.endsQuiet (samplePreload cells s)

/-- EXTEST. R481. -/
def execExtest (s : State) : Result :=
s.endsQuiet (extest s)

/-- ALERT_LASTS_100_MS. R368: an alert has lasted 100 ms. -/
def execAlertLasts (a : AlertSrc) (s : State) : Result :=
s.endsOutside (s.atHub (alertLasts a))

/-- OSCILLATOR_PHASE_LOCKED. R336: the oscillator is locked to REFIN. -/
def execOscillatorLocked (ppm : BitVec 16) (s : State) : Result :=
s.endsQuiet (s.atHub (oscillatorLocked ppm))

/-- LOWERING_RAIL_SETTLED. R345: the rail is within 10 mV of the new voltage. -/
def execLoweringSettled (w : LakeIx) (mv : Nat) (s : State) : Result :=
s.endsOutside (loweringSettled w mv s)

/-- BUS_MASTER_ENABLE. R314: Bus Master Enable over a link of `width` and `rate`. -/
def execBusMasterEnable (v : Bool) (width : BitVec 5) (rate : BitVec 3) (s : State) : Result :=
s.endsOutside (s.atHub (busMasterEnable v width.toNat rate.toNat))

/-- PTM_EXCHANGE. R313: a Precision Time Measurement exchange. -/
def execPtmExchange (host : DWord) (s : State) : Result :=
s.endsQuiet (s.atHub (ptmExchange host.toNat))

end Sys2Proof.Machine
end

