-- ==== Sys2Proof/Machine/RunSupply.lean ====
section
/-! DEFINITION. The commands of the supplies, cap and heat: one meaning per row of the table. -/

namespace Sys2Proof.Machine

/-- AUX_QUALIFIED. R356: AUX has been in range for 1 ms. -/
def execAuxQualified (mv : Nat) (addr : Fin 8) (seated : Bool) (s : State) : Result :=
s.ends (auxQualified mv addr seated s)

/-- AUX_LOSS. R356: AUX is at `mv` for `us` µs. -/
def execAuxLoss (mv us : Nat) (s : State) : Result :=
s.ends (auxLoss mv us s)

/-- MAIN_QUALIFIED. R356: MAIN is at `mv`, in range, for `us` µs. -/
def execMainQualified (mv us : Nat) (s : State) : Result :=
s.endsOutside (s.atHub (mainQualified mv us))

/-- MAIN_UNDERVOLTAGE. R356: MAIN is at `mv`, below 38 V, for `us` µs. -/
def execMainUndervoltage (mv us : Nat) (s : State) : Result :=
s.endsOutside (s.atHub (mainUndervoltage mv us))

/-- MAIN_LOSS. R356: MAIN is at `mv`, below 35 V or 33 V, for `us` µs. -/
def execMainLoss (mv us : Nat) (s : State) : Result :=
s.endsOutside (s.atHub (mainLoss mv us))

/-- MAIN_OVERVOLTAGE. R356: MAIN is at `mv`, above 50 V, for `us` µs. -/
def execMainOvervoltage (mv us : Nat) (s : State) : Result :=
s.endsOutside (s.atHub (mainOvervoltage mv us))

/-- MOD_RESET_N. R358: the pin has been low for `ns` ns. -/
def execModResetN (ns : Nat) (s : State) : Result :=
s.ends (modResetN ns s)

/-- MOD_RESET_N_RELEASE. R358: the pin is released. -/
def execModResetRelease (s : State) : Result :=
s.ends (modResetRelease s)

/-- POWER_UP. R360: the rails come up. -/
def execPowerUp (s : State) : Result :=
s.endsOutside (s.atHub (powerUp))

/-- RAIL_FAULT. R360: a rail is not in regulation in time. -/
def execRailFault (s : State) : Result :=
s.endsOutside (s.atHub (railFault))

/-- WAFER_OFF. R362: an orderly power-down begins or goes on. -/
def execWaferOff (late : Bool) (s : State) : Result :=
s.endsOutside (s.atHub (waferOff late))

/-- VR_ALERT_N. R365: the pin has been low for `ns` ns, or is high. -/
def execVrAlertN (low : Bool) (ns : Nat) (s : State) : Result :=
s.endsOutside (s.atHub (vrAlertN low ns))

/-- INTERNAL_ALERT. R365: an internal alert source appears or clears. -/
def execInternalAlert (a : AlertSrc) (on : Bool) (s : State) : Result :=
s.endsOutside (s.atHub (internalAlert a on))

/-- ALERT_EPISODE_END. R367: every source has cleared. -/
def execAlertEpisodeEnd (s : State) : Result :=
s.endsOutside (s.atHub (alertEpisodeEnd))

/-- FLOOR_LIFT. R367: the hold expires. -/
def execFloorLift (s : State) : Result :=
s.endsOutside (s.atHub (floorLift))

/-- CAP_COMPUTATION. R372: 100 µs have passed; `m`: what is measured. -/
def execCapComputation (m : PowerMeas) (s : State) : Result :=
s.endsOutside (s.atHub (capComputation m))

/-- SLOPE_GRANT. R377: `us` µs of budget, and the oldest request. -/
def execSlopeGrant (us : Nat) (s : State) : Result :=
s.endsOutside (s.atHub (slopeGrant us))

/-- SLEW_HOLD. R378: the draw rises by `rise` µW per µs. -/
def execSlewHold (w : LakeIx) (rise cycles : Nat) (s : State) : Result :=
s.endsOutside (slewHold w rise cycles s)

/-- SENSOR_SAMPLE. R379: the lake sensors in steps of 0.25 °C. -/
def execSensorSample (w : LakeIx) (r0 r1 r2 r3 : Int) (s : State) : Result :=
s.endsOutside (sensorSample w r0 r1 r2 r3 s)

/-- THERM_STEP. R381: one ms has passed. -/
def execThermStep (w : LakeIx) (s : State) : Result :=
s.endsOutside (thermStep w s)

/-- SHUT_RETURN. R384: a Shut lake returns; `tests`: what its self-tests find. -/
def execShutReturn (w : LakeIx) (tests : List (PondIx × TestFail)) (s : State) : Result :=
s.endsOutside (shutReturn w tests s)

end Sys2Proof.Machine
end

