-- ==== Sys2Proof/Machine/RunTraffic.lean ====
section
/-! DEFINITION. The commands of the traffic, queues, steering units and springs: one meaning per row of the table. -/

namespace Sys2Proof.Machine

/-- READ. R240: the READ in flight `n` reaches its target. -/
def execRead (n : Nat) (ecc : Ecc) (s : State) : Result :=
s.endsOutside (readReq n ecc s)

/-- WRITE. R240: the WRITE in flight `n` reaches its target. -/
def execWrite (n : Nat) (s : State) : Result :=
s.endsOutside (writeReq n s)

/-- QENTRY. R173: the queue entry in flight `n` arrives. -/
def execQentry (n : Nat) (s : State) : Result :=
s.endsOutside (qentry n s)

/-- SIGNAL. R192: the signal in flight `n` reaches its pond. -/
def execSignal (n : Nat) (s : State) : Result :=
s.endsOutside (signal n s)

/-- HELD_SIGNAL_APPLY. R192: held signals of the pond are applied. -/
def execHeldSignalApply (g : PondIx) (dt : Nat) (s : State) : Result :=
s.endsOutside (s.atPond g (heldSignalApply g dt))

/-- RACC. R160: the RACC in flight `n` reaches its controller. -/
def execRacc (seen : RaccSeen) (s : State) : Result :=
s.endsOutside (raccReq seen.n seen.ecc s)

/-- RELEASE. R189: the RELEASE in flight `n` arrives. -/
def execRelease (n : Nat) (s : State) : Result :=
s.endsOutside (release n s)

/-- RDATA. R238: the read response in flight `n` arrives. -/
def execRdata (n : Nat) (s : State) : Result :=
s.endsOutside (rdata n s)

/-- ACK. R238: the acknowledgement in flight `n` arrives. -/
def execAck (n : Nat) (s : State) : Result :=
s.endsOutside (ackCmd n s)

/-- NACK. R238: the negative acknowledgement in flight `n` arrives. -/
def execNack (n : Nat) (s : State) : Result :=
s.endsOutside (nackCmd n s)

/-- SIGACK. R191: the signal acknowledgement in flight `n` arrives. -/
def execSigack (n : Nat) (s : State) : Result :=
s.endsOutside (sigackCmd n s)

/-- RESPONSE_TIMEOUT. R238: the i-th unanswered request times out. -/
def execResponseTimeout (i : Nat) (s : State) : Result :=
s.endsOutside (responseTimeout i s)

/-- SPILL_REFILL. R173: a freed slot refills. -/
def execSpillRefill (g : PondIx) (t : Fin 16) (isOut : Bool) (q : Fin 8) (s : State) : Result :=
s.endsOutside (s.atPond g (spillRefill g t isOut q))

/-- OQ_SEND. R171: the router takes an output-queue head. -/
def execOqSend (g : PondIx) (t : Fin 16) (s : State) : Result :=
s.endsOutside (s.atPond g (oqSend g t))

/-- WAIT. R178: a WAIT is at the head of a queue. -/
def execWait (g : PondIx) (t : Fin 16) (isOut : Bool) (q : Fin 8) (dt : Nat) (s : State) : Result :=
s.endsOutside (s.atPond g (waitAct g t isOut q dt))

/-- WAIT_TIMEOUT. R179: a WAIT is held beyond WAIT_LIMIT. -/
def execWaitTimeout (g : PondIx) (t : Fin 16) (isOut : Bool) (q : Fin 8) (s : State) : Result :=
s.endsOutside (s.atPond g (waitTimeout g t isOut q))

/-- WAITER_PASS. R187: one spring evaluation. -/
def execWaiterPass (g : PondIx) (s : State) : Result :=
s.endsOutside (s.atPond g (waiterPass g))

/-- SPRING_WRITE. R186: bytes of a spring are written. -/
def execSpringWrite (g : PondIx) (o : BitVec 10) (bs : List Byte) (s : State) : Result :=
s.endsOutside (s.atUnit (.pond g) (springWriteCmd g o.toNat bs))

/-- SWITCH. R180: one core cycle of a switch unit. -/
def execSwitchUnit (g : PondIx) (t : Fin 16) (n : Fin 4) (dt : Nat) (s : State) : Result :=
s.endsOutside (s.atPond g (steerCycle g t n 1 dt))

/-- MERGE. R180: one core cycle of a merge unit. -/
def execMergeUnit (g : PondIx) (t : Fin 16) (n : Fin 4) (dt : Nat) (s : State) : Result :=
s.endsOutside (s.atPond g (steerCycle g t n 2 dt))

/-- GATE. R180: one core cycle of a gate unit. -/
def execGateUnit (g : PondIx) (t : Fin 16) (n : Fin 4) (dt : Nat) (s : State) : Result :=
s.endsOutside (s.atPond g (steerCycle g t n 3 dt))

/-- BATCH_DEADLINE. R184: the deadline of a batch unit expires. -/
def execBatchDeadline (g : PondIx) (t : Fin 16) (n : Fin 4) (s : State) : Result :=
s.endsOutside (s.atPond g (batchDeadline g t n))

/-- SCAN_OUT. R194: the contexts of a partition are scanned out. -/
def execScanOut (p : PartIx) (s : State) : Result :=
s.endsOutside (scanOut p s)

/-- SCAN_IN. R194: the contexts of a partition are scanned in. -/
def execScanIn (p : PartIx) (s : State) : Result :=
s.endsOutside (scanIn p s)

end Sys2Proof.Machine
end

