-- ==== Sys2Proof/Machine/RunTrust.lean ====
section
/-! DEFINITION. The commands of the trust: one meaning per row of the table. -/

namespace Sys2Proof.Machine

/-- HUB_BOOT. R443: the boot ROM boots; `a`, `b`: whether slots A and B reach state 1 in 2 s. -/
def execHubBoot (a b : Bool) (s : State) : Result :=
s.ends (hubBoot a b s)

/-- FW_TRIAL_FAILED. R443: the hub restarts after a failed trial. -/
def execFwTrialFailed (a b : Bool) (s : State) : Result :=
s.ends (fwTrialFailed a b s)

/-- GET_VERSION. R439. -/
def execGetVersion (s : State) : Result :=
s.ends (getVersion s)

/-- GET_CAPABILITIES. R439. -/
def execGetCapabilities (s : State) : Result :=
s.ends (getCapabilities s)

/-- NEGOTIATE_ALGORITHMS. R439; `ok`: the requester offers the algorithms. -/
def execNegotiateAlgorithms (ok : Bool) (s : State) : Result :=
s.ends (negotiateAlgorithms ok s)

/-- GET_DIGESTS. R439. -/
def execGetDigests (s : State) : Result :=
s.ends (getDigests s)

/-- GET_CERTIFICATE. R439. -/
def execGetCertificate (slot : Fin 8) (o n : BitVec 16) (s : State) : Result :=
s.ends (getCertificate slot o.toNat n.toNat s)

/-- CHALLENGE. R439. -/
def execChallenge (slot : Fin 8) (nonce : Entry) (s : State) : Result :=
s.ends (challenge slot nonce s)

/-- GET_MEASUREMENTS. R441. -/
def execGetMeasurements (i : BitVec 8) (nonce : Entry) (s : State) : Result :=
s.ends (getMeasurements i.toNat nonce s)

/-- KEY_EXCHANGE. R439. -/
def execKeyExchange (slot : Fin 8) (nonce : Entry) (s : State) : Result :=
s.ends (keyExchange slot nonce s)

/-- FINISH. R439; `ok`: the verify data is right. -/
def execFinish (ok : Bool) (s : State) : Result :=
s.ends (finishMsg ok s)

/-- END_SESSION. R439. -/
def execEndSession (s : State) : Result :=
s.ends (endSession s)

/-- KEY_PROG. R451: a key for a set, a direction and a sub-stream. -/
def execKeyProg (set dir : Fin 2) (sub : Fin 3) (key : Entry) (s : State) : Result :=
s.ends (keyProg set dir sub key s)

/-- K_SET_GO. R451: a direction and sub-stream switch sets. -/
def execKSetGo (set dir : Fin 2) (sub : Fin 3) (s : State) : Result :=
s.ends (kSetGo set dir sub s)

/-- IDE_INTEGRITY_FAIL. R451: an integrity check fails. -/
def execIdeIntegrityFail (s : State) : Result :=
s.ends (ideIntegrityFail s)

end Sys2Proof.Machine
end

