-- ==== Sys2Proof/Machine/Dispatch.lean ====
section
/-! DEFINITION. The meaning of each command. -/

namespace Sys2Proof.Machine

def exec (i : Instr) (s : State) : Host.Outcome State Fault Refusal :=
  match i with
  | .csrWrite u o n v svc => Sys2Proof.Machine.execCsrWrite u o n v svc s
  | .supervisorFail f => Sys2Proof.Machine.execSupervisorFail f s
  | .gateBufferWrite g m dt => Sys2Proof.Machine.execGateBufferWrite g m dt s
  | .gateDeadline g m dt => Sys2Proof.Machine.execGateDeadline g m dt s
  | .mcoreCtrlRun g m v => Sys2Proof.Machine.execMcoreCtrlRun g m v s
  | .mcoreDrain g m => Sys2Proof.Machine.execMcoreDrain g m s
  | .mcoreDrainDone g m => Sys2Proof.Machine.execMcoreDrainDone g m s
  | .gateRelease g m => Sys2Proof.Machine.execGateRelease g m s
  | .mcoreGateWrite g m v => Sys2Proof.Machine.execMcoreGateWrite g m v s
  | .mcoreMode g m v => Sys2Proof.Machine.execMcoreMode g m v s
  | .modeChangeApply g m => Sys2Proof.Machine.execModeChangeApply g m s
  | .segmentCheck g m a ups dt c => Sys2Proof.Machine.execSegmentCheck g m a ups dt c s
  | .rotatedRecomputeDone g m a ups => Sys2Proof.Machine.execRotatedRecomputeDone g m a ups s
  | .quarterFinal g m a dt => Sys2Proof.Machine.execQuarterFinal g m a dt s
  | .epilogueRow g m seen => Sys2Proof.Machine.execEpilogueRow g m seen s
  | .elementWiseEntry g m seen => Sys2Proof.Machine.execElementWiseEntry g m seen s
  | .sparseRecordLoad g m a => Sys2Proof.Machine.execSparseRecordLoad g m a s
  | .neuronMaskPair g m dt => Sys2Proof.Machine.execNeuronMaskPair g m dt s
  | .tokenAtHead g t q => Sys2Proof.Machine.execTokenAtHead g t q s
  | .vcoreEntry g v dt gw => Sys2Proof.Machine.execVcoreEntry g v dt gw s
  | .vcoreSetWrite g v n => Sys2Proof.Machine.execVcoreSetWrite g v n s
  | .vcoreDrain g v => Sys2Proof.Machine.execVcoreDrain g v s
  | .selectionRow g v dt => Sys2Proof.Machine.execSelectionRow g v dt s
  | .add g dt => Sys2Proof.Machine.execAdd g dt s
  | .sub g dt => Sys2Proof.Machine.execSub g dt s
  | .addi g dt => Sys2Proof.Machine.execAddi g dt s
  | .and g dt => Sys2Proof.Machine.execAnd g dt s
  | .or g dt => Sys2Proof.Machine.execOr g dt s
  | .xor g dt => Sys2Proof.Machine.execXor g dt s
  | .andi g dt => Sys2Proof.Machine.execAndi g dt s
  | .ori g dt => Sys2Proof.Machine.execOri g dt s
  | .shli g dt => Sys2Proof.Machine.execShli g dt s
  | .shri g dt => Sys2Proof.Machine.execShri g dt s
  | .shai g dt => Sys2Proof.Machine.execShai g dt s
  | .slt g dt => Sys2Proof.Machine.execSlt g dt s
  | .sltu g dt => Sys2Proof.Machine.execSltu g dt s
  | .mul g dt => Sys2Proof.Machine.execMul g dt s
  | .lui g dt => Sys2Proof.Machine.execLui g dt s
  | .lw g dt ecc => Sys2Proof.Machine.execLw g dt ecc s
  | .lh g dt ecc => Sys2Proof.Machine.execLh g dt ecc s
  | .lbu g dt ecc => Sys2Proof.Machine.execLbu g dt ecc s
  | .sw g dt => Sys2Proof.Machine.execSw g dt s
  | .sb g dt => Sys2Proof.Machine.execSb g dt s
  | .amoadd g dt => Sys2Proof.Machine.execAmoadd g dt s
  | .beq g dt => Sys2Proof.Machine.execBeq g dt s
  | .bne g dt => Sys2Proof.Machine.execBne g dt s
  | .blt g dt => Sys2Proof.Machine.execBlt g dt s
  | .bge g dt => Sys2Proof.Machine.execBge g dt s
  | .bltu g dt => Sys2Proof.Machine.execBltu g dt s
  | .jal g dt => Sys2Proof.Machine.execJal g dt s
  | .jalr g dt => Sys2Proof.Machine.execJalr g dt s
  | .halt g dt => Sys2Proof.Machine.execHalt g dt s
  | .csrr g dt => Sys2Proof.Machine.execCsrr g dt s
  | .csrw g dt => Sys2Proof.Machine.execCsrw g dt s
  | .sig g dt => Sys2Proof.Machine.execSig g dt s
  | .waits g dt => Sys2Proof.Machine.execWaits g dt s
  | .polls g dt => Sys2Proof.Machine.execPolls g dt s
  | .tokw g dt => Sys2Proof.Machine.execTokw g dt s
  | .tokr g dt => Sys2Proof.Machine.execTokr g dt s
  | .tokq g dt => Sys2Proof.Machine.execTokq g dt s
  | .aggo g dt => Sys2Proof.Machine.execAggo g dt s
  | .agst g dt => Sys2Proof.Machine.execAgst g dt s
  | .evt g dt => Sys2Proof.Machine.execEvt g dt s
  | .fence g dt => Sys2Proof.Machine.execFence g dt s
  | .timel g dt c => Sys2Proof.Machine.execTimel g dt c s
  | .timeh g dt => Sys2Proof.Machine.execTimeh g dt s
  | .idle g dt => Sys2Proof.Machine.execIdle g dt s
  | .opal g dt => Sys2Proof.Machine.execOpal g dt s
  | .reti g dt => Sys2Proof.Machine.execReti g dt s
  | .even g dt => Sys2Proof.Machine.execEven g dt s
  | .step g dt => Sys2Proof.Machine.execStep g dt s
  | .eventEnqueue g k => Sys2Proof.Machine.execEventEnqueue g k s
  | .eventTake g => Sys2Proof.Machine.execEventTake g s
  | .scoreDead g us => Sys2Proof.Machine.execScoreDead g us s
  | .patrolScrub g unit bank corr hour => Sys2Proof.Machine.execPatrolScrub g unit bank corr hour s
  | .cacheMib g c => Sys2Proof.Machine.execCacheMib g c s
  | .splitDone g => Sys2Proof.Machine.execSplitDone g s
  | .cacheFill g l => Sys2Proof.Machine.execCacheFill g l s
  | .flush g range spring sig => Sys2Proof.Machine.execFlush g range spring sig s
  | .inval g range spring sig => Sys2Proof.Machine.execInval g range spring sig s
  | .flinv g range spring sig => Sys2Proof.Machine.execFlinv g range spring sig s
  | .cacheCmdDone g => Sys2Proof.Machine.execCacheCmdDone g s
  | .descriptorStart g a n => Sys2Proof.Machine.execDescriptorStart g a n s
  | .descriptorRequest g a n wait => Sys2Proof.Machine.execDescriptorRequest g a n wait s
  | .descriptorComplete g a n => Sys2Proof.Machine.execDescriptorComplete g a n s
  | .abort g a n => Sys2Proof.Machine.execAbort g a n s
  | .auDrain g a write => Sys2Proof.Machine.execAuDrain g a write s
  | .auErrClear g a mask => Sys2Proof.Machine.execAuErrClear g a mask s
  | .dramRequest f n dt ecc => Sys2Proof.Machine.execDramRequest f n dt ecc s
  | .dramPatrol f o ecc pass => Sys2Proof.Machine.execDramPatrol f o ecc pass s
  | .dramState f temp => Sys2Proof.Machine.execDramState f temp s
  | .dramStopped f => Sys2Proof.Machine.execDramStopped f s
  | .channelFail f ch => Sys2Proof.Machine.execChannelFail f ch s
  | .read n ecc => Sys2Proof.Machine.execRead n ecc s
  | .write n => Sys2Proof.Machine.execWrite n s
  | .qentry n => Sys2Proof.Machine.execQentry n s
  | .signal n => Sys2Proof.Machine.execSignal n s
  | .heldSignalApply g dt => Sys2Proof.Machine.execHeldSignalApply g dt s
  | .racc seen => Sys2Proof.Machine.execRacc seen s
  | .release n => Sys2Proof.Machine.execRelease n s
  | .rdata n => Sys2Proof.Machine.execRdata n s
  | .ack n => Sys2Proof.Machine.execAck n s
  | .nack n => Sys2Proof.Machine.execNack n s
  | .sigack n => Sys2Proof.Machine.execSigack n s
  | .responseTimeout n => Sys2Proof.Machine.execResponseTimeout n s
  | .spillRefill g t isOut q => Sys2Proof.Machine.execSpillRefill g t isOut q s
  | .oqSend g t => Sys2Proof.Machine.execOqSend g t s
  | .wait g t isOut q dt => Sys2Proof.Machine.execWait g t isOut q dt s
  | .waitTimeout g t isOut q => Sys2Proof.Machine.execWaitTimeout g t isOut q s
  | .waiterPass g => Sys2Proof.Machine.execWaiterPass g s
  | .springWrite g o bs => Sys2Proof.Machine.execSpringWrite g o bs s
  | .switchUnit g t n dt => Sys2Proof.Machine.execSwitchUnit g t n dt s
  | .mergeUnit g t n dt => Sys2Proof.Machine.execMergeUnit g t n dt s
  | .gateUnit g t n dt => Sys2Proof.Machine.execGateUnit g t n dt s
  | .batchDeadline g t n => Sys2Proof.Machine.execBatchDeadline g t n s
  | .scanOut p => Sys2Proof.Machine.execScanOut p s
  | .scanIn p => Sys2Proof.Machine.execScanIn p s
  | .nop slot => Sys2Proof.Machine.execNop slot s
  | .system slot => Sys2Proof.Machine.execSystem slot s
  | .load slot bad failed => Sys2Proof.Machine.execLoad slot bad failed s
  | .start slot tests => Sys2Proof.Machine.execStart slot tests s
  | .startRestore slot tests => Sys2Proof.Machine.execStartRestore slot tests s
  | .peerUnplaced slot => Sys2Proof.Machine.execPeerUnplaced slot s
  | .stop slot => Sys2Proof.Machine.execStop slot s
  | .teardown slot bad => Sys2Proof.Machine.execTeardown slot bad s
  | .teardownSave slot bad => Sys2Proof.Machine.execTeardownSave slot bad s
  | .kill slot bad => Sys2Proof.Machine.execKill slot bad s
  | .killRetain slot bad => Sys2Proof.Machine.execKillRetain slot bad s
  | .dmaIn slot => Sys2Proof.Machine.execDmaIn slot s
  | .dmaOut slot => Sys2Proof.Machine.execDmaOut slot s
  | .dmaDone slot => Sys2Proof.Machine.execDmaDone slot s
  | .waitHub slot => Sys2Proof.Machine.execWaitHub slot s
  | .hostSignal slot => Sys2Proof.Machine.execHostSignal slot s
  | .seal slot => Sys2Proof.Machine.execSeal slot s
  | .power slot avg => Sys2Proof.Machine.execPower slot avg s
  | .bringup slot x => Sys2Proof.Machine.execBringup slot x s
  | .bringupCold x => Sys2Proof.Machine.execBringupCold x s
  | .fwStage slot flash => Sys2Proof.Machine.execFwStage slot flash s
  | .fwActivate slot => Sys2Proof.Machine.execFwActivate slot s
  | .fwActivateCommit slot => Sys2Proof.Machine.execFwActivateCommit slot s
  | .licenceInstall slot flash => Sys2Proof.Machine.execLicenceInstall slot flash s
  | .enrollKey slot => Sys2Proof.Machine.execEnrollKey slot s
  | .submit slot => Sys2Proof.Machine.execSubmit slot s
  | .slotWrite slot o bs => Sys2Proof.Machine.execSlotWrite slot o bs s
  | .hostInterfaceReset down => Sys2Proof.Machine.execHostInterfaceReset down s
  | .perst => Sys2Proof.Machine.execPerst s
  | .hubCsrWin f p => Sys2Proof.Machine.execHubCsrWin f p s
  | .tileWindowAccess a => Sys2Proof.Machine.execTileWindowAccess a s
  | .bar2Access a => Sys2Proof.Machine.execBar2Access a s
  | .hubBar2Base v => Sys2Proof.Machine.execHubBar2Base v s
  | .hostWindowRequest n => Sys2Proof.Machine.execHostWindowRequest n s
  | .notifyWrite n => Sys2Proof.Machine.execNotifyWrite n s
  | .hubHspr m v => Sys2Proof.Machine.execHubHspr m v s
  | .clogEn v => Sys2Proof.Machine.execClogEn v s
  | .clogHead v => Sys2Proof.Machine.execClogHead v s
  | .refinWindow edges missing => Sys2Proof.Machine.execRefinWindow edges missing s
  | .clockFail missing => Sys2Proof.Machine.execClockFail missing s
  | .refinReturn => Sys2Proof.Machine.execRefinReturn s
  | .autoReturn => Sys2Proof.Machine.execAutoReturn s
  | .trimStore => Sys2Proof.Machine.execTrimStore s
  | .beat edges slips => Sys2Proof.Machine.execBeat edges slips s
  | .timeReload => Sys2Proof.Machine.execTimeReload s
  | .droopOnset w mv => Sys2Proof.Machine.execDroopOnset w mv s
  | .droopClear w => Sys2Proof.Machine.execDroopClear w s
  | .settleWaitEnd w mv => Sys2Proof.Machine.execSettleWaitEnd w mv s
  | .dividerSwitch w => Sys2Proof.Machine.execDividerSwitch w s
  | .phaseTrim skews => Sys2Proof.Machine.execPhaseTrim skews s
  | .warmSleep w => Sys2Proof.Machine.execWarmSleep w s
  | .coldSleep w => Sys2Proof.Machine.execColdSleep w s
  | .wakeTrigger w => Sys2Proof.Machine.execWakeTrigger w s
  | .wakeDone w mv => Sys2Proof.Machine.execWakeDone w mv s
  | .auxQualified mv addr seated => Sys2Proof.Machine.execAuxQualified mv addr seated s
  | .auxLoss mv us => Sys2Proof.Machine.execAuxLoss mv us s
  | .mainQualified mv us => Sys2Proof.Machine.execMainQualified mv us s
  | .mainUndervoltage mv us => Sys2Proof.Machine.execMainUndervoltage mv us s
  | .mainLoss mv us => Sys2Proof.Machine.execMainLoss mv us s
  | .mainOvervoltage mv us => Sys2Proof.Machine.execMainOvervoltage mv us s
  | .modResetN ns => Sys2Proof.Machine.execModResetN ns s
  | .modResetRelease => Sys2Proof.Machine.execModResetRelease s
  | .powerUp => Sys2Proof.Machine.execPowerUp s
  | .railFault => Sys2Proof.Machine.execRailFault s
  | .waferOff late => Sys2Proof.Machine.execWaferOff late s
  | .vrAlertN low ns => Sys2Proof.Machine.execVrAlertN low ns s
  | .internalAlert a on => Sys2Proof.Machine.execInternalAlert a on s
  | .alertEpisodeEnd => Sys2Proof.Machine.execAlertEpisodeEnd s
  | .floorLift => Sys2Proof.Machine.execFloorLift s
  | .capComputation m => Sys2Proof.Machine.execCapComputation m s
  | .slopeGrant us => Sys2Proof.Machine.execSlopeGrant us s
  | .slewHold w rise cycles => Sys2Proof.Machine.execSlewHold w rise cycles s
  | .sensorSample w r0 r1 r2 r3 => Sys2Proof.Machine.execSensorSample w r0 r1 r2 r3 s
  | .thermStep w => Sys2Proof.Machine.execThermStep w s
  | .shutReturn w tests => Sys2Proof.Machine.execShutReturn w tests s
  | .opalOffer f idle => Sys2Proof.Machine.execOpalOffer f idle s
  | .opalSegment g t sig => Sys2Proof.Machine.execOpalSegment g t sig s
  | .opalDue g t => Sys2Proof.Machine.execOpalDue g t s
  | .errorRecordLog f => Sys2Proof.Machine.execErrorRecordLog f s
  | .moduleLogAppend => Sys2Proof.Machine.execModuleLogAppend s
  | .recovery p => Sys2Proof.Machine.execRecovery p s
  | .tile g t bad => Sys2Proof.Machine.execTile g t bad s
  | .cold g x => Sys2Proof.Machine.execCold g x s
  | .drainEnd b => Sys2Proof.Machine.execDrainEnd b s
  | .broadcastChunk g object chunk crc len bs => Sys2Proof.Machine.execBroadcastChunk g object chunk crc len bs s
  | .broadcastRepair g bs rounds again => Sys2Proof.Machine.execBroadcastRepair g bs rounds again s
  | .linkCrcError router q => Sys2Proof.Machine.execLinkCrcError router q s
  | .packetHop x => Sys2Proof.Machine.execPacketHop x s
  | .escapeEntry n => Sys2Proof.Machine.execEscapeEntry n s
  | .tableUpdate late => Sys2Proof.Machine.execTableUpdate late s
  | .mcast a => Sys2Proof.Machine.execMcast a s
  | .holdSlotSend router q dt => Sys2Proof.Machine.execHoldSlotSend router q dt s
  | .reduce a => Sys2Proof.Machine.execReduce a s
  | .dataFrame p e => Sys2Proof.Machine.execDataFrame p e s
  | .nak p seq => Sys2Proof.Machine.execNak p seq s
  | .portTraining p e => Sys2Proof.Machine.execPortTraining p e s
  | .trainingRetry p => Sys2Proof.Machine.execTrainingRetry p s
  | .laneDrop p lost => Sys2Proof.Machine.execLaneDrop p lost s
  | .laserLow k j => Sys2Proof.Machine.execLaserLow k j s
  | .laserLost k => Sys2Proof.Machine.execLaserLost k s
  | .portDown p => Sys2Proof.Machine.execPortDown p s
  | .spareLight p seen => Sys2Proof.Machine.execSpareLight p seen s
  | .retrain p => Sys2Proof.Machine.execRetrain p s
  | .holdDown p v => Sys2Proof.Machine.execHoldDown p v s
  | .portEn p v => Sys2Proof.Machine.execPortEn p v s
  | .ringFrame portB f hop regen ppm => Sys2Proof.Machine.execRingFrame portB f hop regen ppm s
  | .ringState topo lightA lightB cut => Sys2Proof.Machine.execRingState topo lightA lightB cut s
  | .ringEn v locked => Sys2Proof.Machine.execRingEn v locked s
  | .contributingQueueEntry g t q => Sys2Proof.Machine.execContributingQueueEntry g t q s
  | .startMarker n dt => Sys2Proof.Machine.execStartMarker n dt s
  | .memoryModeCombine f c p => Sys2Proof.Machine.execMemoryModeCombine f c p s
  | .collTimeout f c => Sys2Proof.Machine.execCollTimeout f c s
  | .exportReceived r part sites => Sys2Proof.Machine.execExportReceived r part sites s
  | .hubBoot a b => Sys2Proof.Machine.execHubBoot a b s
  | .fwTrialFailed a b => Sys2Proof.Machine.execFwTrialFailed a b s
  | .getVersion => Sys2Proof.Machine.execGetVersion s
  | .getCapabilities => Sys2Proof.Machine.execGetCapabilities s
  | .negotiateAlgorithms ok => Sys2Proof.Machine.execNegotiateAlgorithms ok s
  | .getDigests => Sys2Proof.Machine.execGetDigests s
  | .getCertificate slot o n => Sys2Proof.Machine.execGetCertificate slot o n s
  | .challenge slot nonce => Sys2Proof.Machine.execChallenge slot nonce s
  | .getMeasurements idx nonce => Sys2Proof.Machine.execGetMeasurements idx nonce s
  | .keyExchange slot nonce => Sys2Proof.Machine.execKeyExchange slot nonce s
  | .finish ok => Sys2Proof.Machine.execFinish ok s
  | .endSession => Sys2Proof.Machine.execEndSession s
  | .keyProg set dir sub key => Sys2Proof.Machine.execKeyProg set dir sub key s
  | .kSetGo set dir sub => Sys2Proof.Machine.execKSetGo set dir sub s
  | .ideIntegrityFail => Sys2Proof.Machine.execIdeIntegrityFail s
  | .telemSweep => Sys2Proof.Machine.execTelemSweep s
  | .svcTelemSel addr => Sys2Proof.Machine.execSvcTelemSel addr s
  | .wrapWriteIgnored u o v => Sys2Proof.Machine.execWrapWriteIgnored u o v s
  | .counterReadLow u o high who => Sys2Proof.Machine.execCounterReadLow u o high who s
  | .coolantSample inlet outlet => Sys2Proof.Machine.execCoolantSample inlet outlet s
  | .laserPermitN seated => Sys2Proof.Machine.execLaserPermitN seated s
  | .smbPwrStat => Sys2Proof.Machine.execSmbPwrStat s
  | .smbMainV => Sys2Proof.Machine.execSmbMainV s
  | .smbMainW => Sys2Proof.Machine.execSmbMainW s
  | .smbAuxV => Sys2Proof.Machine.execSmbAuxV s
  | .smbWaferTemp => Sys2Proof.Machine.execSmbWaferTemp s
  | .smbCoolIn => Sys2Proof.Machine.execSmbCoolIn s
  | .smbCoolOut => Sys2Proof.Machine.execSmbCoolOut s
  | .smbCapW => Sys2Proof.Machine.execSmbCapW s
  | .smbFlags => Sys2Proof.Machine.execSmbFlags s
  | .smbSerial => Sys2Proof.Machine.execSmbSerial s
  | .smbLastOff => Sys2Proof.Machine.execSmbLastOff s
  | .smbWaferOff v pec => Sys2Proof.Machine.execSmbWaferOff v pec s
  | .alertResponse => Sys2Proof.Machine.execAlertResponse s
  | .jtagBypass => Sys2Proof.Machine.execJtagBypass s
  | .jtagIdcode => Sys2Proof.Machine.execJtagIdcode s
  | .samplePreload cells => Sys2Proof.Machine.execSamplePreload cells s
  | .extest => Sys2Proof.Machine.execExtest s
  | .alertLasts a => Sys2Proof.Machine.execAlertLasts a s
  | .oscillatorLocked ppm => Sys2Proof.Machine.execOscillatorLocked ppm s
  | .loweringSettled w mv => Sys2Proof.Machine.execLoweringSettled w mv s
  | .busMasterEnable v width rate => Sys2Proof.Machine.execBusMasterEnable v width rate s
  | .ptmExchange host => Sys2Proof.Machine.execPtmExchange host s

end Sys2Proof.Machine
end

