-- ==== Sys2Proof/Safety.lean ====
section
/-! DEFINITION. What counts as a safe run: every command answers, and what no command may touch stays. -/

namespace Sys2Proof.Safety

open Sys2Proof.Machine

/-- The step answers a next state. -/
def Answers (s : State) : Prop := ∃ t, step s = .next t

/-- Memories and tables of a state are in canonical form: keys strictly rising, no entry equal to its default. -/
def Canonical (s : State) : Prop :=
  Tab.wf s.mem (fun _ => 0) = true ∧ Tab.wf s.bad (fun _ => false) = true ∧ Tab.wf s.hostMem (fun _ => 0) = true

/-- R437, R442, R446: what fuses hold only ever grows: C does not fall, an enrolled key stays. -/
def FusesKept (s t : State) : Prop :=
  s.trust.c ≤ t.trust.c ∧ (s.trust.configKey ≠ 0 → t.trust.configKey = s.trust.configKey)

end Sys2Proof.Safety
end

