-- ==== Sys2Proof/Certificates/Slice0/Obligations.lean ====
section
/-! DEFINITION. The statements for the provers. Each names the rule of the spec it formalises; where it rests on a choice of the
model, its docstring names the log entry. -/

namespace Sys2Proof.Claims

open Sys2Proof.Machine

/-! What the hypotheses say. -/

/-- The core at tile t of pond g can work: its lake runs, it is not failed, its image gives it a function, no forced Opal test
withholds it. -/
def CoreReady (s : State) (g t : Nat) : Prop :=
  s.clocked g = true ∧ s.withheld g t = false ∧ (s.tileW g t).testBit 0 = false ∧ s.tileOff g t = false

/-- The A-unit at tile t of pond g can work: a test of another core does not hold it. -/
def AunitReady (s : State) (g t : Nat) : Prop :=
  s.clocked g = true ∧ (s.tileW g t).testBit 0 = false ∧ s.tileOff g t = false

/-- A unit takes register writes: it has power and is not failed. -/
def Present (s : State) (u : UnitId) : Prop := s.ctrAbsent u = false

/-! What the conclusions say. -/

/-- Every register field keeps its value but those listed. -/
def OtherRegs (s t : State) (l : List (UnitId × Fld × Nat)) : Prop :=
  ∀ u h i, (∀ x ∈ l, Fld.key u h i ≠ Fld.key x.1 x.2.1 x.2.2) → t.rdi u h i = s.rdi u h i

/-- Nothing changes but the listed register fields. -/
def OnlyRegs (s t : State) (l : List (UnitId × Fld × Nat)) : Prop := t = { s with regs := t.regs } ∧ OtherRegs s t l

/-- An event of a unit of pond g is on its way to the S-core. -/
def Raised (s : State) (g cause src : Nat) : Prop := (g, ⟨cause, src⟩) ∈ s.events

/-- Queue q of tile t. -/
def inQ (s : State) (g t q : Nat) : TQueue := s.queue (queueKey g t false q)
/-- Output queue q of tile t. -/
def outQ (s : State) (g t q : Nat) : TQueue := s.queue (queueKey g t true q)

/-- A queue takes n more entries in its hardware. -/
def Room (x : TQueue) (n : Nat) : Prop := x.hw.length + n ≤ 8 ∧ x.l1n = 0 ∧ x.l2n = 0

/-- A packet's sender is on this rank. -/
def Local (s : State) (p : Packet) : Prop := dRank (destOfSrc p.src) = s.rank ∧ dSpace (destOfSrc p.src) ≠ 8

/-- The packet is on its way from a place. -/
def Launched (t : State) (p : Packet) (at_ : Place) : Prop := (⟨p, at_, 0, 0⟩ : Flight) ∈ t.net.flights

/-- The answer of type typ from `me` to the sender of p is on its way. -/
def Answered (t : State) (me : Nat) (p : Packet) (typ len : Nat) (ordered : Bool) (payload : BitVec 256) : Prop :=
  Launched t (mkPacket typ ordered false false len p.tag me (destOfSrc p.src) 0 payload) (srcPlace me)

/-- The request in flight n of type typ has arrived at tile t of pond g, is sound, the tile takes it, and its port has room for the
answer. -/
def Arrives (s : State) (n typ g t : Nat) (p : Packet) : Prop :=
  s.atTile n = some (g, t, p) ∧ p.typ = typ ∧ p.malformed = false ∧ s.resetting g t = false ∧ s.absent p.dest = false ∧ Local s p ∧
    s.answerRoom (16 * g + t) (decide (typ = 3 ∨ typ = 7)) = true

/-- The response in flight n of type typ has arrived at the unit whose i-th request it answers. -/
def Returns (s : State) (n typ i : Nat) (o : Outst) (p : Packet) : Prop :=
  s.atRequester n = some p ∧ p.typ = typ ∧ p.malformed = false ∧ s.net.outst[i]? = some o ∧ o.due ≤ 1 ∧
    s.net.outst.findIdx? (fun o => decide (destOfSrc o.src = p.dest) && decide (o.tag = p.tag)) = some i ∧
    srcIsStrip o.src = false ∧ s.resetting (srcPond o.src) (srcTileN o.src) = false

/-- No steering unit of the tile batches. -/
def NoBatch (s : State) (g t : Nat) : Prop := ∀ n, n < 4 → s.steerOn g t n 4 = false

/-- A queue holds eight entries and nothing of it is or may be spilled. -/
def Full (s : State) (g t : Nat) (isOut : Bool) (q : Nat) : Prop :=
  let x := s.queue (queueKey g t isOut q)
  8 ≤ x.hw.length ∧ x.l1n = 0 ∧ x.l2n = 0 ∧ s.spillSizes g t isOut q = (0, 0)

/-! The S-core. -/

/-- The word at the S-core's program counter, taken apart (R119). -/
def word (s : State) (g : Nat) : SWord := sDecode (s.fetchWord g)

/-- The S-core of pond g runs, waits for nothing, and fetches a word of opcode op. -/
def Issues (s : State) (g op : Nat) : Prop :=
  s.scoreLive g = true ∧ (s.score g).stall = none ∧ (s.score g).pc < 2 ^ 18 ∧ (s.score g).pc % 4 = 0 ∧
    s.sramBad (coreKey g 5 (s.score g).pc) 4 = false ∧ (word s g).op = op

/-- From s, the instruction retires: the S-core of pond g is c with its program counter at pc, SCORE_INSTR has counted, and nothing
else has changed but SCORE_STALL and the wrap bits. -/
def Retires (s t : State) (g : Nat) (pc : Nat) (c : SCore) : Prop :=
  t = { s with
    regs := t.regs
    scores := t.scores } ∧
  t.score g = { c with
    pc := pc
    stall := none } ∧
  (∀ h, h ≠ g → t.score h = s.score h) ∧
  t.rd (.tile g 5) Reg.scoreInstr = (s.rd (.tile g 5) Reg.scoreInstr + 1) % 2 ^ 48 ∧
  OtherRegs s t [(.tile g 5, Reg.scoreInstr, 0), (.tile g 5, Reg.scoreStall, 0), (.tile g 5, Reg.scoreWrap, 0)]

/-- The next instruction's address. -/
def nextPc (s : State) (g : Nat) : Nat := (s.score g).pc + 4

/-- The memory key of an S-core address in its own local memory or scratchpad (R119, R140). -/
def ownMem (s : State) (g n : Nat) (a : Word) : Option Nat :=
  let v := a.toNat
  if v % n ≠ 0 then none
  else if v < 2 ^ 18 then some (coreKey g 5 v)
  else if 0x10000000 ≤ v ∧ v - 0x10000000 < s.scratch g then some (pondKey g (v - 0x10000000))
  else none

end Sys2Proof.Claims

open Sys2Proof Sys2Proof.Machine Sys2Proof.Claims

/-! Matrix cores. -/

/-- R37, R40: a write of RUN = 1 sets RUN when the shape, segment and gate-buffer checks pass, else only CFG_WR_IGN; RUN = 0
clears it. -/
def Sys2Proof.Claims.MatrixRunWriteRule : Prop :=
  ∀ (s : State) (g : PondIx) (m : Fin 8), Present s (.tile g (mPos m)) →
    let u : UnitId := .tile g (mPos m)
    (s.mRunOk g (mPos m) = true → exec (.mcoreCtrlRun g m true) s = .next (s.wr u Reg.mcoreCtrlRun 1)) ∧
    (s.mRunOk g (mPos m) = false → exec (.mcoreCtrlRun g m true) s = .next (s.wr u Reg.mcoreStatusCfgWrIgn 1)) ∧
    exec (.mcoreCtrlRun g m false) s = .next (s.wr u Reg.mcoreCtrlRun 0)

/-- R39, R40: a write of MCORE_GATE with a DEMAND of at most 8 whose rows the gate buffer holds sets DEADLINE and DEMAND and
touches nothing of the group that is filling; any other is discarded with CFG_WR_IGN. -/
def Sys2Proof.Claims.MatrixGateValueRule : Prop :=
  ∀ (s : State) (g : PondIx) (m : Fin 8) (v : DWord), Present s (.tile g (mPos m)) →
    let u : UnitId := .tile g (mPos m)
    let d := v.toNat / 2 ^ 16 % 16
    (d ≤ 8 → s.gateHolds g (mPos m) (gateDemand d) = true → ∃ t, exec (.mcoreGateWrite g m v) s = .next t ∧
      t.rd u Reg.mcoreGateDeadline = v.toNat % 4096 ∧ t.rd u Reg.mcoreGateDemand = d ∧ t.mcores = s.mcores) ∧
    (8 < d ∨ s.gateHolds g (mPos m) (gateDemand d) = false → ∃ t, exec (.mcoreGateWrite g m v) s = .next t ∧
      t.rd u Reg.mcoreStatusCfgWrIgn = 1 ∧ t.rd u Reg.mcoreGateDemand = s.rd u Reg.mcoreGateDemand ∧
      t.rd u Reg.mcoreGateDeadline = s.rd u Reg.mcoreGateDeadline)

/-- R47: a write that changes MODE is latched with MODE_PENDING, MODE itself unchanged; the latched value takes effect once every
set has drained and the epilogue is empty, and MODE_PENDING clears. -/
def Sys2Proof.Claims.MatrixModeChangeRule : Prop :=
  ∀ (s : State) (g : PondIx) (m : Fin 8),
    let u : UnitId := .tile g (mPos m)
    (∀ v : Bool, Present s u → s.rd u Reg.mcoreCtrlMode ≠ v.toNat → ∃ t, exec (.mcoreMode g m v) s = .next t ∧
      (t.mcore g (mPos m)).modeNext = some v.toNat ∧ t.rd u Reg.mcoreStatusModePending = 1 ∧
      t.rd u Reg.mcoreCtrlMode = s.rd u Reg.mcoreCtrlMode) ∧
    (∀ n, CoreReady s g (mPos m) → n < 2 → (s.mcore g (mPos m)).modeNext = some n → (s.mcore g (mPos m)).settled = true →
      ∃ t, exec (.modeChangeApply g m) s = .next t ∧ t.rd u Reg.mcoreCtrlMode = n ∧
        t.rd u Reg.mcoreStatusModePending = 0 ∧ (t.mcore g (mPos m)).modeNext = none)

/-- R36–R38: with RUN = 1, GATE_RELEASE, DRAIN and an expired deadline release the complete rows held as one group padded to a
multiple of 4, leave the incomplete row, and write no memory. -/
def Sys2Proof.Claims.MatrixGateReleaseRule : Prop :=
  ∀ (s : State) (g : PondIx) (m : Fin 8),
    let u : UnitId := .tile g (mPos m)
    let n := s.gateFill g (mPos m)
    let c := s.mcore g (mPos m)
    let released (t : State) : Prop := (t.mcore g (mPos m)).fill = c.fill.drop n ∧ t.mem = s.mem ∧
      ∃ x, (t.mcore g (mPos m)).groups = c.groups ++ [x] ∧ x.rows = c.fill.take n ∧ x.size = 4 * ((n + 3) / 4)
    n ≠ 0 → s.rd u Reg.mcoreCtrlRun = 1 →
    (Present s u → ∃ t, exec (.gateRelease g m) s = .next t ∧ released t) ∧
    (Present s u → NoBatch s g (mPos m) → ∃ t, exec (.mcoreDrain g m) s = .next t ∧ released t ∧ t.rd u Reg.mcoreCtrlDrain = 1) ∧
    (∀ dt, CoreReady s g (mPos m) → (c.gov.getD (s.gateGovNow g (mPos m))).deadline ≤ c.age + dt →
      ∃ t, exec (.gateDeadline g m dt) s = .next t ∧ released t)

/-- R37: a drain that has finished every group and set in hand clears RUN and DRAIN. -/
def Sys2Proof.Claims.MatrixDrainDoneRule : Prop :=
  ∀ (s : State) (g : PondIx) (m : Fin 8), CoreReady s g (mPos m) →
    let u : UnitId := .tile g (mPos m)
    s.rd u Reg.mcoreCtrlDrain = 1 → (s.mcore g (mPos m)).drained = true →
    ∃ t, exec (.mcoreDrainDone g m) s = .next t ∧ t.rd u Reg.mcoreCtrlRun = 0 ∧ t.rd u Reg.mcoreCtrlDrain = 0 ∧
      t.mcores = s.mcores

/-- R33, R36, R103: a data entry at the head of queue 0 with no row filling opens a row in a free slot: the entry leaves the queue
and its 32 bytes, and no others, are written to the gate buffer. A mask entry of queue 1 joins the oldest row that lacks one. -/
def Sys2Proof.Claims.MatrixGateTakesRule : Prop :=
  ∀ (s : State) (g : PondIx) (m : Fin 8) (dt : Nat) (e : Entry), CoreReady s g (mPos m) →
    let p := mPos m
    (∀ k, s.mTakes g p = true → s.flag (.tile g p) Reg.mcoreCtrlMode = false → (s.mcore g p).fill = [] →
      s.headData g p 0 = some e → s.gateSlot g p = some k →
      ∃ t, exec (.gateBufferWrite g m dt) s = .next t ∧
        t.mem = s.mem.putBytes (s.gateKey g p k 0) (bvBytes 32 e) ∧
        (t.queue (queueKey g p false 0)).hw = (s.queue (queueKey g p false 0)).hw.drop 1) ∧
    (∀ n, s.mTakes g p = true → s.flag (.tile g p) Reg.mcoreSparsePredEn = true → s.gateFill g p = 0 →
      s.headData g p 1 = some e → maskInvalid e = false →
      (s.mcore g p).fill.findIdx? (fun r => decide (r.masks.length < s.maskEntries g p)) = some n →
      (s.mcore g p).fill.length < 4 * ((s.mcore g p).gov.getD (s.gateGovNow g p)).demand →
      ∃ t, exec (.neuronMaskPair g m dt) s = .next t ∧
        (t.mcore g p).fill = (s.mcore g p).fill.modify n (fun r => { r with masks := r.masks ++ [e] }) ∧
        (t.queue (queueKey g p false 1)).hw = (s.queue (queueKey g p false 1)).hw.drop 1)


/-- R33–R40: the tuple gate of an M-core. -/
def Obligations.MatrixGateReleasesGroups : Prop :=
  Claims.MatrixGateReleaseRule ∧ Claims.MatrixDrainDoneRule ∧ Claims.MatrixGateTakesRule

/-- R61: with RUN = 1 a write of an M-core register that RUN protects is discarded with CFG_WR_IGN; with RUN = 0 a legal write of
MCORE_CFG sets its formats, and touches no other register of any unit than those of MCORE_CFG. -/
def Sys2Proof.Claims.CsrWriteMatrixRule : Prop :=
  ∀ (s : State) (g : PondIx) (m : Fin 8) (v : Nat) (svc : Bool),
    let u : UnitId := .tile g (mPos m)
    Present s u → s.wrapIgnored u 0x10 = false →
    (s.rd u Reg.mcoreCtrlRun = 1 → exec (.csrWrite u 0x10 8 v svc) s = .next (s.wr u Reg.mcoreStatusCfgWrIgn 1)) ∧
    (s.rd u Reg.mcoreCtrlRun = 0 → slice v 1 3 ≤ 4 → slice v 4 3 ≤ 4 → slice v 7 3 ≤ 2 → slice v 10 2 ≠ 3 → slice v 15 2 ≠ 3 →
      ∃ t, exec (.csrWrite u 0x10 8 v svc) s = .next t ∧ t.rd u Reg.mcoreCfgAFmt = slice v 1 3 ∧
        t.rd u Reg.mcoreCfgBFmt = slice v 4 3 ∧ t.rd u Reg.mcoreCfgOutFmt = slice v 7 3 ∧
        t.rd u Reg.mcoreCfgRnd = slice v 10 2 ∧ t.rd u Reg.mcoreCfgEwOp = slice v 15 2 ∧ t = { s with regs := t.regs })

/-- R61: writes of an M-core's registers. -/
def Obligations.MatrixRegisterWrites : Prop :=
  Claims.MatrixRunWriteRule ∧ Claims.MatrixGateValueRule ∧ Claims.MatrixModeChangeRule ∧ Claims.CsrWriteMatrixRule

/-- R49–R53, R56, R59: an array with a quarter in hand issues its next check segment. With CHK_EN = 0 the array goes on; with it, the
array goes on, or it is retired (RETIRED_CHK and the overlay map), a rotated recompute begins, CHK_MISMATCH is raised and the
quarter does not advance. -/
def Sys2Proof.Claims.MatrixSegmentRule : Prop :=
  ∀ (s : State) (g : PondIx) (m : Fin 8) (a : Fin 4) (ups : List Upset) (dt : Nat) (c : Fin 20) (gid q : Nat) (gr : MGroup),
    let u : UnitId := .tile g (mPos m)
    let x := (s.mcore g (mPos m)).arr a
    CoreReady s g (mPos m) → x.work = some (gid, q) → x.final = false → x.replay = [] → (s.mcore g (mPos m)).stopped = false →
    (s.mcore g (mPos m)).group gid = some gr →
    (s.rd u Reg.mcoreSparseRecEn = 1 → 4 * s.segGroups g (mPos m) * (x.seg + 1) ≤ 64 * x.recs.length) →
    ∃ t, exec (.segmentCheck g m a ups dt c) s = .next t ∧
      let y := (t.mcore g (mPos m)).arr a
      let passed := y.seg = x.seg + 1 ∧ y.replay = [] ∧
        y.final = decide (s.rowK g (mPos m) ≤ 4 * s.segGroups g (mPos m) * (x.seg + 1))
      (s.rd u Reg.mcoreCfgChkEn = 0 → passed) ∧
      (passed ∨ (y.seg = x.seg ∧ y.replay ≠ [] ∧ (t.rd u Reg.mcoreArrayRetiredChk).testBit a = true ∧
        (t.tileW g (mPos m)).testBit (6 + a) = true ∧ t.rd u Reg.mcoreStatusRecompute = 1 ∧ Raised t g 1 (mPos m)))

/-- R53–R56: the rotated recompute settles every replayed set, the array stays retired in the overlay map, and it goes on to its next
segment. -/
def Sys2Proof.Claims.MatrixRecomputeRule : Prop :=
  ∀ (s : State) (g : PondIx) (m : Fin 8) (a : Fin 4) (ups : List Upset) (gid q : Nat) (gr : MGroup),
    let x := (s.mcore g (mPos m)).arr a
    CoreReady s g (mPos m) → x.work = some (gid, q) → x.replay ≠ [] → (s.mcore g (mPos m)).group gid = some gr →
    ∃ t, exec (.rotatedRecomputeDone g m a ups) s = .next t ∧
      let y := (t.mcore g (mPos m)).arr a
      y.replay = [] ∧ y.seg = x.seg + 1 ∧ (t.tileW g (mPos m)).testBit (6 + a) = true ∧ t.mem = s.mem

/-- R41: a final quarter moves into the slot of its column block, or opens one while fewer than two are held, and its array becomes
free; with both slots taken by other blocks it waits. -/
def Sys2Proof.Claims.MatrixQuarterFinalRule : Prop :=
  ∀ (s : State) (g : PondIx) (m : Fin 8) (a : Fin 4) (dt gid q : Nat) (gr : MGroup),
    let c := s.mcore g (mPos m)
    let x := c.arr a
    CoreReady s g (mPos m) → x.work = some (gid, q) → x.final = true → c.group gid = some gr →
    ((∃ b ∈ c.bb, b.gid = gid ∧ b.block = q / 4) ∨ c.bb.length < 2 → ∃ t, exec (.quarterFinal g m a dt) s = .next t ∧
      (t.mcore g (mPos m)).arr a = MArr.idle ∧ t = { s with mcores := t.mcores } ∧
      ∃ b ∈ (t.mcore g (mPos m)).bb, b.gid = gid ∧ b.block = q / 4 ∧ (q % 4, x.sets) ∈ b.quarters) ∧
    ((∀ b ∈ c.bb, b.gid ≠ gid ∨ b.block ≠ q / 4) → 2 ≤ c.bb.length → ∃ t, exec (.quarterFinal g m a dt) s = .next t ∧
      t = { s with regs := t.regs })

/-- R28–R53: an array's segments, their recompute check, and its finished quarters. -/
def Obligations.MatrixSegmentsChecked : Prop :=
  Claims.MatrixSegmentRule ∧ Claims.MatrixRecomputeRule ∧ Claims.MatrixQuarterFinalRule

/-- R43: scale and bias of column n of block b, at EPI_BASE (biases only with BIAS_EN). -/
def Sys2Proof.Claims.epiWords (s : State) (g p b n : Nat) : Nat × Nat :=
  let k := coreKey g p (s.rd (.tile g p) Reg.mcoreEpiBaseBase * 128 + 128 * b + 4 * n)
  (s.memNat k 4, if s.flag (.tile g p) Reg.mcoreCfgBiasEn then s.memNat (k + 64) 4 else 0)

/-- R28: the accumulator of column n in row r of a block, with its poison. -/
def Sys2Proof.Claims.blockAcc (b : BBSlot) (r n : Nat) : Nat × Bool :=
  let a := (((b.quarters.find? (fun x => x.1 = n / 4)).map (fun x => x.2)).getD []).getD (r / 4) AccSet.fresh
  (a.val (4 * (r % 4) + n % 4), a.poison)

/-- R41, R43, R45, R54: with stage 2 empty one row of a complete column block leaves as the packed codes of its 16 columns through
output queue 0. With no predictor, no activation and readable scales each code is the conversion of accumulator × scale + bias, or of
NaN where the set is poisoned. -/
def Sys2Proof.Claims.MatrixEpilogueRowRule : Prop :=
  ∀ (s : State) (g : PondIx) (m : Fin 8) (dt : Nat) (ecc : Ecc) (b : BBSlot) (rest : List BBSlot),
    let p := mPos m
    let u : UnitId := .tile g p
    let vals := (List.range 16).map (fun n =>
      let w := epiWords s g p b.block n
      let a := blockAcc b b.row n
      if a.2 then Sys2Proof.Machine.Num.canon else NFmt.f32.decode (NFmt.f32.fma a.1 w.1 w.2))
    CoreReady s g p → (s.mcore g p).stage2 = [] → (s.mcore g p).bb = b :: rest → 4 ≤ b.quarters.length → b.row < b.rows.length →
    Room (outQ s g p 0) 2 →
    ∃ t codes, exec (.epilogueRow g m ⟨dt, ecc⟩) s = .next t ∧ codes.length = 16 ∧
      (outQ t g p 0).hw = (outQ s g p 0).hw ++ packRow (s.outFmt g p) codes ∧
      (∃ c, (c = b ∨ c = b.poisoned) ∧
        (t.mcore g p).bb = (if b.row + 1 = b.rows.length then rest else { c with row := b.row + 1 } :: rest)) ∧ t.mem = s.mem ∧
      (s.rd u Reg.mcoreCfgActEn = 0 → s.rd u Reg.mcoreSparsePredEn = 0 →
        s.sramBad (coreKey g p (s.rd u Reg.mcoreEpiBaseBase * 128 + 128 * b.block)) 128 = false →
        codes = (s.convertRow g p vals).1)

/-- R46: in element-wise mode with EW_OP = 0 one row of 16 elements leaves queue 0 and 16 results enter output queue 0: with no
activation and readable scales, the conversions of x × scale + bias. -/
def Sys2Proof.Claims.MatrixElementWiseRule : Prop :=
  ∀ (s : State) (g : PondIx) (m : Fin 8) (dt : Nat) (ecc : Ecc),
    let p := mPos m
    let u : UnitId := .tile g p
    let f := s.aFmt g p
    let need := if f = .f32 then 2 else 1
    let xs := (inQ s g p 0).hw.take need
    let x (n : Nat) : Sys2Proof.Machine.Num := f.decode (if f = .f32 then ((xs.map (fun e => e.data)).getD (n / 8) 0).toNat / 2 ^ (32 * (n % 8)) % 2 ^ 32
      else ((xs.map (fun e : QEnt => e.data)).getD 0 0).toNat / 2 ^ (16 * n) % 2 ^ 16)
    let vals := (List.range 16).map (fun n =>
      let w := epiWords s g p 0 n
      NFmt.f32.decode (NFmt.f32.rnd (numFma (x n) (NFmt.f32.decode w.1) (NFmt.f32.decode w.2))))
    CoreReady s g p → s.mTakes g p = true → s.rd u Reg.mcoreCtrlMode = 1 → s.rd u Reg.mcoreCfgEwOp = 0 → f.scaled = false →
    xs.length = need → (∀ e ∈ xs, e.tok = false) → Room (outQ s g p 0) 2 →
    ∃ t codes, exec (.elementWiseEntry g m ⟨dt, ecc⟩) s = .next t ∧ codes.length = 16 ∧
      (inQ t g p 0).hw = (inQ s g p 0).hw.drop need ∧
      (outQ t g p 0).hw = (outQ s g p 0).hw ++ packRow (s.outFmt g p) codes ∧ t.mem = s.mem ∧
      (s.rd u Reg.mcoreCfgActEn = 0 → s.sramBad (coreKey g p (s.rd u Reg.mcoreEpiBaseBase * 128)) 128 = false →
        codes = (s.convertRow g p vals).1)

/-- R41–R52: what an M-core writes to its output queue. -/
def Obligations.MatrixRowsWritten : Prop :=
  Claims.MatrixEpilogueRowRule ∧ Claims.MatrixElementWiseRule

/-- The metadata word of the next record of array a, and whether it is valid (R84, R85). -/
def Sys2Proof.Claims.recordValid (s : State) (g t a : Nat) (q : Nat) : Bool :=
  let x := (s.mcore g t).arr a
  let p := x.nextRec
  let w := BitVec.ofNat 64 (s.ringNat g t p 8)
  let mw := MetaWord.ofBits w
  let lanes := (List.range 4).map (fun j => if mw.dense || mw.zero then 0 else s.ringNat g t (p + 16 + 8 * j) 8)
  metaValid w (q % 4) (if mw.dense || mw.zero then [] else lanes.map popcount64) (s.rd (.tile g t) Reg.mcoreCfgBFmt)
    (x.recs.length % 256) (s.hasLicence 0)

/-- R84–R86, R92: a valid record joins those loaded for the array; an invalid one stops issue, sets META_ERR and POISON, and raises
META_INVALID at the S-core. -/
def Sys2Proof.Claims.SparseRecordRule : Prop :=
  ∀ (s : State) (g : PondIx) (m : Fin 8) (a : Fin 4) (gid q : Nat),
    let p := mPos m
    let u : UnitId := .tile g p
    let x := (s.mcore g p).arr a
    CoreReady s g p → x.work = some (gid, q) → s.rd u Reg.mcoreSparseRecEn = 1 → (s.mcore g p).stopped = false →
    x.recs.length < s.rowK g p / 64 →
    (recordValid s g p a q = true → ∃ t, exec (.sparseRecordLoad g m a) s = .next t ∧ t = { s with mcores := t.mcores } ∧
      ((t.mcore g p).arr a).recs.length = x.recs.length + 1) ∧
    (recordValid s g p a q = false → ∃ t, exec (.sparseRecordLoad g m a) s = .next t ∧ (t.mcore g p).stopped = true ∧
      t.rd u Reg.mcoreSparseMetaErr = 1 ∧ t.rd u Reg.mcoreStatusPoison = 1 ∧ Raised t g 3 p ∧ t.mem = s.mem)

/-- R177: a token other than WAIT at the head of an M-core's input queue, which no steering unit reads, is discarded and counted
in RTR_TOK_DROP; a V-core keeps a SCALE of queue 0 or 1 for its next row. -/
def Sys2Proof.Claims.CoreTokenRule : Prop :=
  ∀ (s : State) (g : PondIx) (q : Fin 8) (e : QEnt), e.tok = true →
    (∀ m : Fin 8, CoreReady s g (mPos m) → s.steered g (mPos m) q = false → s.headOf g (mPos m) false q = some e →
      ∃ t, exec (.tokenAtHead g ⟨mPos m, by revert m; decide⟩ q) s = .next t ∧
        (inQ t g (mPos m) q).hw = (inQ s g (mPos m) q).hw.drop 1 ∧
        OtherRegs s t [(.tile g (mPos m), Reg.rtrTokDrop, 0)] ∧
        t.rd (.tile g (mPos m)) Reg.rtrTokDrop = min (s.rd (.tile g (mPos m)) Reg.rtrTokDrop + 1) 0xFFFFFFFF) ∧
    (∀ v : Fin 4, CoreReady s g (vPos v) → s.steered g (vPos v) q = false → s.headOf g (vPos v) false q = some e → tokType e.data ≠ 6 ∨ 2 ≤ (q : Nat) →
      ∃ t, exec (.tokenAtHead g ⟨vPos v, by revert v; decide⟩ q) s = .next t ∧
        (inQ t g (vPos v) q).hw = (inQ s g (vPos v) q).hw.drop 1 ∧ t.vcores = s.vcores ∧
        t.rd (.tile g (vPos v)) Reg.rtrTokDrop = min (s.rd (.tile g (vPos v)) Reg.rtrTokDrop + 1) 0xFFFFFFFF) ∧
    (∀ v : Fin 4, CoreReady s g (vPos v) → s.steered g (vPos v) q = false → s.headOf g (vPos v) false q = some e → tokType e.data = 6 → (q : Nat) < 2 →
      ∃ t, exec (.tokenAtHead g ⟨vPos v, by revert v; decide⟩ q) s = .next t ∧
        (inQ t g (vPos v) q).hw = (inQ s g (vPos v) q).hw.drop 1 ∧
        (t.vcore g (vPos v)).constNext = (s.vcore g (vPos v)).constNext ++ [(tokArg e.data % 8, tokUser e.data % 2 ^ 32)])

/-- R83–R106, R178: weight records and the tokens at a core's input. -/
def Obligations.RecordsAndTokensTaken : Prop :=
  Claims.SparseRecordRule ∧ Claims.CoreTokenRule

/-- R117, R126: SET is written at once with RUN = 0, where no earlier write waits any longer, and between rows; with a row in hand the
write waits with SET_PENDING. With no steering unit that batches, DRAIN
clears RUN at once between rows with nothing to write, and waits for the row in hand. -/
def Sys2Proof.Claims.VectorControlRule : Prop :=
  ∀ (s : State) (g : PondIx) (v : Fin 4) (n : Fin 4),
    let u : UnitId := .tile g (vPos v)
    let c := s.vcore g (vPos v)
    Present s u →
    (s.rd u Reg.vcoreCtrlRun = 0 → ∃ t, exec (.vcoreSetWrite g v n) s = .next t ∧ t.rd u Reg.vcoreCtrlSet = n ∧
      t.rd u Reg.vcoreStatusSetPending = 0 ∧ (t.vcore g (vPos v)).setNext = none ∧ t.mem = s.mem ∧ t.queues = s.queues ∧
      OtherRegs s t [(u, Reg.vcoreCtrlSet, 0), (u, Reg.vcoreStatusSetPending, 0)]) ∧
    (s.rd u Reg.vcoreCtrlRun = 1 → c.inRow = false → ∃ t, exec (.vcoreSetWrite g v n) s = .next t ∧
      t.rd u Reg.vcoreCtrlSet = n ∧ t.rd u Reg.vcoreStatusSetPending = 0 ∧ t.mem = s.mem ∧ t.queues = s.queues) ∧
    (s.rd u Reg.vcoreCtrlRun = 1 → c.inRow = true → ∃ t, exec (.vcoreSetWrite g v n) s = .next t ∧
      t.rd u Reg.vcoreCtrlSet = s.rd u Reg.vcoreCtrlSet ∧ t.rd u Reg.vcoreStatusSetPending = 1 ∧
      (t.vcore g (vPos v)).setNext = some (n : Nat) ∧ t.mem = s.mem ∧ t.queues = s.queues) ∧
    (NoBatch s g (vPos v) → c.inRow = true → ∃ t, exec (.vcoreDrain g v) s = .next t ∧ t.rd u Reg.vcoreCtrlDrain = 1 ∧
      OnlyRegs s t [(u, Reg.vcoreCtrlDrain, 0)]) ∧
    (NoBatch s g (vPos v) → c.inRow = false → c.outQ = [] → ∃ t, exec (.vcoreDrain g v) s = .next t ∧ t.rd u Reg.vcoreCtrlRun = 0 ∧
      t.rd u Reg.vcoreCtrlDrain = 0 ∧ t.mem = s.mem ∧ t.queues = s.queues)

/-- R109–R111, R118: a V-core that runs takes the entry at the head of queue 0 into the row in hand. In stage mode it goes through the
stages as its elements become ready: with I32 streams and six stages that only pass input A on, the entry leaves as it came. In
selection mode a row that is not whole only grows; the entry that completes one is the last of the row that is ranked, and with
SEL_OUT = 0 its neuron mask leaves, two bits an element. -/
def Sys2Proof.Claims.VectorTakesRule : Prop :=
  ∀ (s : State) (g : PondIx) (v : Fin 4) (dt gw : Nat) (e : Entry),
    let p := vPos v
    let u : UnitId := .tile g p
    let c := s.vcore g p
    let need := streamEntries (s.rd u Reg.vcoreCfgInFmt) (s.rowLen g p)
    CoreReady s g p → s.vTakes g p = true → c.outQ = [] → s.headData g p 0 = some e →
    (s.rd u Reg.vcoreCfgSelect = 0 → c.inA.length < need → ∃ t, exec (.vcoreEntry g v dt gw) s = .next t ∧
      (inQ t g p 0).hw = (inQ s g p 0).hw.drop 1) ∧
    (s.rd u Reg.vcoreCfgSelect = 0 → s.rd u Reg.vcoreCfgInFmt = 5 → s.rd u Reg.vcoreCfgOutFmt = 5 → s.rd u Reg.vcoreCfgOutPred = 0 →
      c.inA.length < need → c.done = 8 * c.inA.length → c.outVals = [] → c.constNext = [] →
      (∀ n, n < 6 → let x := s.stage g p (s.rd u Reg.vcoreCtrlSet) n
        x.op = 0 ∧ x.guard_ = 0 ∧ x.srcA = (if n = 0 then 1 else 0) ∧ x.reads 2 = false) →
      Room (outQ s g p 0) 1 → ∃ t, exec (.vcoreEntry g v dt gw) s = .next t ∧ (inQ t g p 0).hw = (inQ s g p 0).hw.drop 1 ∧
      (outQ t g p 0).hw = (outQ s g p 0).hw ++ [⟨false, e⟩] ∧ t.mem = s.mem) ∧
    (s.rd u Reg.vcoreCfgSelect = 1 → c.inA.length + 1 < need → ∃ t, exec (.selectionRow g v dt) s = .next t ∧
      (inQ t g p 0).hw = (inQ s g p 0).hw.drop 1 ∧ (t.vcore g p).inA = c.inA ++ [e] ∧ t.mem = s.mem ∧ t.regs = s.regs) ∧
    (let len := s.rowLen g p
     let row := (List.range len).map (streamElem (s.rd u Reg.vcoreCfgInFmt) len (c.inA ++ [e]))
     let marks := selectRow (s.rd u Reg.vcoreSelThresh) (s.rd u Reg.vcoreSelGuard) row
     s.rd u Reg.vcoreCfgSelect = 1 → s.rd u Reg.vcoreCfgSelOut = 0 → c.inA.length + 1 = need → Room (outQ s g p 0) (cdiv len 128) →
      ∃ t, exec (.selectionRow g v dt) s = .next t ∧ (inQ t g p 0).hw = (inQ s g p 0).hw.drop 1 ∧ (t.vcore g p).inA = [] ∧
      (outQ t g p 0).hw = (outQ s g p 0).hw ++ (List.range (cdiv len 128)).map (fun k =>
        (⟨false, BitVec.ofNat 256 ((((marks.drop (128 * k)).take 128).mapIdx (fun i m => m * 2 ^ (2 * i))).sum)⟩ : QEnt)))

/-- R108–R118: the V-core. -/
def Obligations.VectorRowsProcessed : Prop :=
  Claims.VectorControlRule ∧ Claims.VectorTakesRule

/-! S-cores. -/

/-- R120: what an instruction that only computes writes to rd, by opcode, from its word and the registers. -/
def Sys2Proof.Claims.aluResult (op : Nat) (w : SWord) (r : Nat → Word) : Word :=
  match op with
  | 0 => r w.rs1 + r w.rs2
  | 1 => r w.rs1 - r w.rs2
  | 2 => r w.rs1 + w.imm.signExtend 32
  | 3 => r w.rs1 &&& r w.rs2
  | 4 => r w.rs1 ||| r w.rs2
  | 5 => r w.rs1 ^^^ r w.rs2
  | 6 => r w.rs1 &&& w.imm.zeroExtend 32
  | 7 => r w.rs1 ||| w.imm.zeroExtend 32
  | 8 => r w.rs1 <<< (w.imm.toNat % 32)
  | 9 => r w.rs1 >>> (w.imm.toNat % 32)
  | 10 => (r w.rs1).sshiftRight (w.imm.toNat % 32)
  | 11 => if (r w.rs1).slt (r w.rs2) then 1 else 0
  | 12 => if (r w.rs1).ult (r w.rs2) then 1 else 0
  | 13 => r w.rs1 * r w.rs2
  | _ => w.imm.zeroExtend 32 <<< 16

/-- The commands of the instructions that only compute, by opcode. -/
def Sys2Proof.Claims.aluCmds (g : PondIx) (dt : Nat) : List Instr :=
  [.add g dt, .sub g dt, .addi g dt, .and g dt, .or g dt, .xor g dt, .andi g dt, .ori g dt, .shli g dt, .shri g dt, .shai g dt,
    .slt g dt, .sltu g dt, .mul g dt, .lui g dt]

/-- R119, R120: each of the 15 computing instructions writes its result to rd, which g0 ignores, and goes on to the next word. -/
def Sys2Proof.Claims.ScalarAluRule : Prop :=
  ∀ (s : State) (g : PondIx) (dt op : Nat) (c : Instr), (aluCmds g dt)[op]? = some c → Issues s g op →
    ∃ t, exec c s = .next t ∧
      Retires s t g (nextPc s g) ((s.score g).setReg (word s g).rd (aluResult op (word s g) (s.greg g))) ∧ t.greg g 0 = 0

/-- R120: a branch goes to pc + 4 × sext(imm) when its condition on rd and rs1 holds, else to the next word; JAL and JALR jump and
write pc + 4 to rd. -/
def Sys2Proof.Claims.ScalarBranchRule : Prop :=
  ∀ (s : State) (g : PondIx) (dt : Nat),
    let w := word s g
    let pc : Word := BitVec.ofNat 32 (s.score g).pc
    let x := s.greg g w.rd
    let y := s.greg g w.rs1
    let goes (c : Instr) (p : Bool) : Prop := ∃ t, exec c s = .next t ∧
      Retires s t g (if p then (pc + 4 * w.imm.signExtend 32).toNat else nextPc s g) (s.score g)
    (Issues s g 21 → goes (.beq g dt) (decide (x = y))) ∧
    (Issues s g 22 → goes (.bne g dt) (decide (x ≠ y))) ∧
    (Issues s g 23 → goes (.blt g dt) (decide (x.toInt < y.toInt))) ∧
    (Issues s g 24 → goes (.bge g dt) (decide (y.toInt ≤ x.toInt))) ∧
    (Issues s g 25 → goes (.bltu g dt) (decide (x.toNat < y.toNat))) ∧
    (Issues s g 26 → ∃ t, exec (.jal g dt) s = .next t ∧
      Retires s t g (pc + 4 * w.imm.signExtend 32).toNat ((s.score g).setReg w.rd (pc + 4))) ∧
    (Issues s g 27 → ∃ t, exec (.jalr g dt) s = .next t ∧
      Retires s t g (y + w.imm.signExtend 32).toNat ((s.score g).setReg w.rd (pc + 4)))

/-- R119: the arithmetic and control-flow instructions of the S-core. -/
def Obligations.ScalarAluAndBranches : Prop :=
  Claims.ScalarAluRule ∧ Claims.ScalarBranchRule

/-- R119–R121: loads and stores of the S-core's own local memory and scratchpad, little-endian at rs1 + sext(imm), with no
unreadable word in the range: LW, LH sign-extended, LBU zero-extended; SW and SB change the bytes of the access and no others;
AMOADD reads and adds in one step. -/
def Sys2Proof.Claims.ScalarMemoryRule : Prop :=
  ∀ (s : State) (g : PondIx) (dt k : Nat),
    let w := word s g
    let a := s.greg g w.rs1 + w.imm.signExtend 32
    let v := s.greg g w.rd
    let loads (c : Instr) (x : Word) : Prop := ∃ t, exec c s = .next t ∧
      Retires s t g (nextPc s g) ((s.score g).setReg w.rd x)
    let stored (t : State) (n x : Nat) : State := { s with
      mem := s.mem.putBytes k (leBytes n x)
      bad := t.bad }
    let stores (c : Instr) (n : Nat) : Prop := ∃ t, exec c s = .next t ∧
      Retires (stored t n v.toNat) t g (nextPc s g) (s.score g) ∧ ∀ j, j < k ∨ k + n ≤ j → t.mem.byte j = s.mem.byte j
    (Issues s g 15 → ownMem s g 4 a = some k → s.sramBad k 4 = false →
      loads (.lw g dt .good) (BitVec.ofNat 32 (s.memNat k 4))) ∧
    (Issues s g 16 → ownMem s g 2 a = some k → s.sramBad k 2 = false →
      loads (.lh g dt .good) ((BitVec.ofNat 16 (s.memNat k 2)).signExtend 32)) ∧
    (Issues s g 17 → ownMem s g 1 a = some k → s.sramBad k 1 = false →
      loads (.lbu g dt .good) (BitVec.ofNat 32 (s.memNat k 1))) ∧
    (Issues s g 18 → ownMem s g 4 a = some k → s.partialBad k 4 = false → stores (.sw g dt) 4) ∧
    (Issues s g 19 → ownMem s g 1 a = some k → s.partialBad k 1 = false → stores (.sb g dt) 1) ∧
    (Issues s g 20 → ownMem s g 4 (s.greg g w.rs1) = some k → s.sramBad k 4 = false →
      ∃ t, exec (.amoadd g dt) s = .next t ∧
        let old : Word := BitVec.ofNat 32 (s.memNat k 4)
        Retires (stored t 4 (old + s.greg g w.rs2).toNat) t g (nextPc s g) ((s.score g).setReg w.rd old) ∧
        ∀ j, j < k ∨ k + 4 ≤ j → t.mem.byte j = s.mem.byte j)

/-- R120, R124, R185: HALT stops the S-core; RETI returns to SCORE_EPC and leaves the handler; EVEN writes the enables, those of
causes 2, 6 and 9 staying 1; STEP commits a step; IDLE and WAITS stall, WAITS as a waiter on an own-pond spring; a FENCE with
nothing outstanding, OPAL and EVT go on. -/
def Sys2Proof.Claims.ScalarControlRule : Prop :=
  ∀ (s : State) (g : PondIx) (dt : Nat),
    let u : UnitId := .tile g 5
    let w := word s g
    let x := s.greg g w.rs1
    (Issues s g 28 → ∃ t, exec (.halt g dt) s = .next t ∧ t.rd u Reg.scoreEstatHalted = 1 ∧ t.mem = s.mem ∧
      t.score g = { s.score g with pc := nextPc s g }) ∧
    (Issues s g 45 → s.rd u Reg.scoreEstatInHandler = 1 → ∃ t, exec (.reti g dt) s = .next t ∧
      t.rd u Reg.scoreEstatInHandler = 0 ∧ t.mem = s.mem ∧
      t.score g = { s.score g with pc := 4 * s.rd u Reg.scoreEpcEpc % 2 ^ 32 }) ∧
    (Issues s g 46 → ∃ t, exec (.even g dt) s = .next t ∧ t.rd u Reg.scoreEvtEn = (x.toNat % 2 ^ 10 ||| 0x122) ∧
      t.mem = s.mem ∧ t.score g = { s.score g with pc := nextPc s g }) ∧
    (Issues s g 47 → ∃ t, exec (.step g dt) s = .next t ∧
      t.rd u Reg.scoreStepStep = (s.rd u Reg.scoreStepStep + 1) % 2 ^ 32 ∧ t.mem = s.mem ∧
      t.score g = { s.score g with
        pc := nextPc s g
        misses := 0 }) ∧
    (Issues s g 43 → ∃ t, exec (.idle g dt) s = .next t ∧ (t.score g).stall = some .idle ∧ (t.score g).pc = (s.score g).pc ∧
      t.mem = s.mem) ∧
    (Issues s g 32 → ∃ t, exec (.waits g dt) s = .next t ∧ (t.score g).stall = some .waits ∧
      (t.score g).pc = (s.score g).pc ∧ t.mem = s.mem ∧ t.springs = s.springs ∧
      t.waiters = s.waiters ++ [⟨g, .score, x.toNat % 64, w.imm.getLsbD 0, s.evals.get g 0⟩]) ∧
    (Issues s g 40 → s.fenced g = true → ∃ t, exec (.fence g dt) s = .next t ∧ Retires s t g (nextPc s g) (s.score g)) ∧
    (Issues s g 44 → ∃ t, exec (.opal g dt) s = .next t ∧ t.rd u Reg.scoreOpalIdle = x.toNat % 2 ^ 16 ∧
      t.rd u Reg.scoreOpalMask = (s.greg g w.rs2).toNat % 2 ^ 16 ∧ t.mem = s.mem ∧
      t.score g = { s.score g with pc := nextPc s g }) ∧
    (Issues s g 39 → ∃ t, exec (.evt g dt) s = .next t ∧ t.score g = { s.score g with pc := nextPc s g } ∧ t.mem = s.mem ∧
      ∃ r, t.err.queue = s.err.queue ++ [r] ∧ r.kind = 0x8000 + w.imm.toNat % 2 ^ 15 ∧ r.tile = 5 ∧
        r.detail = x.toNat + (s.greg g w.rs2).toNat * 2 ^ 32)

/-- R120, R185: SIG of an own-pond spring adds the amount, POLLS reads the count; TIMEL reads the low half of global time and
latches the high half, which TIMEH reads; CSRR reads a register of the own pond, CSRW writes one (here SCORE_WDOG); AGST reads the
status of a handle. -/
def Sys2Proof.Claims.ScalarReadsRule : Prop :=
  ∀ (s : State) (g : PondIx) (dt : Nat),
    let u : UnitId := .tile g 5
    let w := word s g
    let x := s.greg g w.rs1
    let a := x + w.imm.signExtend 32
    let gets (c : Instr) (v : Nat) : Prop := ∃ t, exec c s = .next t ∧
      Retires s t g (nextPc s g) ((s.score g).setReg w.rd (BitVec.ofNat 32 v))
    let n := x.toNat % 64
    let p := s.spring g n
    (Issues s g 31 → x.toNat / 2 ^ 21 % 64 = s.rank → x.toNat / 2 ^ 6 % 512 = g % 288 → x.toNat / 2 ^ 15 % 64 = g / 288 →
      p.count + (s.greg g w.rs2).toNat < 2 ^ 32 → ∃ t, exec (.sig g dt) s = .next t ∧
      t.springs = s.springs.set (64 * g + n) Spring.zero { p with
        count := p.count + (s.greg g w.rs2).toNat
        applied := min (p.applied + 1) 0xFFFFFFFF } ∧
      t.mem = s.mem ∧ t.score g = { s.score g with pc := nextPc s g }) ∧
    (Issues s g 33 → gets (.polls g dt) p.count) ∧
    (Issues s g 38 → gets (.agst g dt) (s.genStatus g x.toNat)) ∧
    (∀ c : Fin 20, Issues s g 41 →
      let v := s.lakeNow (lakeOf g) c (s.rd (.lake (lakeOf g)) Reg.lakeClkStatN)
      ∃ t, exec (.timel g dt c) s = .next t ∧
        Retires s t g (nextPc s g) { (s.score g).setReg w.rd (BitVec.ofNat 32 v) with timeh := v / 2 ^ 32 }) ∧
    (Issues s g 42 → gets (.timeh g dt) (s.score g).timeh) ∧
    (∀ k o, Issues s g 29 → csrOperand a = some (k, o) → ¬(k < 16 ∧ s.csrFailed g k o = true) →
      ∃ t, exec (.csrr g dt) s = .next t ∧ t.mem = s.mem ∧
        t.score g = { (s.score g).setReg w.rd (BitVec.ofNat 32
          (((s.count u Reg.scoreStall Reg.scoreWrap 1 dt).csrRead32 (ownUnit g k) o 0).1)) with pc := nextPc s g }) ∧
    (Issues s g 30 → csrOperand a = some (5, 0x30) → (s.greg g w.rd).toNat % 2 ^ 20 ≠ 0 →
      ∃ t, exec (.csrw g dt) s = .next t ∧ t.rd u Reg.scoreWdogTimeout = (s.greg g w.rd).toNat % 2 ^ 20 ∧
        t.mem = s.mem ∧ t.score g = { s.score g with pc := nextPc s g })

/-- R119, R120, R127: the S-core's loads, stores and register reads. -/
def Obligations.ScalarLoadsStoresReads : Prop :=
  Claims.ScalarMemoryRule ∧ Claims.ScalarReadsRule

/-- R120, R146, R169: TOKW puts eight registers into an output queue as one entry, TOKR takes an entry apart into eight registers and
LAST_TOK holds its kind, TOKQ counts what waits in an input queue; AGGO queues the descriptor it points at and rd takes its handle. -/
def Sys2Proof.Claims.ScalarTokensRule : Prop :=
  ∀ (s : State) (g : PondIx) (dt : Nat),
    let u : UnitId := .tile g 5
    let w := word s g
    let q := w.imm.toNat % 8
    (Issues s g 34 → w.rs1 ≤ 24 → Room (outQ s g 5 q) 1 → ∃ t e, exec (.tokw g dt) s = .next t ∧
      (outQ t g 5 q).hw = (outQ s g 5 q).hw ++ [e] ∧ e.tok = w.imm.getLsbD 3 ∧
      (∀ i, i < 8 → e.data.toNat / 2 ^ (32 * i) % 2 ^ 32 = (s.greg g (w.rs1 + i)).toNat) ∧
      t.mem = s.mem ∧ t.score g = { s.score g with pc := nextPc s g }) ∧
    (∀ e, Issues s g 35 → w.rd ≤ 24 → s.headOf g 5 false q = some e → ∃ t, exec (.tokr g dt) s = .next t ∧
      (inQ t g 5 q).hw = (inQ s g 5 q).hw.drop 1 ∧ t.rd u Reg.rtrQstatLastTok = e.tok.toNat ∧
      (∀ i, i < 8 → w.rd + i ≠ 0 → t.greg g (w.rd + i) = BitVec.ofNat 32 (e.data.toNat / 2 ^ (32 * i))) ∧
      (t.score g).pc = nextPc s g ∧ t.mem = s.mem) ∧
    (Issues s g 35 → w.rd ≤ 24 → s.headOf g 5 false q = none → ∃ t, exec (.tokr g dt) s = .next t ∧
      (t.score g).stall = some (.tokr q) ∧ (t.score g).pc = (s.score g).pc ∧ t.queues = s.queues) ∧
    (Issues s g 36 → ∃ t, exec (.tokq g dt) s = .next t ∧
      Retires s t g (nextPc s g) ((s.score g).setReg w.rd (BitVec.ofNat 32 (inQ s g 5 q).count))) ∧
    (∀ k, Issues s g 37 →
      let i := (s.greg g w.rs1).toNat % 16
      let n := (s.greg g w.rs1).toNat / 16 % 4
      tileType i = .a → (s.tileW g i).testBit 0 = false → ownMem s g 32 (s.greg g w.rs2) = some k → s.sramBad k 128 = false →
      (s.gen g i n).queue.length < 4 → ∃ t d, exec (.aggo g dt) s = .next t ∧
        (t.gen g i n).queue = (s.gen g i n).queue ++ [d] ∧ d.raw = BitVec.ofNat 1024 (s.memNat k 128) ∧
        (w.rd ≠ 0 → t.greg g w.rd = BitVec.ofNat 32 d.handle) ∧ (t.score g).pc = nextPc s g ∧ t.mem = s.mem)

/-- R122, R123: an enabled event enters a FIFO with room, a disabled one is discarded and counted, one that finds the FIFO full stays
with its source; taking the head event saves the program counter, shows the cause and enters the handler at SCORE_EVT.VEC; an event
waiting beyond the watchdog's limit makes the S-core dead in the overlay map. -/
def Sys2Proof.Claims.ScalarEventsRule : Prop :=
  ∀ (s : State) (g : PondIx) (e : SEvent) (rest : List SEvent),
    let u : UnitId := .tile g 5
    (∀ l, s.events = ((g : Nat), e) :: l →
      (s.causeOn g e.cause = true → (s.score g).fifo.length < 16 → ∃ t, exec (.eventEnqueue g 1) s = .next t ∧
        (t.score g).fifo = (s.score g).fifo ++ [e] ∧ t.mem = s.mem) ∧
      (s.causeOn g e.cause = false → ∃ t, exec (.eventEnqueue g 1) s = .next t ∧ t.scores = s.scores ∧
        t.rd u Reg.scoreEvents = min (s.rd u Reg.scoreEvents + 1) 0xFFFFFFFF ∧ t.mem = s.mem) ∧
      (s.causeOn g e.cause = true → 16 ≤ (s.score g).fifo.length → ∃ t, exec (.eventEnqueue g 1) s = .next t ∧
        Raised t g e.cause e.src ∧ t.scores = s.scores ∧ t.regs = s.regs ∧ t.mem = s.mem)) ∧
    (s.scoreLive g = true → s.rd u Reg.scoreEstatInHandler = 0 → (s.score g).stall = none → (s.score g).fifo = e :: rest →
      e.cause < 16 → e.src < 16 → (s.score g).pc < 2 ^ 18 → ∃ t, exec (.eventTake g) s = .next t ∧
      t.rd u Reg.scoreEpcEpc = (s.score g).pc / 4 ∧ t.rd u Reg.scoreEstatCause = e.cause ∧ t.rd u Reg.scoreEstatSrc = e.src ∧
      t.rd u Reg.scoreEstatInHandler = 1 ∧ t.mem = s.mem ∧
      t.score g = { s.score g with
        fifo := rest
        headWait := 0
        pc := 4 * s.rd u Reg.scoreEvtVec }) ∧
    (∀ us, (s.score g).fifo ≠ [] → s.rd u Reg.scoreCtrlRun = 1 → CoreReady s g 5 →
      (s.rd u Reg.scoreWdogTimeout < (s.score g).headWait + us → ∃ t, exec (.scoreDead g us) s = .next t ∧
        (t.tileW g 5).testBit 0 = true ∧ t.mem = s.mem) ∧
      ((s.score g).headWait + us ≤ s.rd u Reg.scoreWdogTimeout → ∃ t, exec (.scoreDead g us) s = .next t ∧
        t.score g = { s.score g with headWait := (s.score g).headWait + us } ∧ t = { s with scores := t.scores }))

/-- R121–R123: the S-core's tokens and events. -/
def Obligations.ScalarTokensAndEvents : Prop :=
  Claims.ScalarTokensRule ∧ Claims.ScalarEventsRule

/-- The commands of the S-core's 48 instructions. -/
def Sys2Proof.Claims.scalarCmds (g : PondIx) (dt : Nat) : List Instr :=
  aluCmds g dt ++
    [.lw g dt .good, .lh g dt .good, .lbu g dt .good, .sw g dt, .sb g dt, .amoadd g dt, .beq g dt, .bne g dt, .blt g dt,
      .bge g dt, .bltu g dt, .jal g dt, .jalr g dt, .halt g dt, .csrr g dt, .csrw g dt, .sig g dt, .waits g dt, .polls g dt,
      .tokw g dt, .tokr g dt, .tokq g dt, .aggo g dt, .agst g dt, .evt g dt, .fence g dt, .timel g dt 0, .timeh g dt, .idle g dt,
      .opal g dt, .reti g dt, .even g dt, .step g dt]

/-- R119, R122: an opcode of 0x30 or more raises PROG_FAULT whichever instruction is tried: SCORE_EPC holds the word's address, and
no register, no memory and not the program counter change; a word that is another instruction's leaves the state alone (log
entry 4). -/
def Sys2Proof.Claims.ScalarProgFaultRule : Prop :=
  ∀ (s : State) (g : PondIx) (dt op i : Nat) (c : Instr), Issues s g op → (scalarCmds g dt)[i]? = some c →
    (0x30 ≤ op → s.rd (.tile g 5) Reg.scoreEstatInHandler = 0 → ∃ t, exec c s = .next t ∧ Raised t g 8 5 ∧
      t.rd (.tile g 5) Reg.scoreEpcEpc = (s.score g).pc / 4 ∧ t.scores = s.scores ∧ t.mem = s.mem) ∧
    (op < 0x30 → op ≠ i → exec c s = .next s)

/-- R119–R125: the S-core's control instructions and program faults. -/
def Obligations.ScalarControlAndFaults : Prop :=
  Claims.ScalarControlRule ∧ Claims.ScalarProgFaultRule

/-- R119: the fields of an instruction word: every opcode, register and imm is read back from the word that carries it, rs2 from
the top of imm. -/
def Obligations.ScalarWordReadsBack : Prop :=
  ∀ (op : BitVec 6) (rd rs1 rs2 : BitVec 5) (imm : BitVec 16) (low : BitVec 11),
    (let w := sDecode (sEncode op rd rs1 imm);
      w.op = op.toNat ∧ w.rd = rd.toNat ∧ w.rs1 = rs1.toNat ∧ w.imm = imm) ∧
    (let w := sDecode (sEncodeR op rd rs1 rs2 low);
      w.op = op.toNat ∧ w.rd = rd.toNat ∧ w.rs1 = rs1.toNat ∧ w.rs2 = rs2.toNat)

/-! Memory. -/

/-- R139: the patrol counts its corrections, and a bank that exceeds 16 in the hour awaits retirement: a pond-memory bank is written to
the overlay map at once, a core's bank fails its core when the pond is next reset and leaves the overlay map alone until then. -/
def Sys2Proof.Claims.PondScrubRule : Prop :=
  ∀ (s : State) (g : PondIx) (unit : Fin 17) (bank : Fin 34) (corr : Nat) (hour : Bool),
    let was := if hour then 0 else (s.pmemOf g).corr.get (64 * unit + bank) 0
    s.clocked g = true → s.rd (.pond g) Reg.pondMemCfgPatrolEn = 1 → ∃ t, exec (.patrolScrub g unit bank corr hour) s = .next t ∧
      t.rd (.pond g) Reg.pondEccCorr = min (s.rd (.pond g) Reg.pondEccCorr + corr) 0xFFFFFFFF ∧
      (t.pmemOf g).corr.get (64 * unit + bank) 0 = was + corr ∧ t.mem = s.mem ∧
      (was ≤ 16 → 16 < was + corr → (unit : Nat) < 16 →
        (t.pmemOf g).retire.testBit (34 + unit) = true ∧ t.overlay = s.overlay) ∧
      (was ≤ 16 → 16 < was + corr → (unit : Nat) = 16 → ∃ b, (t.pondW g).testBit b = true ∧ (t.pmemOf g).retire.testBit b = true) ∧
      (was + corr ≤ 16 → t.overlay = s.overlay)

/-- R140: a share above 4, or a change in a running partition, is refused with CFG_WR_IGN; another share is taken and the split
changes; when the write-backs are acknowledged the bytes whose role changed are zero, no others change, and the cache is empty. -/
def Sys2Proof.Claims.CacheSplitRule : Prop :=
  ∀ (s : State) (g : PondIx),
    (∀ c : Fin 8, Present s (.pond g) →
      (4 < (c : Nat) ∨ s.inRunning g = true → exec (.cacheMib g c) s = .next (s.wr (.pond g) Reg.pondRstStatCfgWrIgn 1)) ∧
      ((c : Nat) ≤ 4 → s.inRunning g = false → (c : Nat) ≠ s.cacheShare g → ∃ t, exec (.cacheMib g c) s = .next t ∧
        t.rd (.pond g) Reg.pondMemCfgCacheMib = c ∧ (t.pmemOf g).split = true)) ∧
    (s.clocked g = true → (s.pmemOf g).split = true → (s.pmemOf g).wbOut = 0 → (s.pmemOf g).misses = [] →
      ∃ t, exec (.splitDone g) s = .next t ∧
      (t.pmemOf g).split = false ∧ (t.pmemOf g).sets = [] ∧ t.regs = s.regs ∧
      let lo := pondKey g ((8 - max (s.pmemOf g).oldC (s.cacheShare g)) * 2 ^ 20)
      let hi := lo + (max (s.pmemOf g).oldC (s.cacheShare g) - min (s.pmemOf g).oldC (s.cacheShare g)) * 2 ^ 20
      ∀ k, t.mem.byte k = if lo ≤ k ∧ k < hi then 0 else s.mem.byte k)

/-- R144: a cache command starts when none runs, after the reads that missed before it, is held when one runs and none is held, and
sets CMD_OVF otherwise. INVAL and FLINV of the whole cache leave no line, INVAL without a write-back. A command whose write-backs are
acknowledged ends, with its signal. -/
def Sys2Proof.Claims.CacheCommandsRule : Prop :=
  ∀ (s : State) (g : PondIx) (sp : Fin 64) (sig : Bool),
    let m := s.pmemOf g
    let cmd (op : Nat) (range swept : Bool) : CCmd :=
      ⟨op, range, sp, sig, s.rd (.pond g) Reg.pondCacheBaseLine, s.rd (.pond g) Reg.pondCacheLenLines, swept⟩
    (Present s (.pond g) → m.cmd = none → m.misses = [] →
      (∀ r, ∃ t, exec (.flush g r sp sig) s = .next t ∧ (t.pmemOf g).cmd = some (cmd 1 r true) ∧ t.mem = s.mem) ∧
      (∃ t, exec (.inval g false sp sig) s = .next t ∧ (t.pmemOf g).cmd = some (cmd 2 false true) ∧ t.net = s.net ∧
        ∀ i, ((t.pmemOf g).sets.get i CSet.empty).ways = []) ∧
      (∃ t, exec (.flinv g false sp sig) s = .next t ∧ (t.pmemOf g).cmd = some (cmd 3 false true) ∧
        ∀ i, ((t.pmemOf g).sets.get i CSet.empty).ways = [])) ∧
    (Present s (.pond g) → m.cmd = none → m.misses ≠ [] → ∀ r, ∃ t, exec (.inval g r sp sig) s = .next t ∧
      t = { s with pmem := t.pmem } ∧ t.pmemOf g = { m with cmd := some (cmd 2 r false) }) ∧
    (Present s (.pond g) → ∀ c r, m.cmd = some c → m.held = none →
      (∃ t, exec (.flush g r sp sig) s = .next t ∧ t = { s with pmem := t.pmem } ∧
        t.pmemOf g = { m with held := some (cmd 1 r false) }) ∧
      (∃ t, exec (.inval g r sp sig) s = .next t ∧ t = { s with pmem := t.pmem } ∧
        t.pmemOf g = { m with held := some (cmd 2 r false) }) ∧
      (∃ t, exec (.flinv g r sp sig) s = .next t ∧ t = { s with pmem := t.pmem } ∧
        t.pmemOf g = { m with held := some (cmd 3 r false) })) ∧
    (Present s (.pond g) → ∀ c d r, m.cmd = some c → m.held = some d →
      exec (.flush g r sp sig) s = .next (s.wr (.pond g) Reg.pondMemStatCmdOvf 1) ∧
      exec (.inval g r sp sig) s = .next (s.wr (.pond g) Reg.pondMemStatCmdOvf 1) ∧
      exec (.flinv g r sp sig) s = .next (s.wr (.pond g) Reg.pondMemStatCmdOvf 1)) ∧
    (s.clocked g = true → ∀ c, m.cmd = some c → c.swept = true → m.held = none → m.wbOut = 0 →
      ∃ t, exec (.cacheCmdDone g) s = .next t ∧
      (t.pmemOf g).cmd = none ∧ t.mem = s.mem ∧
      (t.spring g c.spring).count = (if c.sig = true then min ((s.spring g c.spring).count + 1) 0xFFFFFFFF
        else (s.spring g c.spring).count))

/-- R141, R144: a fetched line that no way holds, wanted by a packing generator, takes a way: afterwards it is in the cache, every byte
of it valid and none dirty, where no cache command waits for it. -/
def Sys2Proof.Claims.CacheFillRule : Prop :=
  ∀ (s : State) (g : PondIx) (l e : Nat) (offs : List Nat) (x : Miss),
    s.clocked g = true → (s.pmemOf g).misses = [x] → x.line = l → x.parts.length = 4 → x.failed = 0 → x.into = .buf e offs →
    (∀ c, (s.pmemOf g).cmd = some c → c.swept = true) → (s.cset g l).find l = none →
    ∃ t y, exec (.cacheFill g l) s = .next t ∧ t.mem = s.mem ∧
      (t.pmemOf g).misses = [] ∧ (t.cset g l).find l = some y ∧ y.2.valid = ~~~(0 : BitVec 128) ∧ y.2.dirty = 0

/-- R136–R144: patrol scrub, the cache share of pond memory, and the cache. -/
def Obligations.PondMemoryAndCache : Prop :=
  Claims.PondScrubRule ∧ Claims.CacheSplitRule ∧ Claims.CacheCommandsRule ∧ Claims.CacheFillRule

/-- R146, R149, R151: generator n starts its next descriptor: legal, without NEXT and no spill operation, it becomes the last of
those running and its handle shows; illegal, it fails with kind 7, which shows with ERR and NEG_COMPLETION, and what was queued is
discarded. -/
def Sys2Proof.Claims.GeneratorStartRule : Prop :=
  ∀ (s : State) (g : PondIx) (a : Fin 3) (n : Fin 4) (d : QDesc) (rest : Gen),
    let p := aPos a
    let u : UnitId := .tile g p
    let x := s.gen g p n
    AunitReady s g p → s.rd u Reg.auCtrlRun = 1 → (s.rd u Reg.auStatusErr).testBit n = false → x.aborting = false →
    s.withheld g p = false → (∀ r ∈ x.run, r.issued = true ∧ r.kind = 0) → x.next = some (d, rest) → (d.flag 4 = true → x.run = []) →
    (d.bad = false → d.flag 5 = false → d.op ≠ 6 → d.op ≠ 7 → ∃ t r, exec (.descriptorStart g a n) s = .next t ∧
      (t.gen g p n).run = x.run ++ [r] ∧ r.d = d ∧ r.pos = 0 ∧ (t.gen g p n).queue = rest.queue ∧
      t.rdi u Reg.auGenStatHandle n = d.handle % 2 ^ 32 ∧ t.rdi u Reg.auGenPosDone n = 0 ∧ t.mem = s.mem) ∧
    (d.bad = true → x.run = [] → ∃ t, exec (.descriptorStart g a n) s = .next t ∧
      (t.gen g p n).run = [] ∧ (t.gen g p n).queue = [] ∧ (t.gen g p n).chain = none ∧
      t.rdi u Reg.auGenStatKind n = 7 ∧ (t.rd u Reg.auStatusErr).testBit n = true ∧ Raised t g 7 p ∧ t.mem = s.mem)

/-- The memory key of an address in the pond's own memories. -/
def Sys2Proof.Claims.ownKeyAt (s : State) (g a : Nat) : Nat :=
  match s.ownAddr g a with
  | .ok x => x.1
  | .error _ => 0

/-- R147, R150: one request of a FILL whose next elements lie in the pond's own memories writes the constant's bytes there, at the
addresses the pattern gives, and no other byte; a descriptor whose pattern is used up has issued all. -/
def Sys2Proof.Claims.GeneratorRequestRule : Prop :=
  ∀ (s : State) (g : PondIx) (a : Fin 3) (n : Fin 4) (dt conf : Nat) (r : RunDesc),
    let p := aPos a
    let s0 := if dt = 0 then s else s.genStall g p n dt
    let s1 := if conf = 0 then s0 else s0.count (.pond g) Reg.pondBankConf Reg.pondMemWrap 0 conf
    AunitReady s g p → (s.gen g p n).run = [r] → r.kind = 0 → r.held = [] → r.issued = false → r.d.op = 3 →
    (r.pos = r.d.total → ∃ t, exec (.descriptorRequest g a n ⟨dt, conf⟩) s = .next t ∧
      (t.gen g p n).run = [{ r with issued := true }] ∧ t.mem = s.mem) ∧
    (∀ at_, r.pos ≠ r.d.total → s1.elemAddr g p r.d true r.pos = (s1, .ok at_) → at_ % r.d.esize = 0 →
      let l := s1.mergeRun g p r.d r.pos false true 0 at_ 32
      let ws := blockWrites r.d.esize (l.mapIdx (fun i x => (x.2, fillBytes (r.d.f 96 8) ((r.pos + i) * r.d.esize) r.d.esize)))
      (∀ w ∈ ws, s1.isOwn g w.1 = true ∧ (s1.ownAddr g w.1).isOk = true ∧ s1.partialBad (ownKeyAt s1 g w.1) w.2.1 = false) →
      ∃ t, exec (.descriptorRequest g a n ⟨dt, conf⟩) s = .next t ∧
        t.mem = ws.foldl (fun m w => m.putBytes (ownKeyAt s1 g w.1) (leBytes w.2.1 w.2.2)) s.mem ∧
        (t.gen g p n).run = [{ r with pos := r.pos + l.length }])

/-- R151–R153, R167: a descriptor whose requests are answered and that signals nobody is done; ABORT stops the running descriptor
with kind 11 and discards the queue; DRAIN, with no steering unit that batches, takes effect once nothing is queued or running;
writing 1s clears ERR bits. -/
def Sys2Proof.Claims.GeneratorControlRule : Prop :=
  ∀ (s : State) (g : PondIx) (a : Fin 3) (n : Fin 4),
    let p := aPos a
    let u : UnitId := .tile g p
    let x := s.gen g p n
    (∀ r, AunitReady s g p → x.run = [r] → r.issued = true → r.outst = 0 → r.kind = 0 → r.held = [] → r.out = [] →
      r.sigSent = false → r.d.f 104 8 = 0 → ∃ t, exec (.descriptorComplete g a n) s = .next t ∧
      (t.gen g p n).run = [] ∧ (∃ h ∈ (t.gen g p n).hist, h.handle = r.d.handle ∧ h.state = 2) ∧ t = { s with gens := t.gens }) ∧
    (∀ r, Present s u → x.run = [r] → r.kind = 0 → r.outst = 0 → ∃ t, exec (.abort g a n) s = .next t ∧
      (t.gen g p n).run = [] ∧ (t.gen g p n).queue = [] ∧ (t.gen g p n).chain = none ∧ t.rdi u Reg.auGenStatKind n = 11 ∧
      (t.rd u Reg.auStatusErr).testBit n = true ∧ Raised t g 7 p ∧ t.mem = s.mem) ∧
    (Present s u → NoBatch s g p → s.auIdle g p = true → ∃ t, exec (.auDrain g a true) s = .next t ∧ t.rd u Reg.auCtrlRun = 0 ∧
      t.rd u Reg.auCtrlDrain = 0 ∧ OnlyRegs s t [(u, Reg.auCtrlRun, 0), (u, Reg.auCtrlDrain, 0)]) ∧
    (Present s u → NoBatch s g p → s.auIdle g p = false → ∃ t, exec (.auDrain g a true) s = .next t ∧ t.rd u Reg.auCtrlDrain = 1 ∧
      OnlyRegs s t [(u, Reg.auCtrlDrain, 0)]) ∧
    (∀ m : BitVec 4, Present s u → s.rd u Reg.auStatusErr < 16 → ∃ t, exec (.auErrClear g a m) s = .next t ∧
      OnlyRegs s t [(u, Reg.auStatusErr, 0)] ∧
      ∀ i, i < 4 → (t.rd u Reg.auStatusErr).testBit i = ((s.rd u Reg.auStatusErr).testBit i && !m.getLsbD i))

/-- R146–R153: the A-unit's generators. -/
def Obligations.GeneratorsRunDescriptors : Prop :=
  Claims.GeneratorStartRule ∧ Claims.GeneratorRequestRule ∧ Claims.GeneratorControlRule

/-- R155–R157: a channel controller serves a held READ with its bytes and a held WRITE by storing its bytes and no others, both
answered; the request leaves the controller. No other request for the burst is held, and the burst reads good. -/
def Sys2Proof.Claims.DramServeRule : Prop :=
  ∀ (s : State) (f : FieldIx) (n dt : Nat) (p : Packet),
    let d := s.dram f
    let o := dramOff p.dest
    let me := srcStrip s.rank f (d.chan o)
    let k := dramKey f o
    d.queue[n]? = some p → s.dramStopped f = false → (∀ q ∈ d.queue.eraseIdx n, burstOf q ≠ burstOf p) →
    d.dead.testBit (d.chan o) = false → s.dramBad (dramKey f (o / 64 * 64)) 64 = false → s.dramBad k (p.len + 1) = false →
    Local s p →
    (p.typ = 0 → ∃ t, exec (.dramRequest f n dt .good) s = .next t ∧ (t.dram f).queue = d.queue.eraseIdx n ∧ t.mem = s.mem ∧
      Answered t me p 8 p.len false (BitVec.ofNat 256 (s.memNat k (p.len + 1)))) ∧
    (p.typ = 1 → ∃ t, exec (.dramRequest f n dt .good) s = .next t ∧ (t.dram f).queue = d.queue.eraseIdx n ∧
      t.mem = s.mem.putBytes k ((bvBytes 32 p.payload).take (p.len + 1)) ∧ Answered t me p 9 1 false 1)

/-- R157, R158, R162: the patrol counts corrected bursts, which it writes (log entry 15), and keeps an uncorrectable one in
DRAM_ERR_LAST; a sample gives the stack's state by its temperature; a stop that outlasts the hold time answers every held request
DRAM_STOPPED; a channel that fails in service is marked in the overlay map and serves no more. -/
def Sys2Proof.Claims.DramStatesRule : Prop :=
  ∀ (s : State) (f : FieldIx),
    let u : UnitId := .dram f
    let ch (o : BitVec 37) : Nat := (s.dram f).chan o.toNat
    (∀ o : BitVec 37, s.rd u Reg.dramPatrolEn = 1 → s.dramStopped f = false →
      (s.dramBad (dramKey f (o.toNat / 64 * 64)) 64 = false → ∃ t, exec (.dramPatrol f o .corrected false) s = .next t ∧
        t.rd u Reg.dramEccCorr = min (s.rd u Reg.dramEccCorr + 1) 0xFFFFFFFF ∧ OnlyRegs s t
          [(u, Reg.dramEccCorr, 0), (u, Reg.dramChRd, ch o), (u, Reg.dramChWr, ch o), (u, Reg.dramChWrap, ch o)]) ∧
      (∃ t, exec (.dramPatrol f o .uncorrectable true) s = .next t ∧ t.rd u Reg.dramErrLastValid = 1 ∧
        t.rd u Reg.dramErrLastOffset = o.toNat / 64 * 64 ∧ t.rd u Reg.dramEccUnc = min (s.rd u Reg.dramEccUnc + 1) 0xFFFFFFFF ∧
        t.rd u Reg.dramPatrolPasses = min (s.rd u Reg.dramPatrolPasses + 1) 0xFFFFFFFF ∧ t.mem = s.mem ∧
        t.dramBad (dramKey f (o.toNat / 64 * 64)) 64 = true)) ∧
    (∀ temp, temp < 460 → s.rd u Reg.dramThermState = 0 → ∃ t, exec (.dramState f temp) s = .next t ∧
      t.rd u Reg.dramThermState = (if 420 ≤ temp then 3 else if 380 < temp then 2 else if 340 < temp then 1 else 0) ∧
      t.rd u Reg.dramThermTemp = temp) ∧
    (s.dramStopped f = true → (∀ p ∈ (s.dram f).queue, Local s p) → ∃ t, exec (.dramStopped f) s = .next t ∧
      (t.dram f).queue = [] ∧ (t.dram f).expired = true ∧ t.mem = s.mem ∧ ∀ p ∈ (s.dram f).queue,
        Answered t (srcStrip s.rank f ((s.dram f).chan (dramOff p.dest))) p 0xA 0 false (nackPayload 6 p.dest)) ∧
    (∀ ch : Fin 32, (s.dram f).dead.testBit ch = false → (s.dram f).chans.testBit ch = true → ∃ t,
      exec (.channelFail f ch) s = .next t ∧ (t.dram f).dead.testBit ch = true ∧ (t.fieldW f).testBit (8 + ch) = true ∧
      t.mem = s.mem)

/-- R155–R163: the DRAM controllers. -/
def Obligations.DramServesBursts : Prop :=
  Claims.DramServeRule ∧ Claims.DramStatesRule

/-! Traffic, queues, steering, springs. -/

/-- R128, R240: a READ of local or pond memory that its target accepts is answered with the bytes; a WRITE stores its bytes and no
others and is acknowledged. -/
def Sys2Proof.Claims.TargetMemoryRule : Prop :=
  ∀ (s : State) (n g t : Nat) (p : Packet),
    let k := tileKey p.dest
    (dSpace p.dest = 1 ∨ dSpace p.dest = 2) →
    (Arrives s n 0 g t p → s.tileKind g p false = 0 → s.sramBad k (p.len + 1) = false → ∃ u, exec (.read n .good) s = .next u ∧
      u.mem = s.mem ∧ Answered u (srcTile s.rank g t 0) p 8 p.len false
        (BitVec.ofNat 256 (s.memNat k (p.len + 1) % 2 ^ (8 * (p.len + 1))))) ∧
    (Arrives s n 1 g t p → s.tileKind g p true = 0 → s.partialBad k (p.len + 1) = false → ∃ u, exec (.write n) s = .next u ∧
      u.mem = s.mem.putBytes k ((bvBytes 32 p.payload).take (p.len + 1)) ∧ Answered u (srcTile s.rank g t 0) p 9 1 false 1)

/-- R19, R221: a request that its target refuses with a kind changes no memory, no queue and no spring, is logged, and is answered
with that kind. -/
def Sys2Proof.Claims.TargetRefusesRule : Prop :=
  ∀ (s : State) (n g t : Nat) (p : Packet),
    let refused (c : Instr) (k : Nat) (ord : Bool) : Prop := ∃ u r, exec c s = .next u ∧ u.mem = s.mem ∧ u.queues = s.queues ∧
      u.springs = s.springs ∧ u.err.queue = s.err.queue ++ [r] ∧ r.kind = 0x0A ∧
      Answered u (srcTile s.rank g t 0) p 0xA 0 ord (nackPayload k p.dest)
    (∀ e, Arrives s n 0 g t p → s.tileKind g p false ≠ 0 → refused (.read n e) (s.tileKind g p false) false) ∧
    (Arrives s n 1 g t p → s.tileKind g p true ≠ 0 → refused (.write n) (s.tileKind g p true) false) ∧
    (Arrives s n 2 g t p → s.granted p.src g 2 = false → refused (.qentry n) 4 false) ∧
    (Arrives s n 3 g t p → s.granted p.src g 3 = false → refused (.signal n) 4 true)

/-- R169, R173: an entry for a queue with room joins it and is acknowledged; one that finds it full waits where it is. -/
def Sys2Proof.Claims.QueueArrivalRule : Prop :=
  ∀ (s : State) (n g t : Nat) (p : Packet), Arrives s n 2 g t p → s.granted p.src g 2 = true → NoBatch s g t →
    let q := dQueue p.dest
    (Room (inQ s g t q) 1 → ∃ u, exec (.qentry n) s = .next u ∧
      (inQ u g t q).hw = (inQ s g t q).hw ++ [⟨dKind p.dest, p.payload⟩] ∧ u.mem = s.mem ∧
      Answered u (srcTile s.rank g t 0) p 9 1 false 1) ∧
    (Full s g t false q → ∃ u, exec (.qentry n) s = .next u ∧ u.net = s.net ∧ u.queues = s.queues ∧ u.mem = s.mem)

/-- R160: an accumulate at its channel controller, with nothing held there, adds its operand to the 32 bytes in the format LEN
gives, changes no other byte, and is acknowledged. -/
def Sys2Proof.Claims.RemoteAccumulateRule : Prop :=
  ∀ (s : State) (n f : Nat) (p : Packet) (ecc : Ecc),
    let o := dramOff p.dest
    let k := dramKey f o
    s.atStrip n = some (f, p) → p.typ = 4 → p.malformed = false → dSpace p.dest = 0 → Local s p →
    (s.dram f).queue = [] → o + 32 ≤ (s.dram f).usable → s.dramReadOnly f o 32 = false → s.dramStopped f = false →
    (s.dram f).dead.testBit ((s.dram f).chan o) = false → s.dramBad (dramKey f (o / 64 * 64)) 64 = false → s.dramBad k 32 = false →
    ecc ≠ .uncorrectable → ∃ u, exec (.racc ⟨n, ecc⟩) s = .next u ∧
      u.mem = s.mem.putBytes k (leBytes 32 (combine32 p.len 0 false (s.memNat k 32) p.payload.toNat)) ∧
      (u.dram f).queue = [] ∧ Answered u (srcStrip s.rank f ((s.dram f).chan o)) p 9 1 false 1

/-- R19, R160, R240: requests at their targets. -/
def Obligations.TargetsServeOrRefuse : Prop :=
  Claims.TargetMemoryRule ∧ Claims.TargetRefusesRule ∧ Claims.RemoteAccumulateRule

/-- R185, R189–R193: a signal of a strip unit is applied at once and acknowledged with grant 0; an uncounted one of a sender
without an entry is applied, takes an entry while fewer than 16 are held, and is acknowledged with grant 1. A held signal whose
packets have all arrived is applied; a RELEASE frees the sender's entry. -/
def Sys2Proof.Claims.SignalArrivalRule : Prop :=
  ∀ (s : State) (n g t : Nat) (p : Packet),
    let i := dOff p.dest / 16 % 64
    let plus (j amt : Nat) : Nat := min ((s.spring g j).count + amt) 0xFFFFFFFF
    (Arrives s n 3 g t p → s.granted p.src g 3 = true →
      (srcIsStrip p.src = true → ∃ u, exec (.signal n) s = .next u ∧
        (u.spring g i).count = plus i (p.payload.toNat % 2 ^ 32) ∧ u.mem = s.mem ∧
        Answered u (srcTile s.rank g 5 0) p 0xB 0 true 0) ∧
      (srcIsStrip p.src = false → p.counted = false → (∀ e ∈ s.arrTab g, e.src ≠ p.src) → (s.arrTab g).length < 16 →
        ∃ u, exec (.signal n) s = .next u ∧ (u.spring g i).count = plus i (p.payload.toNat % 2 ^ 32) ∧ u.mem = s.mem ∧
        u.arrTab g = s.arrTab g ++ [⟨p.src, 0, 0, none⟩] ∧ Answered u (srcTile s.rank g 5 0) p 0xB 0 true 1)) ∧
    (∀ (g : PondIx) (dt : Nat) (e : ArrEnt) (h : HeldSig), s.clocked g = true → s.arrTab g = [e] → e.held = some h →
      h.n ≤ e.cnt h.parity → ∃ u, exec (.heldSignalApply g dt) s = .next u ∧
      (u.spring g h.spring).count = min ((s.spring g h.spring).count + h.amt) 0xFFFFFFFF ∧ u.mem = s.mem ∧
      u.arrTab g = [{ e.setCnt h.parity (e.cnt h.parity - h.n) with held := none }]) ∧
    (Arrives s n 7 g t p → ∃ u, exec (.release n) s = .next u ∧ u.mem = s.mem ∧ u.springs = s.springs ∧
      u.arrTab g = (s.arrTab g).filter (fun e => decide (e.src ≠ p.src)) ∧ Answered u (srcTile s.rank g t 0) p 9 1 true 1)

/-- R186, R187: a write of COUNT takes effect at once, one of THRESH at the next evaluation; a consumer whose spring has reached THRESH
takes THRESH away and passes, an observer only passes; below THRESH nothing passes. -/
def Sys2Proof.Claims.SpringRulesRule : Prop :=
  ∀ (s : State) (g : PondIx),
    (∀ (n : Fin 64) (bs : List Byte), Present s (.pond g) → bs.length = 4 →
      let x := s.spring g n
      (∃ u, exec (.springWrite g (BitVec.ofNat 10 (16 * n)) bs) s = .next u ∧ u = { s with springs := u.springs } ∧
        u.spring g n = { x with count := leNat bs }) ∧
      (x.count < 2 ^ 32 → ∃ u, exec (.springWrite g (BitVec.ofNat 10 (16 * n + 4)) bs) s = .next u ∧
        u = { s with springs := u.springs } ∧ u.spring g n = { x with next := some (leNat bs) })) ∧
    (∀ (w : Waiter) (t : Nat) (o : Bool) (q : Nat), s.clocked g = true → NoBatch s g t → s.waiters = [w] → w.pond = g → w.place = .queue t o q →
      w.spring < 64 → (s.spring g w.spring).next = none →
      let x := s.spring g w.spring
      (x.thresh ≤ x.count → ∃ u, exec (.waiterPass g) s = .next u ∧ u.waiters = [] ∧ u.mem = s.mem ∧
        (u.spring g w.spring).count = (if w.observe = true then x.count else x.count - x.thresh) ∧
        (u.queue (queueKey g t o q)).hw = (s.queue (queueKey g t o q)).hw.drop 1) ∧
      (x.count < x.thresh → ∃ u, exec (.waiterPass g) s = .next u ∧ u.waiters = [w] ∧ u.mem = s.mem ∧
        u.spring g w.spring = x ∧ u.queues = s.queues))

/-- R185–R193: springs and signals. -/
def Obligations.SpringsCountSignals : Prop :=
  Claims.SignalArrivalRule ∧ Claims.SpringRulesRule

/-- R173, R171, R178, R179: in a tile with no steering unit that batches a spilled entry refills a freed slot with its kind, and of memory
only the flag word of its window changes; the router takes the only ready output queue's head and sends it;
a WAIT at a head becomes a waiter, and one that waits too long shows in WAIT_TMO and is logged. -/
def Sys2Proof.Claims.QueueMovesRule : Prop :=
  ∀ (s : State) (g : PondIx) (t : Fin 16) (o : Bool) (q : Fin 8) (dt : Nat), s.clocked g = true → NoBatch s g t →
    let k := queueKey g t o q
    let x := s.queue k
    let b := s.l1Key g t o q + windowOff x.l1rd
    let fk := s.l1Key g t o q + windowFlag x.l1rd
    (x.hw.length < 8 → x.l1n ≠ 0 → s.sramBad b 32 = false → s.sramBad fk 32 = false →
      ∃ u, exec (.spillRefill g t o q) s = .next u ∧ (u = { s with
        queues := u.queues
        mem := u.mem }) ∧ (u.queue k).l1n = x.l1n - 1 ∧ (∀ j, j < fk ∨ fk + 4 ≤ j → u.mem.byte j = s.mem.byte j) ∧
      ∃ e, (u.queue k).hw = x.hw ++ [e] ∧ e.data = entryOf (s.mem.bytes b 32) ∧ e.tok = (s.memNat fk 4).testBit (x.l1rd % 31)) ∧
    (∀ e l d, (outQ s g t q).hw = e :: l → e.isWait = false → s.rdi (.tile g t) Reg.rtrQcollEn q = 0 →
      s.oqDest g t q = some d → (∀ r, r < 8 → r ≠ (q : Nat) → (outQ s g t r).hw = []) →
      let dest := d + e.tok.toNat * 2 ^ 20
      let src := srcTile s.rank g t 0
      s.entryKind src 2 dest = 0 → s.portRoom src 2 (decide (s.rdi (.tile g t) Reg.rtrQdestUnord q = 0)) = true →
      (s.senderTab src).length < 8 → (∀ x ∈ s.senderTab src, x.rel = false) → ∃ u y, exec (.oqSend g t) s = .next u ∧
      (outQ u g t q).hw = l ∧ u.net.flights = s.net.flights ++ [y] ∧ y.pkt.payload = e.data ∧ y.place = .router (16 * g + t) 4 ∧
      u.net.outst.length = s.net.outst.length + 1 ∧ u.mem = s.mem) ∧
    (∀ e l, x.hw = e :: l → e.isWait = true → s.waitForwards g t o q e = false → (∀ w ∈ s.waiters, w.at g t o q = false) →
      ∃ u, exec (.wait g t o q dt) s = .next u ∧ u.queues = s.queues ∧ u.springs = s.springs ∧ u.mem = s.mem ∧
      u.waiters = s.waiters ++ [⟨g, .queue t o q, tokArg e.data % 64, (tokArg e.data).testBit 8, s.evals.get g 0⟩]) ∧
    (∀ w, s.waiters.find? (fun w => w.at g t o q) = some w → s.rd (.pond g) Reg.pondSprCfgWaitLimit ≠ 0 →
      s.rd (.tile g t) Reg.rtrQstatWaitTmo < 2 ^ 16 → ∃ u r, exec (.waitTimeout g t o q) s = .next u ∧
      (u.rd (.tile g t) Reg.rtrQstatWaitTmo).testBit ((if o then 8 else 0) + q) = true ∧ u.queues = s.queues ∧
      u.waiters = s.waiters ∧ u.err.queue = s.err.queue ++ [r] ∧ r.kind = 0x0B ∧ r.detail = w.spring % 2 ^ 64)

/-- R169–R179: tile queues. -/
def Obligations.QueuesMoveEntries : Prop :=
  Claims.QueueArrivalRule ∧ Claims.QueueMovesRule

/-- The command that runs steering unit n one core cycle, by its function. -/
def Sys2Proof.Claims.steerCmd (f : Nat) (g : PondIx) (t : Fin 16) (n : Fin 4) (dt : Nat) : Instr :=
  if f = 1 then .switchUnit g t n dt else if f = 2 then .mergeUnit g t n dt else .gateUnit g t n dt

/-- R180–R183: where no unit of the tile batches, a unit without a decision takes a sound token, with COUNT not 0 and its data
waiting, from CIN; with a decision in hand it moves one entry from the selected data queue to the selected output, which a closed
gate drops. A head that is no decision for the unit stops it with STEER_ERR and POISON. -/
def Sys2Proof.Claims.SteeringRule : Prop :=
  ∀ (s : State) (g : PondIx) (t : Fin 16) (n : Fin 4) (f dt : Nat) (e : QEnt), (f = 1 ∨ f = 2 ∨ f = 3) → s.clocked g = true →
    NoBatch s g t → s.steerOn g t n f = true →
    let x := s.steer g t n
    let cin := s.rdi (.tile g t) Reg.rtrSteerCin n
    let din := s.steerData g t n f x.token
    let c := steerCmd f g t n dt
    (x.left = 0 → s.headOf g t false cin = some e → s.steerBad g t n f e = false → tokCount e.data ≠ 0 →
      (s.headOf g t false (s.steerData g t n f e.data)).isSome = true → (f = 1 → (tokFlags e.data).testBit 1 = false) →
      ∃ u, exec c s = .next u ∧ (inQ u g t cin).hw = (inQ s g t cin).hw.drop 1 ∧ (u.steer g t n).left = tokCount e.data ∧
      (u.steer g t n).token = e.data ∧ u.mem = s.mem) ∧
    (x.left = 0 → s.headOf g t false cin = some e → s.steerBad g t n f e = true →
      ∃ u, exec c s = .next u ∧ (u.steer g t n).stopped = true ∧ u.rd (.tile g t) Reg.rtrQstatSteerErr = 1 ∧ Raised u g 2 t ∧
      u.queues = s.queues ∧ u.mem = s.mem) ∧
    (x.left ≠ 0 → s.headOf g t false din = some e → (f = 3 → (tokArg x.token).testBit 0 = true) →
      let o := if f = 1 then (true, tokArg x.token % 8) else s.steerOut g t n
      (o.1 = false → o.2 ≠ din) → Room (s.queue (queueKey g t o.1 o.2)) 1 → din < 8 →
      ∃ u, exec c s = .next u ∧ (inQ u g t din).hw = (inQ s g t din).hw.drop 1 ∧ (u.steer g t n).left = x.left - 1 ∧
      (u.queue (queueKey g t o.1 o.2)).hw = (s.queue (queueKey g t o.1 o.2)).hw ++ [e] ∧ u.mem = s.mem) ∧
    (x.left ≠ 0 → s.headOf g t false din = some e → f = 3 → (tokArg x.token).testBit 0 = false →
      ∃ u, exec c s = .next u ∧ (inQ u g t din).hw = (inQ s g t din).hw.drop 1 ∧ (u.steer g t n).left = x.left - 1 ∧
      u.rd (.tile g t) Reg.rtrSteerDrop = (s.rd (.tile g t) Reg.rtrSteerDrop + 1) % 2 ^ 48 ∧ u.mem = s.mem)

/-- R184: at its deadline a batch unit that holds complete items, fewer than ITEMS, and finds nothing more at DIN releases them, and
with EMIT a BATCH_END token that counts them and names the deadline; an incomplete item stays. -/
def Sys2Proof.Claims.BatchDeadlineRule : Prop :=
  ∀ (s : State) (g : PondIx) (t : Fin 16) (n : Fin 4),
    let x := s.steer g t n
    let o := s.steerOut g t n
    let l := s.batchLen g t n
    let k := x.held.length / l
    s.clocked g = true → s.steerOn g t n 4 = true → s.tileRun g t = true → x.run = [] → x.owed = false → x.due = false →
    0 < k → k < s.rdi (.tile g t) Reg.rtrSteerItems n → s.headOf g t false (s.rdi (.tile g t) Reg.rtrSteerDin n) = none →
    Room (s.queue (queueKey g t o.1 o.2)) (k * l + 1) → ∃ u, exec (.batchDeadline g t n) s = .next u ∧
      (u.steer g t n).held = x.held.drop (k * l) ∧ u.mem = s.mem ∧
      (u.queue (queueKey g t o.1 o.2)).hw = (s.queue (queueKey g t o.1 o.2)).hw ++ x.held.take (k * l) ++
        (if s.rdi (.tile g t) Reg.rtrSteerEmit n = 1 then [⟨true, mkToken 5 1 k 0 0⟩] else [])

/-- R180–R184: steering units. -/
def Obligations.SteeringMovesEntries : Prop :=
  Claims.SteeringRule ∧ Claims.BatchDeadlineRule

/-- R120, R189, R191, R238: a response ends the request it answers. Data reaches the register a load waits for; an acknowledged store
needs nothing more; a negative answer, or none in time, raises NEG_COMPLETION; a signal's answer clears PEND and sets GRANT. -/
def Obligations.AnswersSettleRequests : Prop :=
  ∀ (s : State) (n i : Nat) (o : Outst) (p : Packet),
    let g := srcPond o.src
    let gone (u : State) : Prop := u.net.outst = s.net.outst.eraseIdx i ∧ u.mem = s.mem
    (∀ rd size sign st, Returns s n 8 i o p → o.purpose = .sload rd size sign → o.tab = false → o.typ = 0 →
      (s.score g).stall = some st → (∃ a b c d, st = .load a b c d) → (s.score g).pc < 2 ^ 18 →
      ∃ u, exec (.rdata n) s = .next u ∧ gone u ∧ (u.score g).stall = none ∧ (u.score g).pc = (s.score g).pc + 4 ∧
      (rd ≠ 0 → u.greg g rd = loadVal size sign (p.payload.toNat % 2 ^ (8 * (p.len + 1))))) ∧
    (Returns s n 9 i o p → o.purpose = .spost → o.tab = false → o.typ = 1 → p.payload.toNat % 65536 = 1 →
      ∃ u, exec (.ack n) s = .next u ∧ gone u ∧ u.scores = s.scores ∧ u.events = s.events) ∧
    (Returns s n 0xA i o p → o.purpose = .spost → o.tab = false → o.typ = 1 →
      ∃ u, exec (.nack n) s = .next u ∧ gone u ∧ Raised u g 7 5) ∧
    (∀ e, Returns s n 0xB i o p → o.purpose = .ssig → o.tab = false → o.typ = 3 → s.senderTab o.src = [e] →
      e.dest = pondDest o.dest → ∃ u, exec (.sigack n) s = .next u ∧ gone u ∧
      u.senderTab o.src = [{ e with
        pend := false
        grant := p.payload.toNat.testBit 0 }]) ∧
    (s.net.outst[i]? = some o → srcIsStrip o.src = false → s.resetting (srcPond o.src) (srcTileN o.src) = false →
      o.purpose = .spost → o.tab = false → o.typ = 1 → ∃ u, exec (.responseTimeout i) s = .next u ∧ gone u ∧ Raised u g 7 5)

/-- R194, R195: a stopped partition with nothing outstanding and nothing in flight for its ponds, whose save area lies in no
protected or sealed range, has the context of every pond saved, and changes in nothing but memory and what is saved; a saved
context goes back into its pond, whose arrival table is then empty. -/
def Obligations.ContextsScanOutAndIn : Prop :=
  ∀ (s : State) (p : PartIx),
    let x := s.parts.get p Sys2Proof.Machine.Part.none
    (x.state = 5 → s.drained p = true → (x.sites.map (fun y => y.1)).Nodup → (∀ f, s.img.seals.get f [] = []) →
      (∀ y ∈ x.sites, let a := x.saveBase % 2 ^ 48 + 77824 * y.1
        s.dramReadOnly (a / 2 ^ 37) (a % 2 ^ 37) (s.pondCtx y.2).bytes = false) → ∃ u, exec (.scanOut p) s = .next u ∧
      (u = { s with
        mem := u.mem
        free := u.free
        saved := u.saved }) ∧ ∀ y ∈ x.sites, (16384 * (p : Nat) + y.1, s.pondCtx y.2) ∈ u.saved) ∧
    (∀ lp g e, x.state = 5 → x.sites = [(lp, g)] → s.saved.find? (fun e => decide (e.1 = 16384 * (p : Nat) + lp)) = some e →
      ∃ u, exec (.scanIn p) s = .next u ∧ u.score g = e.2.score ∧ u.arrTab g = [] ∧ u.mem = s.mem)

/-! The host interface. -/

/-- The hub runs and holds no record: what it forms next is written at once or held alone. -/
def Sys2Proof.Claims.HubQuiet (s : State) : Prop := s.hubOn = true ∧ s.hub.held = [] ∧ s.hub.lost = 0

/-- R314, R326, R329: the hub may write a record: the log is enabled and not full, the hub is bus master. -/
def Sys2Proof.Claims.LogOpen (s : State) : Bool :=
  s.rd .hub Reg.hubCtrlClogEn == 1 && s.hub.busMaster
    && (s.rd .hub Reg.hubClogHeadHead + 4096) % 2 ^ 32 != s.rd .hub Reg.hubClogTailTail

/-- R326: the host address of record n. -/
def Sys2Proof.Claims.entryAt (s : State) (n : Nat) : Nat := s.rd .hub Reg.hubClogBaseBase * 4096 + 32 * (n % 4096)

/-- R327: the 32 bytes of a record written as record n. -/
def Sys2Proof.Claims.recordBytes (r : CRec) (n : Nat) : List Byte :=
  leBytes 8 r.handle ++ leBytes 2 r.status ++ leBytes 1 r.opcode
    ++ leBytes 1 (n / 4096 % 2 + 2 * r.event.toNat + 4 * r.run.toNat) ++ leBytes 1 r.part ++ leBytes 1 0 ++ leBytes 2 r.aux
    ++ leBytes 8 r.time ++ leBytes 8 r.detail

/-- From s, record r has been formed: written at TAIL with its MSI-X message (on vector `vec`; R321: 0 asks for none), or held. -/
def Sys2Proof.Claims.Formed (s t : State) (r : CRec) (vec : Nat) : Prop :=
  let n := s.rd .hub Reg.hubClogTailTail
  if LogOpen s then
    t.hostMem.bytes (entryAt s n) 32 = recordBytes r n ∧ t.rd .hub Reg.hubClogTailTail = (n + 1) % 2 ^ 32 ∧ t.hub.held = [] ∧
      (vec ≠ 0 → s.hub.msix.get vec 0 < t.hub.msix.get vec 0)
  else t.hub.held = [r] ∧ t.rd .hub Reg.hubClogTailTail = n

/-- From s, the command c has completed with CLASS, CODE, AUX and DETAIL (R327, R328): its record is formed, and once written its
slot is free (R318). -/
def Sys2Proof.Claims.Completes (s t : State) (c : HCmd) (cls code aux detail : Nat) : Prop :=
  Formed s t ⟨c.handle, cls + 256 * code, c.op, false, false, c.part, aux, s.now, detail, c.vec⟩ c.vec ∧
  (if LogOpen s then t.cmdAt c.slot = none else ∃ d, t.cmdAt c.slot = some d ∧ d.done = true)

/-- From s, an event has been posted (R330). -/
def Sys2Proof.Claims.Posted (s t : State) (code status aux detail part : Nat) : Prop :=
  Formed s t ⟨0, status, code, true, false, part, aux, s.now, detail, 0⟩ (s.rd .hub Reg.hubEvtCfgVec)

/-- The command c with opcode op stands in a slot that no other command has, and may start or has started. -/
def Sys2Proof.Claims.Accepted (s : State) (slot op : Nat) (c : HCmd) : Prop :=
  s.command slot op = some c ∧ c.slot = slot ∧ c.handle % 1024 = slot ∧
    ∃ pre post, s.hub.cmds = pre ++ c :: post ∧ ∀ x ∈ pre ++ post, x.slot ≠ slot

/-- Nothing differs but the hub, host memory and the listed register fields. -/
def Sys2Proof.Claims.OnlyHub (s t : State) (l : List (UnitId × Fld × Nat)) : Prop :=
  t = { s with
    regs := t.regs
    hub := t.hub
    hostMem := t.hostMem } ∧ OtherRegs s t l

/-- The registers that forming a record may change. -/
def Sys2Proof.Claims.logRegs : List (UnitId × Fld × Nat) :=
  [(.hub, Reg.hubClogTailTail, 0), (.hub, Reg.hubStatusCompletionBackpressure, 0)]

/-- R318–R322: a write to a FREE slot replaces its bytes; to a BUSY slot it is discarded and counted. A SUBMIT read of a BUSY slot
answers SLOT_BUSY; of a FREE slot it answers a refusal code and the slot stays FREE, or the handle (slot and generation), and the
command is accepted last. A NOP is refused LOG_DISABLED with CLOG_EN = 0 and accepted with it; a reserved opcode is BAD_OPCODE. -/
def Obligations.SubmitAcceptsOrRefuses : Prop :=
  ∀ (s : State) (slot : Fin 1024), s.hubOn = true →
    let raw := s.slotRaw slot
    let b (o w : Nat) : Nat := raw.toNat / 2 ^ (8 * o) % 2 ^ (8 * w)
    let c : HCmd := ⟨slot, 0, b 0 1, (b 1 1).testBit 0, b 2 2, b 4 1, b 5 1, raw, false, false, false, 0, 0, 0, 0, 0, s.now⟩
    let refused (k : Nat) : Prop := ∃ t, exec (.submit slot) s = .next t ∧ t.hub = { s.hub with reply := ⟨0, leBytes 8 k⟩ } ∧
      t = { s with
        regs := t.regs
        hub := t.hub } ∧
      t.rd .hub Reg.hubRefused = min (s.rd .hub Reg.hubRefused + 1) 0xFFFFFFFF ∧ OtherRegs s t [(.hub, Reg.hubRefused, 0)]
    let accepted : Prop := ∃ t e, exec (.submit slot) s = .next t ∧ t.hub.gen = s.hub.gen + 1 ∧
      t.hub.reply = ⟨0, leBytes 8 ((s.hub.gen + 1) * 1024 + slot)⟩ ∧ t.hub.slots = s.hub.slots ∧
      t.hub.cmds = s.hub.cmds ++ [{ c with
        handle := (s.hub.gen + 1) * 1024 + slot
        engine := e }] ∧
      t = { s with
        regs := t.regs
        hub := t.hub }
    (∀ d, s.cmdAt slot = some d → refused 1 ∧ ∀ o bs, ∃ t, exec (.slotWrite slot o bs) s = .next t ∧
      t.rd .hub Reg.hubSlotWrIgn = min (s.rd .hub Reg.hubSlotWrIgn + 1) 0xFFFFFFFF ∧ OnlyRegs s t [(.hub, Reg.hubSlotWrIgn, 0)]) ∧
    (s.cmdAt slot = none →
      (∀ (o : BitVec 8) (bs : List Byte), ∃ t, exec (.slotWrite slot o bs) s = .next t ∧
        t = { s with hub := { s.hub with slots := t.hub.slots } } ∧
        ∀ k, t.hub.slots.byte k = if 256 * (slot : Nat) + o.toNat ≤ k ∧ k < 256 * (slot : Nat) + min 256 (o.toNat + bs.length)
          then bs.getD (k - (256 * (slot : Nat) + o.toNat)) 0 else s.hub.slots.byte k) ∧
      (s.refusal c ≠ 0 → refused (s.refusal c)) ∧ (s.refusal c = 0 → accepted) ∧
      (b 0 1 = 0x0E ∨ b 0 1 = 0x0F ∨ 0x14 ≤ b 0 1 → refused 2) ∧
      (raw = BitVec.ofNat 2048 (0xFF * 2 ^ 32) → s.rd .hub Reg.hubCtrlClogEn = 0 → refused 8) ∧
      (raw = BitVec.ofNat 2048 (0xFF * 2 ^ 32) → s.rd .hub Reg.hubCtrlClogEn = 1 → accepted))

/-- R322, R325, R371, R375, R226: NOP completes at once; SYSTEM stores rank and N; SIGNAL sends its spring signal; WAIT_HUB passes
when COUNT is at or above its threshold, which it subtracts; the host replaces a hub spring; POWER writes the cap and SLOPE, and a
lowering completes once the average draw is at or below it; SEAL stores the digest and writes it to the host. -/
def Obligations.HostCommandsComplete : Prop :=
  ∀ (s : State) (slot : Fin 1024) (c : HCmd), HubQuiet s →
    (Accepted s slot 0 c → ∃ t, exec (.nop slot) s = .next t ∧ Completes s t c 0 0 0 0 ∧ OnlyHub s t logRegs) ∧
    (Accepted s slot 1 c → ∃ t, exec (.system slot) s = .next t ∧ Completes s t c 0 0 0 0 ∧ OnlyHub s t logRegs ∧
      t.hub.sysRank = c.f 16 1 ∧ t.hub.sysSize = c.f 17 1) ∧
    (∀ d, d = c.f 16 8 → Accepted s slot 0x0A c → c.launched = false → s.entryKind (s.hubSrc d) 3 d = 0 → s.rank < 64 →
      ∃ t tag e, exec (.hostSignal slot) s = .next t ∧ t.regs = s.regs ∧
        Launched t (mkPacket 3 true false false 0 tag (s.hubSrc d) d e (BitVec.ofNat 256 (c.f 24 4 % 2 ^ 32)))
          (srcPlace (s.hubSrc d))) ∧
    (∀ m : Fin 64, (m : Nat) = c.f 16 1 → Accepted s slot 9 c → c.passed = false → c.f 20 4 ≤ s.rdi .hub Reg.hubHsprCount m →
      (∀ x ∈ s.hub.cmds, x.slot ≠ slot → ∀ thr, x.waitsOn ≠ some ((m : Nat), thr)) →
      ∃ t, exec (.waitHub slot) s = .next t ∧ Completes s t c 0 0 0 0 ∧
        t.rdi .hub Reg.hubHsprCount m = (s.rdi .hub Reg.hubHsprCount m - c.f 20 4) % 2 ^ 32 ∧
        OnlyHub s t ((.hub, Reg.hubHsprCount, (m : Nat)) :: logRegs)) ∧
    (∀ (m : Fin 64) (v : BitVec 32), (∀ x ∈ s.hub.cmds, ∀ thr, x.waitsOn ≠ some ((m : Nat), thr)) →
      ∃ t, exec (.hubHspr m v) s = .next t ∧ t.rdi .hub Reg.hubHsprCount m = v.toNat ∧
        OnlyRegs s t [(.hub, Reg.hubHsprCount, (m : Nat))]) ∧
    (∀ avg, Accepted s slot 0x0C c → c.launched = false → ∃ t, exec (.power slot avg) s = .next t ∧
      t.rd .hub Reg.svcCapCtrlCapW = c.f 16 4 % 2 ^ 16 ∧ t.rd .hub Reg.svcCapCtrlSlope = c.f 20 4 % 2 ^ 9 ∧
      OtherRegs s t [(.hub, Reg.svcCapCtrlCapW, 0), (.hub, Reg.svcCapCtrlSlope, 0)]) ∧
    (∀ avg, Accepted s slot 0x0C c → c.launched = true → c.stage = 2 → avg ≤ c.f 16 4 → ∃ t,
      exec (.power slot avg) s = .next t ∧ Completes s t c 0 0 0 0 ∧ OnlyHub s t logRegs) ∧
    (let f := dField (c.f 16 8)
     let o := c.f 16 8 % 2 ^ 37
     let len := c.f 24 8
     let h := sha256 (s.mem.bytes (dramKey f o) len)
     let at_ := entryAt s (s.rd .hub Reg.hubClogTailTail)
     Accepted s slot 0x0B c → s.ownAddrOk (c.f 16 8) 0 = true → o + len ≤ (s.dram f).usable → s.dramStopped f = false →
      s.dramLost f o len false = false → (s.img.seals.get f []).length < 64 → s.hostWrites = true → s.waferOn = true →
      ∃ t x, exec (.seal slot) s = .next t ∧ Completes s t c 0 0 0 0 ∧ t.mem = s.mem ∧ t.parts = s.parts ∧
        x ∈ t.img.seals.get f [] ∧ x.off = o ∧ x.len = len ∧
        (LogOpen s = false ∨ c.f 40 8 + 32 ≤ at_ ∨ at_ + 32 ≤ c.f 40 8 → t.hostMem.bytes (c.f 40 8) 32 = h))

/-- R323, R325: an engine's next 32-byte request of a DMA_IN carries the next bytes of host memory to the next target address, or as
an ordered queue entry with QUEUE; of a DMA_OUT it reads the next target address. When every request is answered the transfer
completes, or ends with the kind of the first failure and the bytes moved. A host-window access inside its window reads or writes
host memory and is acknowledged; a notify write adds to its hub spring, saturating. -/
def Obligations.DmaMovesUnits : Prop :=
  ∀ (s : State) (slot : Fin 1024) (c : HCmd), HubQuiet s →
    let pos := 32 * c.issued
    let goes (op : Nat) : Prop := Accepted s slot op c ∧ c.launched = true ∧ c.passed = true ∧ c.kind = 0 ∧ pos < c.f 24 8 ∧
      (c.f 60 1).testBit 0 = false ∧ s.hub.busMaster = true ∧ s.rank < 64
    let issued (t : State) : Prop := ∃ d, t.cmdAt slot = some d ∧ d.issued = c.issued + 1 ∧ d.outst = c.outst + 1
    (∀ d, goes 7 → d = (if (c.f 60 1).testBit 1 = true then c.f 32 8 else c.f 32 8 + pos) →
      s.entryKind (s.hubSrc d) (if (c.f 60 1).testBit 1 = true then 2 else 1) d = 0 →
      ∃ t tag e, exec (.dmaIn slot) s = .next t ∧ issued t ∧ t.mem = s.mem ∧ t.hostMem = s.hostMem ∧
        Launched t (mkPacket (if (c.f 60 1).testBit 1 = true then 2 else 1) ((c.f 60 1).testBit 1) false false 31 tag (s.hubSrc d) d e
          (BitVec.ofNat 256 (leNat (s.hostMem.bytes (c.f 16 8 + pos) 32)))) (srcPlace (s.hubSrc d))) ∧
    (∀ d, goes 8 → s.hostWrites = true → (c.f 60 1).testBit 1 = false → d = c.f 32 8 + pos → s.entryKind (s.hubSrc d) 0 d = 0 →
      ∃ t tag e, exec (.dmaOut slot) s = .next t ∧ issued t ∧ t.mem = s.mem ∧ t.hostMem = s.hostMem ∧
        Launched t (mkPacket 0 false false false 31 tag (s.hubSrc d) d e 0) (srcPlace (s.hubSrc d))) ∧
    (∀ op, op = 7 ∨ op = 8 → Accepted s slot op c → c.launched = true → c.outst = 0 →
      (c.kind ≠ 0 → ∃ t, exec (.dmaDone slot) s = .next t ∧ Completes s t c 3 c.kind 0 (32 * c.moved) ∧ t.mem = s.mem) ∧
      (c.kind = 0 → c.f 24 8 ≤ pos → (c.f 60 1).testBit 3 = false ∨ c.stage ≠ 0 → ∃ t, exec (.dmaDone slot) s = .next t ∧
        Completes s t c 0 0 0 0 ∧ t.mem = s.mem)) ∧
    (∀ n f p, s.atBridge n = some (f, p) → p.malformed = false → [19, 20, 27, 28].contains f = true →
      s.hostWrites = true → Local s p →
      let w := p.dest / 2 ^ 44 % 16
      let o := p.dest % 2 ^ 44
      let a := s.rdi .hub Reg.hubHwinBaseBase w * 4096 + o
      let me := srcStrip s.rank f 37
      (w < 15 → o + p.len + 1 ≤ s.rdi .hub Reg.hubHwinSizeSize w * 4096 →
        (p.typ = 0 → ∃ t, exec (.hostWindowRequest n) s = .next t ∧ t.hostMem = s.hostMem ∧
          Answered t me p 8 p.len false (BitVec.ofNat 256 (leNat (s.hostMem.bytes a (p.len + 1))))) ∧
        (p.typ = 1 → ∃ t, exec (.hostWindowRequest n) s = .next t ∧ Answered t me p 9 1 false 1 ∧
          t.hostMem = s.hostMem.putBytes a ((bvBytes 32 p.payload).take (p.len + 1)))) ∧
      (∀ m : Fin 64, w = 15 → p.typ = 1 → o = 32 * (m : Nat) → (∀ x ∈ s.hub.cmds, ∀ thr, x.waitsOn ≠ some ((m : Nat), thr)) →
        ∃ t, exec (.notifyWrite n) s = .next t ∧ Answered t me p 9 1 false 1 ∧ t.hostMem = s.hostMem ∧
          t.rdi .hub Reg.hubHsprCount m
            = min (s.rdi .hub Reg.hubHsprCount m + p.payload.toNat % 2 ^ (8 * min 4 (p.len + 1))) 0xFFFFFFFF ∧
          OtherRegs s t [(.hub, Reg.hubHsprCount, (m : Nat))]))

/-- R316, R317: the tile window and the aperture move only to places that exist; a read of a good unit's register through the window
answers its value, one of a gone pond Unsupported Request with WIN_ERR; an aperture access inside the field's usable DRAM reads or
writes it, one outside is refused with BAR2_ERR, a write to a READ_ONLY range also counted. -/
def Sys2Proof.Claims.HostAperturesRule : Prop :=
  ∀ s : State, s.hubOn = true →
    (∀ (f : BitVec 6) (p : BitVec 9),
      (f.toNat < 48 → p.toNat < 288 → ∃ t, exec (.hubCsrWin f p) s = .next t ∧ t.rd .hub Reg.hubCsrWinField = f.toNat ∧
        t.rd .hub Reg.hubCsrWinPond = p.toNat ∧
        OnlyRegs s t [(.hub, Reg.hubCsrWinField, 0), (.hub, Reg.hubCsrWinPond, 0)]) ∧
      (48 ≤ f.toNat ∨ 288 ≤ p.toNat → exec (.hubCsrWin f p) s = .next (s.wr .hub Reg.hubStatusWinErr 1))) ∧
    (∀ v : BitVec 7,
      (v.toNat < 96 → ∃ t, exec (.hubBar2Base v) s = .next t ∧ t.rd .hub Reg.hubBar2BaseBase = v.toNat ∧
        OnlyRegs s t [(.hub, Reg.hubBar2BaseBase, 0)]) ∧
      (96 ≤ v.toNat → exec (.hubBar2Base v) s = .next (s.wr .hub Reg.hubStatusWinErr 1))) ∧
    (let g := 288 * s.rd .hub Reg.hubCsrWinField + s.rd .hub Reg.hubCsrWinPond
     ∀ t r : Nat, t < 16 → r < 512 →
      (s.waferOn = true → s.goodPond g = true → s.lakeGone (lakeOf g) = false → s.csrFailed g t (8 * r) = false →
        ∃ x, exec (.tileWindowAccess (.read (4096 * t + 8 * r) 8)) s = .next x ∧
          x.hub = { s.hub with reply := ⟨0, leBytes 8 (s.csrRead (.tile g t) (8 * r))⟩ } ∧ x.regs = s.regs ∧ x.mem = s.mem) ∧
      (s.goodPond g = false → ∃ x, exec (.tileWindowAccess (.read (4096 * t + 8 * r) 8)) s = .next x ∧
        x.hub.reply = ⟨1, []⟩ ∧ x.rd .hub Reg.hubStatusWinErr = 1 ∧ x.mem = s.mem) ∧
      (s.goodPond g = false → ∀ v, exec (.tileWindowAccess (.write (4096 * t + 8 * r) 8 v)) s
        = .next (s.wr .hub Reg.hubStatusWinErr 1))) ∧
    (let f := s.rd .hub Reg.hubBar2BaseBase / 2
     ∀ o : BitVec 36,
      let off := s.rd .hub Reg.hubBar2BaseBase % 2 * 2 ^ 36 + o.toNat
      let fits (n : Nat) : Prop := o.toNat + n ≤ 2 ^ 36 ∧ off + n ≤ (s.dram f).usable ∧ s.waferOn = true ∧ s.dramStopped f = false
      (∀ n, fits n → s.dramLost f off n false = false → ∃ t, exec (.bar2Access (.read o n)) s = .next t ∧
        t = { s with
          regs := t.regs
          hub := { s.hub with reply := ⟨0, s.mem.bytes (dramKey f off) n⟩ } } ∧
        ∀ ch : Fin 32, o.toNat % 64 = 0 → n = 64 → (ch : Nat) = (s.dram f).chan off →
          t.rdi (.dram f) Reg.dramChRd ch = (s.rdi (.dram f) Reg.dramChRd ch + 1) % 2 ^ 48) ∧
      (∀ n, (s.dram f).usable < off + n → ∃ t, exec (.bar2Access (.read o n)) s = .next t ∧ t.hub.reply = ⟨1, []⟩ ∧
        t.rd .hub Reg.hubStatusBar2Err = 1 ∧ t.mem = s.mem) ∧
      (∀ bs, fits bs.length → s.dramReadOnly f off bs.length = false → s.dramLost f off bs.length true = false →
        ∃ t, exec (.bar2Access (.write o bs)) s = .next t ∧ t.mem = s.mem.putBytes (dramKey f off) bs ∧
          (s.img.seals.get f [] = [] → t.hub = s.hub)) ∧
      (∀ bs, fits bs.length → s.dramReadOnly f off bs.length = true → ∃ t, exec (.bar2Access (.write o bs)) s = .next t ∧
        t.rd .hub Reg.hubStatusBar2Err = 1 ∧
        t.rd .hub Reg.hubSlotWrIgnBar2Deny = min (s.rd .hub Reg.hubSlotWrIgnBar2Deny + 1) 0xFFFFFFFF ∧
        OnlyRegs s t [(.hub, Reg.hubStatusBar2Err, 0), (.hub, Reg.hubSlotWrIgnBar2Deny, 0)]) ∧
      (∀ bs, (s.dram f).usable < off + bs.length → exec (.bar2Access (.write o bs)) s
        = .next (s.wr .hub Reg.hubStatusBar2Err 1)))

/-- R313, R314, R326, R451, R482: setting CLOG_EN zeroes HEAD and TAIL; HEAD moves forward as far as TAIL, and any other value is
ignored with CLOG_ERR; Bus Master Enable and a time exchange are shown; a reset of the host interface or PERST# frees every slot,
where a command under way that acts on partitions, the engine or the cap goes on without one, discards what is held, disables the
log, closes the windows and ends the IDE stream, and leaves partitions and memory. -/
def Sys2Proof.Claims.HostLogRule : Prop :=
  ∀ s : State, HubQuiet s →
    (s.rd .hub Reg.hubCtrlClogEn = 0 → ∃ t, exec (.clogEn true) s = .next t ∧ t.rd .hub Reg.hubCtrlClogEn = 1 ∧
      t.rd .hub Reg.hubClogHeadHead = 0 ∧ t.rd .hub Reg.hubClogTailTail = 0 ∧ t = { s with regs := t.regs }) ∧
    (∀ v : BitVec 32,
      let h := s.rd .hub Reg.hubClogHeadHead
      let n := s.rd .hub Reg.hubClogTailTail
      ((v.toNat + 2 ^ 32 - h) % 2 ^ 32 ≤ (n + 2 ^ 32 - h) % 2 ^ 32 → ∃ t, exec (.clogHead v) s = .next t ∧
        t.rd .hub Reg.hubClogHeadHead = v.toNat ∧
        OnlyRegs s t [(.hub, Reg.hubClogHeadHead, 0), (.hub, Reg.hubStatusCompletionBackpressure, 0)]) ∧
      ((n + 2 ^ 32 - h) % 2 ^ 32 < (v.toNat + 2 ^ 32 - h) % 2 ^ 32 →
        exec (.clogHead v) s = .next (s.wr .hub Reg.hubStatusClogErr 1))) ∧
    (∀ (v : Bool) (w : BitVec 5) (r : BitVec 3), ∃ t, exec (.busMasterEnable v w r) s = .next t ∧ t.hub.busMaster = v ∧
      t.rd .hub Reg.hubStatusLinkWidth = w.toNat ∧ t.rd .hub Reg.hubStatusLinkRate = r.toNat ∧ t.mem = s.mem) ∧
    (∀ h : DWord, ∃ t, exec (.ptmExchange h) s = .next t ∧ t.rd .hub Reg.hubPtmGtGt = s.now ∧
      t.rd .hub Reg.hubPtmHostHost = h.toNat ∧ t.rd .hub Reg.hubStatusPtmValid = 1 ∧ t = { s with regs := t.regs }) ∧
    (∀ (i : Instr), i = .hostInterfaceReset false ∨ i = .hostInterfaceReset true ∨ i = .perst → ∃ t, exec i s = .next t ∧
      (∀ k, k < 1024 → t.cmdAt k = none) ∧ t.hub.cmds.length = (s.hub.cmds.filter HCmd.goesOn).length ∧ t.hub.held = [] ∧
      t.hub.slots = [] ∧ t.hub.gen = s.hub.gen ∧ t.rd .hub Reg.hubCtrlClogEn = 0 ∧
      t.rd .hub Reg.hubClogHeadHead = 0 ∧ t.rd .hub Reg.hubClogTailTail = 0 ∧ t.rd .hub Reg.hubBar2BaseBase = 0 ∧
      (∀ w : Fin 15, t.rdi .hub Reg.hubHwinSizeSize w = 0) ∧ t.trust.keys = [] ∧ t.rd .hub Reg.hubStatusIdeActive = 0 ∧
      t.trust.c = s.trust.c ∧ (∀ n, t.parts.get n Sys2Proof.Machine.Part.none
        = { s.parts.get n Sys2Proof.Machine.Part.none with spe := false }) ∧ t.mem = s.mem ∧ t.hostMem = s.hostMem)

/-- R313–R331: the host's apertures and the completion log. -/
def Obligations.AperturesAndCompletionLog : Prop :=
  Claims.HostAperturesRule ∧ Claims.HostLogRule

/-! Partitions. -/

/-- Every tile of the partition's ponds stands behind a closed boundary (R414, R416). -/
def Sys2Proof.Claims.ClosedIn (s t : State) (n : Nat) : Prop :=
  ∀ g ∈ s.pondsOf n, ∀ i, i < 16 → 16 * g + i ∈ t.closed

/-- R423, R424: the partition has left the running set and its ponds' memories read zero. -/
def Sys2Proof.Claims.Left (s t : State) (n : Nat) : Prop :=
  t.parts.get n Sys2Proof.Machine.Part.none = Sys2Proof.Machine.Part.none ∧ ∀ g ∈ s.pondsOf n,
    (∀ k, k < 2 ^ 23 → t.mem.byte (pondKey g k) = 0) ∧
    ∀ i k, i < 16 → tileType i ≠ .a → k < 2 ^ 18 → t.mem.byte (coreKey g i k) = 0

/-- R216, R322, R420–R422: a START of a loaded or stopped partition whose fix-ups are placed begins its reset: the partition is
resetting behind closed boundaries; once drained, with every pond on the warm fast path, it runs. A START with RESTORE of a
partition stopped by STOP resumes it in place. A START whose exports stay unpublished ends with PEER_UNPLACED. -/
def Obligations.PartitionStarts : Prop :=
  ∀ (s : State) (slot : Fin 1024) (c : HCmd) (tests : List (PondIx × TestFail)), s.hubOn = true → Accepted s slot 3 c →
    let n := c.part
    let p := s.parts.get n Sys2Proof.Machine.Part.none
    let restore := (c.f 16 1).testBit 0
    (restore = false → c.launched = false → p.state = 1 ∨ p.state = 5 → s.unplaced n = false → s.collMismatch n = false →
      (∀ g ∈ s.pondsOf n, (s.pmemOf g).split = false) → ∃ t, exec (.start slot tests) s = .next t ∧
      (t.parts.get n Sys2Proof.Machine.Part.none).state = 2 ∧ (t.parts.get n Sys2Proof.Machine.Part.none).sites = p.sites ∧
      (t.parts.get n Sys2Proof.Machine.Part.none).handle = c.handle ∧ ClosedIn s t n) ∧
    (restore = false → c.launched = true → p.state = 2 → p.drained = true → (∀ x ∈ p.sites, s.warmOk x.2 = true) →
      ∃ t, exec (.start slot []) s = .next t ∧ (t.parts.get n Sys2Proof.Machine.Part.none).state = 3 ∧
      (t.parts.get n Sys2Proof.Machine.Part.none).sites = p.sites) ∧
    (restore = true → c.launched = false → p.state = 5 → p.faultCode = 0 → ∃ t, exec (.startRestore slot tests) s = .next t ∧
      (t.parts.get n Sys2Proof.Machine.Part.none).state = 3 ∧ (t.parts.get n Sys2Proof.Machine.Part.none).handle = c.handle ∧
      (t.parts.get n Sys2Proof.Machine.Part.none).sites = p.sites ∧ ∀ g ∈ s.pondsOf n, Raised t g 9 5) ∧
    (HubQuiet s → c.launched = false → p.state = 1 ∨ p.state = 5 → s.unplaced n = true → ∃ t, exec (.peerUnplaced slot) s = .next t ∧
      Completes s t c 6 1 0 0 ∧ OnlyHub s t logRegs)

/-- R322, R424–R426: a STOP asks the S-cores of a running partition, which stops once drained; a TEARDOWN and a KILL, once drained,
scrub the partition's memories and take it out of the running set, with SAVE after saving every context, with RETAIN after writing
the dump to the host buffer; a KILL closes the boundaries at once. -/
def Obligations.PartitionEnds : Prop :=
  ∀ (s : State) (slot : Fin 1024) (c : HCmd) (bad : List (PondIx × TestFail)), HubQuiet s →
    let n := c.part
    let p := s.parts.get n Sys2Proof.Machine.Part.none
    (Accepted s slot 4 c → c.launched = false → p.state = 3 → p.spe = false → ∃ t, exec (.stop slot) s = .next t ∧
      (t.parts.get n Sys2Proof.Machine.Part.none).state = 4 ∧ (∀ g ∈ s.pondsOf n, Raised t g 9 5) ∧ t.mem = s.mem) ∧
    (Accepted s slot 4 c → c.launched = true → p.state ≠ 0 → p.draining = true → p.drained = true →
      ∃ t, exec (.stop slot) s = .next t ∧ (t.parts.get n Sys2Proof.Machine.Part.none).state = 5 ∧ Completes s t c 0 0 0 0 ∧
      OnlyHub { s with parts := t.parts } t logRegs) ∧
    (Accepted s slot 5 c → c.launched = true → p.state = 7 → p.draining = true → p.drained = true →
      ((c.f 16 1).testBit 0 = false → ∃ t, exec (.teardown slot bad) s = .next t ∧ Left s t n) ∧
      ((c.f 16 1).testBit 0 = true → (∀ x ∈ p.sites, let a := p.saveBase % 2 ^ 48 + 77824 * x.1
          s.dramReadOnly (a / 2 ^ 37) (a % 2 ^ 37) (s.pondCtx x.2).bytes = false) →
        ∃ t, exec (.teardownSave slot bad) s = .next t ∧ Left s t n ∧
        ∀ x ∈ p.sites, ∃ e ∈ t.saved, e.1 = 16384 * n + x.1)) ∧
    (Accepted s slot 6 c → c.launched = false → p.state ≠ 0 → p.spe = false → (c.f 16 1).testBit 0 = false →
      ∃ t, exec (.kill slot bad) s = .next t ∧ (t.parts.get n Sys2Proof.Machine.Part.none).state = 8 ∧ ClosedIn s t n) ∧
    (Accepted s slot 6 c → c.launched = true → p.state = 8 → p.drained = true →
      ((c.f 16 1).testBit 0 = false → ∃ t, exec (.kill slot bad) s = .next t ∧ Left s t n) ∧
      ((c.f 16 1).testBit 0 = true → s.hostWrites = true → LogOpen s = false → (∀ x ∈ p.sites, x.2 < numPonds) →
        ∃ t, exec (.killRetain slot []) s = .next t ∧ Left s t n ∧
          t.hostMem.bytes (c.f 24 8) 8 = leBytes 4 0x52544E44 ++ leBytes 2 1 ++ leBytes 1 n ++ leBytes 1 0 ∧
          t.hostMem.bytes (c.f 24 8 + 16) 8 = leBytes 8 c.time))

/-- R407, R411, R415, R216, R229: the end of a drain is noted for its tiles, and for its partition; a faulted partition's recovery
stops it, then, unless it follows another recovery at once, posts its fault completion and goes on to relocate, or leaves it
stopped; an export received replaces what was known of that partition; a LOAD while another goes on is refused as BUSY, one of
length 0 is refused; a LOAD whose replaced partitions have left puts every partition it carries in the running set as loaded. -/
def Obligations.PartitionEventsHandled : Prop :=
  ∀ s : State,
    (∀ (g : PondIx) (i : Fin 16), 16 * (g : Nat) + i ∈ s.closed → ∃ t, exec (.drainEnd (.tile g i)) s = .next t ∧
      16 * (g : Nat) + i ∈ t.drainDone ∧ ∀ q, q < 8 → outQ t g i q = TQueue.empty) ∧
    (∀ n : PartIx, (s.parts.get n Sys2Proof.Machine.Part.none).draining = true → ∃ t, exec (.drainEnd (.part n)) s = .next t ∧
      (t.parts.get n Sys2Proof.Machine.Part.none).drained = true) ∧
    (HubQuiet s → ∀ n : PartIx,
      let p := s.parts.get n Sys2Proof.Machine.Part.none
      (p.recStep = 1 → p.state = 3 → ∃ t, exec (.recovery n) s = .next t ∧ (t.parts.get n Sys2Proof.Machine.Part.none).state = 6 ∧
        (t.parts.get n Sys2Proof.Machine.Part.none).recStep = 2 ∧ (t.parts.get n Sys2Proof.Machine.Part.none).draining = true) ∧
      (p.recStep = 2 → p.state = 6 → p.drained = true → p.again = false → ∃ t, exec (.recovery n) s = .next t ∧
        Formed s t ⟨p.handle, 4 + 256 * p.faultCode, 3, false, true, n, p.faultField, s.now, p.faultTime, p.vec⟩ p.vec ∧
        (if s.rd .hub Reg.svcFaultCfgLimit ≤ p.faults ∨ s.rd .hub Reg.svcFaultCfgAutoResume = 0
          then (t.parts.get n Sys2Proof.Machine.Part.none).state = 5 else (t.parts.get n Sys2Proof.Machine.Part.none).recStep = 5))) ∧
    (∀ (r : BitVec 6) (part : PartIx) (sites : List (Nat × PondIx)), s.hubOn = true → r.toNat ≠ s.rank →
      (∀ e ∈ s.parts, s.namesPart e.1 part (some r.toNat) (fun _ => true) = false) → ∃ t, exec (.exportReceived r part sites) s = .next t ∧
      t = { s with img := { s.img with peers := t.img.peers } } ∧
      (∀ x ∈ sites, (⟨r.toNat, part, x.1, x.2⟩ : PeerSite) ∈ t.img.peers) ∧
      (∀ x ∈ t.img.peers, x.rank = r.toNat → x.part = part → ∃ y ∈ sites, x.lpond = y.1 ∧ x.site = y.2)) ∧
    (∀ (slot : Fin 1024) (c : HCmd) (bad : List (PondIx × TestFail)) (failed : List PondIx), HubQuiet s → Accepted s slot 2 c →
      (c.stage = 0 → (∃ x ∈ s.hub.cmds, x.op = 2 ∧ x.launched = true ∧ x.done = false) →
        ∃ t d, exec (.load slot bad failed) s = .next t ∧ Completes s t c 1 0xB 0 d ∧ t.parts = s.parts ∧ t.mem = s.mem) ∧
      (c.stage = 0 → c.launched = false → c.f 24 8 = 0 → (∀ x ∈ s.hub.cmds, x.op = 2 → x.slot ≠ slot → x.done = true) →
        (∀ e ∈ s.parts, e.2.recStep ≠ 5 ∧ e.2.recStep ≠ 7) →
        ∃ t d, exec (.load slot bad failed) s = .next t ∧ Completes s t c 1 0xC 0 d ∧ t.parts = s.parts ∧ t.mem = s.mem) ∧
      (c.stage = 2 → s.outgoing (c.f 16 8 % 2 ^ 48) = [] → ∃ t d, exec (.load slot bad failed) s = .next t ∧
        t.cmdAt slot = some d ∧ d.stage = 3 ∧ t.mem = s.mem ∧
        ∀ q ∈ s.imgParts (c.f 16 8 % 2 ^ 48), s.partRec (c.f 16 8 % 2 ^ 48) q ≠ none →
          (t.parts.get q Sys2Proof.Machine.Part.none).state = 1 ∧ (t.parts.get q Sys2Proof.Machine.Part.none).image = c.f 16 8 % 2 ^ 48 ∧
          ∀ x ∈ s.img.placed, x.1 = q → (x.2.1, x.2.2) ∈ (t.parts.get q Sys2Proof.Machine.Part.none).sites))

/-! Bring-up, supplies and power states. -/

/-- R362: the rails are off for a cause: the module is in `state`, what the wafer held is lost, LAST_OFF names the first cause. -/
def Sys2Proof.Claims.OffFor (s t : State) (cause state : Nat) : Prop :=
  t.rd .hub Reg.svcPwrStatState = state ∧ t.rd .hub Reg.svcPwrStatModReady = 0 ∧
    t.rd .hub Reg.svcPwrStatLastOff = (if s.pwr.cause = 0 then cause else s.pwr.cause) % 16 ∧
    t.mem = [] ∧ t.parts = [] ∧ t.img = ImgSt.init ∧ t.saved = [] ∧ t.overlay = s.overlay ∧ t.trust.c = s.trust.c

/-- R431–R433: a warm BRINGUP begins on the warm path at step 1, and its last step leaves every lake that is not Off cold asleep,
shown as the last bring-up; a step of the cold path starts the generators, and another sets rank and size as SYSTEM stored them; a
cold BRINGUP in state 4 begins the power-down before it. -/
def Sys2Proof.Claims.BringUpRule : Prop :=
  ∀ (s : State) (slot : Fin 1024) (c : HCmd) (x : BringFind), s.hubOn = true →
    (Accepted s slot 0x0D c → c.isCold = false → s.power = 4 →
      (c.launched = false → s.rd .hub Reg.svcBringupStatPath = 0 → ∃ t, exec (.bringup slot x) s = .next t ∧
        t.rd .hub Reg.svcBringupStatPath = 2 ∧ t.rd .hub Reg.svcBringupStatStep = 1 ∧ t.pwr.upAt = s.now) ∧
      (c.launched = true → s.rd .hub Reg.svcBringupStatStep = 7 → ∃ t, exec (.bringup slot x) s = .next t ∧
        t.rd .hub Reg.svcBringupStatPath = 0 ∧ t.rd .hub Reg.svcBringupStatStep = 0 ∧
        t.rd .hub Reg.svcBringupStatLastWarm = 1 ∧ t.rd .hub Reg.svcPwrStatState = s.rd .hub Reg.svcPwrStatState ∧
        t.mem = s.mem ∧ ∀ w : LakeIx, s.lakeState w ≠ 4 → t.lakeState w = 2 ∧ t.ratio w = 4)) ∧
    (s.power = 3 → s.rd .hub Reg.svcBringupStatStep = 2 → ∃ t, exec (.bringupCold x) s = .next t ∧
      t.rd .hub Reg.svcBringupStatStep = 3 ∧ ∀ w : LakeIx, s.lakeState w ≠ 4 → t.lakeState w = if w ∈ x.generators then 4 else 0) ∧
    (s.power = 3 → s.rd .hub Reg.svcBringupStatStep = 7 → ∃ t, exec (.bringupCold x) s = .next t ∧
      t.rd .hub Reg.svcBringupStatStep = 8 ∧ ∀ f : FieldIx, t.rd (.opt f) Reg.optSysRank = s.hub.sysRank % 64) ∧
    (s.power = 4 → s.rd .hub Reg.svcBringupStatPath = 0 → Accepted s slot 0x0D c → c.isCold = true → s.mayStart c = true →
      ∃ t, exec (.bringupCold x) s = .next t ∧ t.rd .hub Reg.svcPwrStatState = 5 ∧ t.rd .hub Reg.svcPwrStatModReady = 0 ∧
        t.pwr.step = 2)

/-- R359, R360, R362, R480: with MAIN qualified, AUTO_ON set and no rail fault the module precharges, and with its rails up begins
bring-up on the cold path; a rail fault leaves it in state 1 until commanded; WAFER_OFF, written over the host or, where enabled and
with the right byte, over SMBus, begins the power-down of state 5, which goes through its steps to state 1. -/
def Sys2Proof.Claims.PowerStatesRule : Prop :=
  ∀ s : State, s.hubOn = true →
    (s.power = 1 → s.rd .hub Reg.svcPwrStatMainOk = 1 → s.pwr.mapOk = true → s.trust.recovery = false →
      s.rd .hub Reg.svcPwrCtrlAutoOn = 1 → s.pwr.faulted = false → ∃ t, exec .powerUp s = .next t ∧
      t.rd .hub Reg.svcPwrStatState = 2 ∧ OnlyRegs s t [(.hub, Reg.svcPwrStatState, 0), (.hub, Reg.svcPwrStatModReady, 0)]) ∧
    (s.power = 2 → ∃ t, exec .powerUp s = .next t ∧ t.rd .hub Reg.svcPwrStatState = 3 ∧
      t.rd .hub Reg.svcBringupStatPath = 1 ∧ t.rd .hub Reg.svcBringupStatStep = 1 ∧ t.mem = s.mem ∧
      ∀ f : FieldIx, t.rd (.pwr f) Reg.pwrRailsStrip = 1 ∧ t.rd (.pwr f) Reg.pwrRailsSram = 1) ∧
    (s.power = 2 → ∃ t, exec .railFault s = .next t ∧ OffFor s t 6 1 ∧ t.pwr.faulted = true) ∧
    (∀ late, s.power = 4 → ∃ t, exec (.waferOff late) s = .next t ∧ t.rd .hub Reg.svcPwrStatState = 5 ∧
      t.rd .hub Reg.svcPwrStatModReady = 0 ∧ t.pwr.step = 2 ∧ t.pwr.cause = 1 ∧ t.mem = s.mem) ∧
    (s.power = 5 →
      (s.pwr.step = 2 → ∃ t, exec (.waferOff true) s = .next t ∧ t.pwr.step = 3 ∧ t.pwr.cause = s.pwr.cause) ∧
      (∀ late, s.pwr.step = 3 → ∃ t, exec (.waferOff late) s = .next t ∧ t.pwr.step = 4 ∧ t.mem = s.mem ∧
        ∀ w : LakeIx, t.lakeState w = 4) ∧
      (∀ late, s.pwr.step = 4 → ∃ t, exec (.waferOff late) s = .next t ∧ t.pwr.step = 5 ∧ t.mem = s.mem ∧
        ∀ p : PortIx, t.prd p Reg.optPstatState = 0) ∧
      (∀ late, s.pwr.step = 5 → ∃ t, exec (.waferOff late) s = .next t ∧ OffFor s t 1 1)) ∧
    (∀ pec, s.power = 4 → s.rd .hub Reg.svcModCfgSmbOffEn = 1 → ∃ t, exec (.smbWaferOff 0xA5 pec) s = .next t ∧
      (if pec = true then t.rd .hub Reg.svcPwrStatState = 5 ∧ t.pwr.step = 2 else t = s)) ∧
    (∀ v pec, v ≠ 0xA5 ∨ s.rd .hub Reg.svcModCfgSmbOffEn = 0 → exec (.smbWaferOff v pec) s = .next s)

/-- R359–R363, R431–R434: power states and bring-up. -/
def Obligations.PowerStatesAndBringUp : Prop :=
  Claims.BringUpRule ∧ Claims.PowerStatesRule

/-- R356–R358, R360: AUX in range releases the hub, which starts with T at 0; AUX lost resets it and the module is Off; MAIN in range
for 10 ms is MAIN_OK, and below or above its limits powers the wafer off; MOD_RESET_N holds the module Off until released. What the
fuses and flash hold stays. -/
def Sys2Proof.Claims.SuppliesRule : Prop :=
  ∀ s : State,
    (∀ (mv : Nat) (addr : Fin 8) (seated : Bool), s.rd .hub Reg.svcPwrStatAuxOk = 0 → 10800 ≤ mv → mv ≤ 13200 →
      ∃ t, exec (.auxQualified mv addr seated) s = .next t ∧ t.rd .hub Reg.svcPwrStatAuxOk = 1 ∧
        t.rd .hub Reg.svcPwrStatState = 0 ∧ t.rd .hub Reg.svcPwrMeasAuxV = mv ∧ t.time = 0 ∧
        t.rd .hub Reg.svcModStatSmbAddr = addr ∧ t.rd .hub Reg.svcModStatSupplySeated = seated.toNat ∧
        t.trust = s.trust ∧ t.mem = s.mem) ∧
    (∀ mv us, s.rd .hub Reg.svcPwrStatAuxOk = 1 → mv < 10500 → 50 ≤ us → ∃ t, exec (.auxLoss mv us) s = .next t ∧
      t.rd .hub Reg.svcPwrStatAuxOk = 0 ∧ t.rd .hub Reg.svcPwrStatState = 0 ∧ t.hub.cmds = [] ∧ t.hub.held = [] ∧
      t.trust.session = false ∧ t.trust.keys = [] ∧ t.trust.c = s.trust.c ∧ t.err.queue = [] ∧ t.overlay = s.overlay ∧
      (2 ≤ s.power → s.power ≤ 5 → t.mem = [] ∧ t.parts = [])) ∧
    (∀ mv us, s.hubOn = true → 38000 ≤ mv → mv ≤ 48000 → 10000 ≤ us → ∃ t, exec (.mainQualified mv us) s = .next t ∧
      t.rd .hub Reg.svcPwrStatMainOk = 1 ∧ t.rd .hub Reg.svcPwrMeasMainV = mv / 10 ∧
      (∀ e ∈ t.pwr.sources, e.1 ≠ .mainUv) ∧ t.mem = s.mem) ∧
    (∀ mv us, s.hubOn = true → mv < 38000 → 5 ≤ us → ∃ t, exec (.mainUndervoltage mv us) s = .next t ∧
      t.rd .hub Reg.svcPwrStatMainOk = 0 ∧ t.mem = s.mem ∧
      (s.power = 3 ∨ s.power = 4 → ∃ e ∈ t.pwr.sources, e.1 = .mainUv)) ∧
    (∀ mv us, s.hubOn = true → 2 ≤ s.power → s.power ≤ 5 →
      ((mv < 35000 ∧ 50 ≤ us) ∨ (mv < 33000 ∧ 1 ≤ us) → ∃ t, exec (.mainLoss mv us) s = .next t ∧ OffFor s t 2 1 ∧
        t.rd .hub Reg.svcPwrStatMainOk = 0) ∧
      (50000 < mv → 10 ≤ us → ∃ t, exec (.mainOvervoltage mv us) s = .next t ∧ OffFor s t 3 1 ∧
        t.rd .hub Reg.svcPwrStatMainOk = 0)) ∧
    (∀ ns, s.pwr.modReset = false → 1000 ≤ ns → ∃ t, exec (.modResetN ns) s = .next t ∧ t.pwr.modReset = true ∧
      t.rd .hub Reg.svcPwrStatState = 0 ∧ t.hub.cmds = [] ∧ t.trust.session = false ∧ t.trust.c = s.trust.c ∧
      t.trust.configKey = s.trust.configKey ∧ t.rd .hub Reg.svcRingStatBypass = 1 ∧ t.overlay = s.overlay ∧
      (2 ≤ s.power → s.power ≤ 5 → t.mem = [] ∧ t.parts = [])) ∧
    (∃ t, exec .modResetRelease s = .next t ∧ t.pwr.modReset = false ∧ t = { s with pwr := t.pwr })

/-- R364–R369: a regulator alert in state 3 or 4 opens an episode: the floor is in force in every lake, ALERT_LIMIT at every DRAM
channel, and the episode's first external source is posted; a source clears; an episode whose sources have cleared ends, and the
floor lifts 1 ms later; a field converter's alert of 100 ms powers the wafer off. -/
def Sys2Proof.Claims.AlertsRule : Prop :=
  ∀ s : State, HubQuiet s →
    (∀ ns, 100 ≤ ns → s.power = 3 ∨ s.power = 4 → s.pwr.episode = false → (∀ e ∈ s.pwr.sources, e.1 ≠ .ext) →
      ∃ t, exec (.vrAlertN true ns) s = .next t ∧ (.ext, s.now) ∈ t.pwr.sources ∧ t.pwr.episode = true ∧
        t.rd .hub Reg.svcPwrStatAlert = 1 ∧ t.rd .hub Reg.svcPwrStatAlertExt = 1 ∧ t.rd .hub Reg.svcAlertSrcExt = 1 ∧
        (∀ w : LakeIx, t.rd (.lake w) Reg.lakeClkStatAlert = 1) ∧ (∀ f : FieldIx, t.rd (.dram f) Reg.dramThrottleAlert = 1) ∧
        Posted s t 2 0 0 0xFFFF 0xFF ∧ t.rdi .hub Reg.hubNmiStatNmi 0 / 2 % 2 = 1 ∧ t.mem = s.mem) ∧
    (∀ ns, ∃ t, exec (.vrAlertN false ns) s = .next t ∧ (∀ e ∈ t.pwr.sources, e.1 ≠ .ext) ∧
      (∀ e ∈ s.pwr.sources, e.1 ≠ .ext → e ∈ t.pwr.sources) ∧ t.rd .hub Reg.svcPwrStatAlertExt = 0 ∧ t.mem = s.mem) ∧
    (∀ f : FieldIx, s.power = 3 ∨ s.power = 4 → (∀ e ∈ s.pwr.sources, e.1 ≠ .field f) → ∃ t,
      exec (.internalAlert (.field f) true) s = .next t ∧ (.field f, s.now) ∈ t.pwr.sources ∧
      t.rd .hub Reg.svcPwrStatAlertInt = 1 ∧ t.rd (.pwr f) Reg.pwrAlertsField = min (s.rd (.pwr f) Reg.pwrAlertsField + 1) 0xFFFFFFFF) ∧
    (∀ a : AlertSrc, a ≠ .ext → ∃ t, exec (.internalAlert a false) s = .next t ∧ (∀ e ∈ t.pwr.sources, e.1 ≠ a) ∧
      (∀ e ∈ s.pwr.sources, e.1 ≠ a → e ∈ t.pwr.sources)) ∧
    (s.pwr.episode = true → s.pwr.sources = [] → exec .alertEpisodeEnd s = .next { s with pwr := { s.pwr with
      episode := false
      ended := s.now + 1 } }) ∧
    (s.pwr.ended ≠ 0 → s.pwr.ended + 1000000 ≤ s.now + 1 → ∃ t, exec .floorLift s = .next t ∧ t.pwr.ended = 0 ∧
      t.rd .hub Reg.svcPwrStatAlert = 0 ∧ (∀ w : LakeIx, t.rd (.lake w) Reg.lakeClkStatAlert = 0) ∧
      (∀ f : FieldIx, t.rd (.dram f) Reg.dramThrottleAlert = 0) ∧ t.mem = s.mem) ∧
    (∀ (f : FieldIx) (at_ : Nat), s.pwr.sources = [(.field f, at_)] → at_ + 100000000 ≤ s.now → 2 ≤ s.power → s.power ≤ 5 →
      ∃ t, exec (.alertLasts (.field f)) s = .next t ∧ OffFor s t 6 1)

/-- R356–R369: the supplies and regulator alerts. -/
def Obligations.SuppliesAndAlerts : Prop :=
  Claims.SuppliesRule ∧ Claims.AlertsRule

/-! Clocks and global time. -/

/-- R333, R335–R338: a monitor window qualifies REFIN after 100 good windows in a row and a bad one disqualifies it; a failure while the
module clock is REFIN switches it to the oscillator, shows why and posts CLOCK_FAIL; a return that is possible and phase-locked
switches back; a phase lock to qualified REFIN shows the trim, which 24 hours of trimmed running store. -/
def Sys2Proof.Claims.ModuleClockRule : Prop :=
  ∀ s : State, HubQuiet s →
    (∀ edges missing,
      let lo := if s.rd .hub Reg.svcClkStatTrimmed = 1 then 990 else 960
      let hi := if s.rd .hub Reg.svcClkStatTrimmed = 1 then 1010 else 1040
      let good := lo ≤ edges ∧ edges ≤ hi ∧ missing = false
      ∃ t, exec (.refinWindow edges missing) s = .next t ∧ t = { s with
        regs := t.regs
        ref := t.ref } ∧
      (good → t.ref.windows = min (s.ref.windows + 1) 100) ∧ (¬ good → t.ref.windows = 0 ∧ t.rd .hub Reg.svcClkStatRefinOk = 0) ∧
      (good → t.rd .hub Reg.svcClkStatRefinOk
        = if t.ref.windows = 100 ∨ s.rd .hub Reg.svcClkStatRefinOk = 1 then 1 else 0)) ∧
    (∀ (missing : Bool) (why : Nat), s.rd .hub Reg.svcClkStatSource = 0 → why = s.ref.fail ||| missing.toNat → why ≠ 0 →
      ∃ t, exec (.clockFail missing) s = .next t ∧ t.rd .hub Reg.svcClkStatSource = 1 ∧
        t.rd .hub Reg.svcClkStatLastFail = why % 4 ∧ t.rd .hub Reg.svcClkStatRefinOk = 0 ∧
        t.rd .hub Reg.svcClkSwitchesToOsc = min (s.rd .hub Reg.svcClkSwitchesToOsc + 1) 0xFFFFFFFF ∧
        Posted s t 1 0 0 why 0xFF ∧ t.rd .hub Reg.hubNmiStatNmi % 2 = 1 ∧ t.mem = s.mem ∧ t.time = s.time) ∧
    (∀ i : Instr, i = .refinReturn ∨ (i = .autoReturn ∧ s.rd .hub Reg.svcClkCtrlAutoReturn = 1) →
      s.rd .hub Reg.svcClkStatReturnPending = 1 → s.rd .hub Reg.svcClkStatRefinOk = 1 → s.rd .hub Reg.svcClkStatSource = 1 →
      (s.ref.locked = true → ∃ t, exec i s = .next t ∧ t.rd .hub Reg.svcClkStatSource = 0 ∧
        t.rd .hub Reg.svcClkStatReturnPending = 0 ∧ t = { s with
          regs := t.regs
          ref := t.ref }) ∧
      (s.ref.locked = false → exec i s = .next { s with ref := { s.ref with wanted := true } })) ∧
    (s.rd .hub Reg.svcClkStatReturnPending = 0 → exec .refinReturn s = .next s) ∧
    (∀ ppm : BitVec 16, s.rd .hub Reg.svcClkStatRefinOk = 1 → ∃ t, exec (.oscillatorLocked ppm) s = .next t ∧
      t.rd .hub Reg.svcClkStatTrimmed = 1 ∧ t.rd .hub Reg.svcOscTrimTrim = ppm.toNat ∧ t.ref.locked = true ∧
      (s.ref.wanted = true → s.rd .hub Reg.svcClkStatSource = 1 → t.rd .hub Reg.svcClkStatSource = 0)) ∧
    (8640000000 ≤ s.ref.trimmed → exec .trimStore s = .next { s with ref := { s.ref with
      trimmed := s.ref.trimmed - 8640000000
      stored := s.rd .hub Reg.svcOscTrimTrim } })

/-- R342, R350, R351: at a beat boundary T grows by the length of the beat that ends, the next beat is long or short only when 49 beats
have passed since the last such one and the correction wants it, and every running lake's target is the least of its ceiling, grant
and thermal limit, less two under droop, the floor under an alert; a beat with a wrong number of edges counts in LAKE_CLK_ERR. Every
1,024 beats the lakes' copies agree with T in their low 16 bits again. -/
def Obligations.BeatsCarryTime : Prop :=
  ∀ s : State, s.hubOn = true →
    (∃ t, exec (.beat [] []) s = .next t ∧ t.time = s.time + s.clk.beatL ∧ t.clk.half = false ∧ t.mem = s.mem ∧
      t.clk.beatL = (if 49 ≤ s.clk.since ∧ 1 < s.clk.slew then 19 else if 49 ≤ s.clk.since ∧ s.clk.slew < -1 then 21 else 20) ∧
      (t.clk.beatL ≠ 20 → t.clk.since = 0) ∧
      (s.waferOn = true → ∀ w : LakeIx, s.lakeState w = 0 →
        let u : UnitId := .lake w
        let n := min (s.rd u Reg.lakeClkLimitCeiling) (min (s.rd u Reg.lakeClkLimitGrant) (s.rd u Reg.lakeClkLimitTherm))
        t.rd u Reg.lakeClkStatTarget = (if s.rd u Reg.lakeClkStatAlert = 1 ∨ s.supervised (w / 12) = false then 4
          else if s.rd u Reg.lakeClkStatDroop = 1 then max 4 (n - 2) else n) % 32)) ∧
    (∀ (w : LakeIx) (e : Nat), s.lakeState w = 0 → e ≠ s.ratio w → ∃ t, exec (.beat [(w, e)] []) s = .next t ∧
      t.rd (.lake w) Reg.lakeClkErr = min (s.rd (.lake w) Reg.lakeClkErr + 1) 0xFFFFFFFF ∧
      t.time = s.time + s.clk.beatL ∧ ∃ r ∈ t.err.queue, r.kind = 0x16 ∧ r.field = w / 12 ∧ r.tile = w % 12) ∧
    (1024 ≤ s.clk.beats → ∃ t, exec .timeReload s = .next t ∧ t.time = s.time ∧ t.clk.beats = 0 ∧
      ∀ w : LakeIx, ((s.time : Int) + t.clk.lakeOff.get w 0) % 65536 = (s.time : Int) % 65536 ∧
        t.rd (.lake w) Reg.lakeClkErr = (if ((s.time : Int) + s.clk.lakeOff.get w 0) % 65536 = (s.time : Int) % 65536
          then s.rd (.lake w) Reg.lakeClkErr else min (s.rd (.lake w) Reg.lakeClkErr + 1) 0xFFFFFFFF))

/-- R342–R349: droop is set by a low rail and cleared after 64 clean beats; a raise is announced after its settle wait; two beats after an
announcement the dividers switch to it, a lowering commanding the lower voltage then, and the switch is reported unless only droop lies
between; a lowering ends with the rail settled; an idle lake goes warm, then cold asleep; a trigger asks for its wake, which ends after
its beats at the target. -/
def Obligations.LakeSequencerSwitches : Prop :=
  ∀ (s : State) (w : LakeIx) (mv : Nat), HubQuiet s →
    let u : UnitId := .lake w
    let x := s.lake w
    (s.lakeState w = 0 → mv + 30 < s.mv w (s.ratio w) → s.rd u Reg.lakeClkStatDroop = 0 → ∃ t,
      exec (.droopOnset w mv) s = .next t ∧ t.rd u Reg.lakeClkStatDroop = 1 ∧
      t.rd u Reg.lakeDroop = min (s.rd u Reg.lakeDroop + 1) 0xFFFFFFFF ∧ t.rd u Reg.lakeVfRail = mv ∧
      t = { s with
        regs := t.regs
        lakes := t.lakes } ∧
      OtherRegs s t [(u, Reg.lakeClkStatDroop, 0), (u, Reg.lakeDroop, 0), (u, Reg.lakeVfRail, 0)]) ∧
    (s.rd u Reg.lakeClkStatDroop = 1 → 64 ≤ x.clear → ∃ t, exec (.droopClear w) s = .next t ∧ t.rd u Reg.lakeClkStatDroop = 0 ∧
      OtherRegs s t [(u, Reg.lakeClkStatDroop, 0)]) ∧
    (x.raise ≠ 0 → x.settling = true → ∃ t, exec (.settleWaitEnd w mv) s = .next t ∧ (t.lake w).ann = x.raise ∧
      (t.lake w).beats = 0 ∧ (t.lake w).settling = false ∧ t.rd u Reg.lakeClkStatSeq = 2 ∧ t.ratio w = s.ratio w ∧
      OtherRegs s t [(u, Reg.lakeVfRail, 0), (u, Reg.lakeClkStatSeq, 0)]) ∧
    (x.ann ≠ 0 → x.ann < 32 → 2 ≤ x.beats → s.lakeState w = 0 → ∃ t, exec (.dividerSwitch w) s = .next t ∧ t.ratio w = x.ann ∧
      (t.lake w).ann = 0 ∧ t.rd u Reg.lakeSwitch = (s.rd u Reg.lakeSwitch + 1) % 2 ^ 48 ∧
      (x.ann < s.ratio w → t.rd u Reg.lakeVfVolt = s.mv w x.ann % 2 ^ 10 ∧ t.rd u Reg.lakeClkStatSeq = 3) ∧
      (s.ratio w ≤ x.ann → t.rd u Reg.lakeVfVolt = s.rd u Reg.lakeVfVolt ∧ t.rd u Reg.lakeClkStatSeq = 0) ∧
      (x.annBase = x.lastBase → t.hub = s.hub ∧ t.events = s.events) ∧
      (x.annBase ≠ x.lastBase → s.supervised (w / 12) = true →
        Posted s t 0x10 (x.ann + 32 * s.rd u Reg.lakeThermState) w (s.presence w) 0xFF)) ∧
    (let v := s.rd u Reg.lakeVfVolt
     s.rd u Reg.lakeClkStatSeq = 3 → v ≤ mv + 10 → mv ≤ v + 10 → mv < 1024 → ∃ t, exec (.loweringSettled w mv) s = .next t ∧
      t.rd u Reg.lakeClkStatSeq = 0 ∧ t.rd u Reg.lakeVfRail = mv ∧
      OnlyRegs s t [(u, Reg.lakeClkStatSeq, 0), (u, Reg.lakeVfRail, 0)]) ∧
    (s.lakeState w = 0 → s.rd u Reg.lakeSleepWarmBeats ≠ 0 → s.rd u Reg.lakeSleepWarmBeats ≤ x.idle → ∃ t,
      exec (.warmSleep w) s = .next t ∧ t.lakeState w = 1 ∧ OtherRegs s t [(u, Reg.lakeClkStatState, 0)]) ∧
    (s.lakeState w = 1 → s.rd u Reg.lakeSleepColdUs ≠ 0 → 50 * s.rd u Reg.lakeSleepColdUs ≤ x.warm → ∃ t,
      exec (.coldSleep w) s = .next t ∧ t.lakeState w = 2 ∧ t.rd u Reg.lakeVfVolt = s.mv w 4 % 2 ^ 10 ∧
      OtherRegs s t [(u, Reg.lakeClkStatState, 0), (u, Reg.lakeVfVolt, 0)]) ∧
    (s.lakeState w = 1 ∨ s.lakeState w = 2 → (∃ f ∈ s.net.flights, ∃ i q, f.place = .router i q ∧ lakeOf (i / 16) = w) →
      ∃ t, exec (.wakeTrigger w) s = .next t ∧ t = { s with pwr := t.pwr } ∧
        ∃ r ∈ t.pwr.reqs, r.lake = w ∧ r.wake = true ∧ r.n = s.targetOf w) ∧
    (s.lakeState w = 3 → (if x.cold = true then 450 else 8) ≤ x.waking → ∃ t, exec (.wakeDone w mv) s = .next t ∧
      t.lakeState w = 0 ∧ t.ratio w = min (s.targetOf w) x.drawn % 32 ∧
      t.rd u (if x.cold = true then Reg.lakeWakeCold else Reg.lakeWakeWarm)
        = (s.rd u (if x.cold = true then Reg.lakeWakeCold else Reg.lakeWakeWarm) + 1) % 2 ^ 48 ∧ t.mem = s.mem)

/-- R341: every 64 beats a powered generator steps its trim by one toward the mean of its borders' skews, within ±500 steps; a skew
beyond ±100 ps sets SKEW_ALARM in the lakes on both sides. -/
def Sys2Proof.Claims.PhaseTrimRule : Prop :=
  ∀ (s : State) (w : LakeIx),
    let u : UnitId := .lake w
    let sgn (n v : Nat) : Int := if v < 2 ^ (n - 1) then v else (v : Int) - 2 ^ n
    let sum := sgn 8 (s.rd u Reg.lakePhaseSkewN) + sgn 8 (s.rd u Reg.lakePhaseSkewE) + sgn 8 (s.rd u Reg.lakePhaseSkewS)
      + sgn 8 (s.rd u Reg.lakePhaseSkewW)
    let trim := sgn 10 (s.rd u Reg.lakePhaseTrim)
    (s.lakeState w = 0 ∨ s.lakeState w = 1 → -500 ≤ trim → trim ≤ 500 → ∃ t, exec (.phaseTrim []) s = .next t ∧
      sgn 10 (t.rd u Reg.lakePhaseTrim) = (if 0 < sum then min 500 (trim + 1) else if sum < 0 then max (-500) (trim - 1) else trim) ∧
      t = { s with regs := t.regs }) ∧
    (∀ (b : Fin 4) (k : Int), 50 < k → k ≤ 127 → ∃ t, exec (.phaseTrim [(w, b, k)]) s = .next t ∧
      t.rd u Reg.lakeClkStatSkewAlarm = 1 ∧ t.rd (.lake (lakeBeyond w b)) Reg.lakeClkStatSkewAlarm = 1 ∧
      (t.lake w).halved.testBit b = true)

/-- R333–R349: the module clock and phase trim. -/
def Obligations.ModuleClockAndPhases : Prop :=
  Claims.ModuleClockRule ∧ Claims.PhaseTrimRule

/-- R289–R291, R352: a good ring frame on the way of fewer hops shows its delay, hops and master, is passed on one hop further,
and gives the offset E of this module's time; the first alignment steps T when no partition has started, later ones set what the
beats correct. A bad frame is counted. The ring's state is shown, posted when the topology changes, and without light nothing
aligns; EN opens the bypass once the receivers have locked. -/
def Obligations.RingFramesAlignTime : Prop :=
  ∀ s : State, HubQuiet s →
    (∀ portB f hop regen ppm, s.rd .hub Reg.svcRingStatBypass = 0 →
      (f.good = false → ∃ t, exec (.ringFrame portB f hop regen ppm) s = .next t ∧
        t.rd .hub Reg.svcRingErr = min (s.rd .hub Reg.svcRingErr + 1) 0xFFFFFFFF ∧ OnlyRegs s t [(.hub, Reg.svcRingErr, 0)]) ∧
      (portB = false → f.good = true → f.msgs = [] → s.ring.hopsB = none → s.rd .hub Reg.svcRingCtrlMasterEn = 0 →
        s.rd .hub Reg.svcRingStatTopo ≠ 3 →
        let e : Int := (s.now : Int) - (f.time + (f.delay + hop) / 1000 : Nat)
        ∃ t, exec (.ringFrame portB f hop regen ppm) s = .next t ∧ t.rd .hub Reg.svcRingStatHops = f.hops % 64 ∧
          t.rd .hub Reg.svcRingStatMaster = 0 ∧ t.rd .hub Reg.svcRingStatMasterRank = f.master % 64 ∧
          t.ring.sent.get 0 0 = ringFrameOf f.time (f.delay + regen + hop) (f.hops + 1) f.master (s.rd .hub Reg.svcRingStatTopo) f.text ∧
          t.rd .hub Reg.svcRingDelayHopA = hop % 2 ^ 32 ∧ t.rd .hub Reg.svcRingStatAligned = 1 ∧ t.ring.aligned = true ∧
          (s.ring.aligned = false → s.pwr.started = false → 1 < e ∨ e < -1 → (s.time : Int) - e ≥ 0 →
            (t.time : Int) = s.time - e ∧ t.rd .hub Reg.svcTimeStatStepped = 1) ∧
          (s.ring.aligned = true ∨ s.pwr.started = true → t.time = s.time ∧
            t.clk.slew = if 1 < e ∨ e < -1 then e else 0))) ∧
    (∀ (topo : Fin 4) (lightA lightB cut : Bool),
      let now := if lightA = false ∧ lightB = false then 3 else if (topo : Nat) = 3 then 2 else (topo : Nat)
      ∃ t, exec (.ringState topo lightA lightB cut) s = .next t ∧ t.rd .hub Reg.svcRingStatTopo = now ∧
        t.rd .hub Reg.svcRingStatLightA = lightA.toNat ∧ t.rd .hub Reg.svcRingStatLightB = lightB.toNat ∧ t.time = s.time ∧
        (now = 3 → t.rd .hub Reg.svcRingStatAligned = 0 ∧ t.clk.slew = 0) ∧
        (now = s.rd .hub Reg.svcRingStatTopo → t.hub = s.hub) ∧
        (now ≠ s.rd .hub Reg.svcRingStatTopo → Posted s t 0x15 0 0 now 0xFF)) ∧
    (∀ locked, (s.rd .hub Reg.svcRingStatBypass < 2 → ∃ t, exec (.ringEn true locked) s = .next t ∧ t.rd .hub Reg.svcRingCtrlEn = 1 ∧
        t.rd .hub Reg.svcRingStatBypass = (if locked = true then 0 else s.rd .hub Reg.svcRingStatBypass) ∧
        (locked = true → s.rd .hub Reg.svcRingStatBypass = 1 → s.rd .hub Reg.svcRingCtrlMasterEn = 1 →
          t.rd .hub Reg.svcRingStatMaster = 1 ∧ t.rd .hub Reg.svcRingStatMasterRank = s.rank % 64) ∧
        t = { s with regs := t.regs }) ∧
      ∃ t, exec (.ringEn false locked) s = .next t ∧ t.rd .hub Reg.svcRingCtrlEn = 0 ∧ t.rd .hub Reg.svcRingStatBypass = 1 ∧
        t.rd .hub Reg.svcRingStatAligned = 0 ∧ t.rd .hub Reg.svcRingStatMaster = 0)

/-! Power cap, slope limit and heat. -/

/-- R372, R377, R378: a computation shows the draw, moves the trim toward it unless a POWER command holds it, gives every field the same
DRAM limit, and every lake that is not Off a grant at most its ceiling and thermal limit, lowered no further than 4; the slope budget
grows with time up to its largest and a wake that it covers starts; a lake whose draw rises too fast holds issue. -/
def Obligations.PowerCapComputed : Prop :=
  ∀ s : State, s.hubOn = true →
    (∀ m : PowerMeas, s.waferOn = true → ∃ t, exec (.capComputation m) s = .next t ∧
      t.rd .hub Reg.svcPwrMeasMainW = m.mainW % 2 ^ 16 ∧ t.mem = s.mem ∧
      t.pwr.trim = (if s.pwr.capTime ≠ 0 ∧ s.now + 1 < s.pwr.capTime + 10000000 then s.pwr.trim
        else max (-8000) (min 2000 (s.pwr.trim + ((s.rd .hub Reg.svcCapCtrlCapW : Int) - m.mainW)))) ∧
      (∀ f : FieldIx, t.rd (.dram f) Reg.dramThrottleLimit = t.rd .hub Reg.svcCapStatMemLimit) ∧
      10 ≤ t.rd .hub Reg.svcCapStatMemLimit ∧ t.rd .hub Reg.svcCapStatMemLimit ≤ 100 ∧
      ∀ w : LakeIx, s.lakeState w ≠ 4 →
        let top := min (s.rd (.lake w) Reg.lakeClkLimitCeiling) (s.rd (.lake w) Reg.lakeClkLimitTherm)
        top < 32 → t.rd (.lake w) Reg.lakeClkLimitGrant ≤ top ∧
          (t.rd (.lake w) Reg.lakeClkLimitGrant = top ∨ 4 ≤ t.rd (.lake w) Reg.lakeClkLimitGrant)) ∧
    (∀ us : Nat,
      let full : Rat := (4 * s.rd .hub Reg.svcCapCtrlSlope : Nat)
      let b := s.pwr.budget + (us : Rat) * (s.rd .hub Reg.svcCapCtrlSlope : Rat) / 2
      let now := if b ≤ full then b else full
      (s.pwr.reqs = [] → exec (.slopeGrant us) s = .next { s with pwr := { s.pwr with budget := now } }) ∧
      (∀ (w : LakeIx) (n : Nat), s.pwr.reqs = [⟨w, n, true⟩] → s.predict w n ≤ now → s.lakeState w = 1 ∨ s.lakeState w = 2 →
        ∃ t, exec (.slopeGrant us) s = .next t ∧ t.pwr.reqs = [] ∧ t.pwr.budget = now - s.predict w n ∧ t.lakeState w = 3 ∧
          t.rd (.lake w) Reg.lakeVfVolt = s.mv w n % 2 ^ 10 ∧
          t.rd .hub Reg.svcSlopeWait = (s.rd .hub Reg.svcSlopeWait + us) % 2 ^ 48)) ∧
    (∀ (w : LakeIx) (rise cycles : Nat), s.lakeState w = 0 → s.rd .hub Reg.svcCapCtrlSlope * 1000000 < rise * 1152 →
      ∃ t, exec (.slewHold w rise cycles) s = .next t ∧ t = { s with regs := t.regs } ∧
        t.rd (.lake w) Reg.lakeSlewHold = (s.rd (.lake w) Reg.lakeSlewHold + cycles) % 2 ^ 48 ∧
        ∀ (g : PondIx) (m : Fin 8), lakeOf g = w → s.rd (.tile g (mPos m)) Reg.mcoreCtrlRun = 1 →
          t.rd (.tile g (mPos m)) Reg.mcoreStallIn = (s.rd (.tile g (mPos m)) Reg.mcoreStallIn + cycles) % 2 ^ 48)

/-- R379–R384: with four good sensors that agree, a sample shows their temperature, and two samples in a row move the thermal state up
past 95, 100 and 110 °C and down below 98 and 93 °C, one at a time; the thermal limit rises in Normal, falls in Warm at or above 95 °C;
a Shut lake that has cooled for 10 s is powered at the floor, and once the tables have it again it serves in Normal with its limit
at 4. -/
def Sys2Proof.Claims.ThermalRule : Prop :=
  ∀ (s : State) (w : LakeIx),
    let u : UnitId := .lake w
    let old := s.rd u Reg.lakeThermState
    let th := s.rd u Reg.lakeClkLimitTherm
    (∀ v : Nat, s.waferOn = true → v < 480 → s.lakeW w / 4 % 16 = 0 → old < 4 →
      let lo := min (s.lake w).prev v
      let hi := max (s.lake w).prev v
      ∃ t, exec (.sensorSample w v v v v) s = .next t ∧ t.rd u Reg.lakeThermTemp = v ∧ t.rd u Reg.lakeThermEst = 0 ∧
        t.rd u Reg.lakeTsensS0 = v ∧ t.rd u Reg.lakeTsensS3 = v ∧
        t.rd u Reg.lakeThermState = (if old = 3 ∨ 440 ≤ lo then 3 else if 400 ≤ lo ∧ old < 2 then 2
          else if 380 ≤ lo ∧ old < 1 then 1 else if old = 2 ∧ hi < 392 then 1 else if old = 1 ∧ hi < 372 then 0 else old) ∧
        (old < 2 → 400 ≤ lo → t.rd u Reg.lakeClkLimitTherm = 4) ∧
        (old = 0 → 380 ≤ lo → lo < 400 → t.rd u Reg.lakeClkLimitTherm = s.ratio w % 32)) ∧
    (th ≤ 20 →
      (old = 0 → ∃ t, exec (.thermStep w) s = .next t ∧ t.rd u Reg.lakeClkLimitTherm = min 20 (th + 1) ∧
        OnlyRegs s t [(u, Reg.lakeClkLimitTherm, 0)]) ∧
      (old = 1 → 380 ≤ s.rd u Reg.lakeThermTemp → ∃ t, exec (.thermStep w) s = .next t ∧
        t.rd u Reg.lakeClkLimitTherm = max 4 (th - 1) ∧ OnlyRegs s t [(u, Reg.lakeClkLimitTherm, 0)]) ∧
      (old = 1 → s.rd u Reg.lakeThermTemp < 380 → exec (.thermStep w) s = .next s) ∧
      (2 ≤ old → exec (.thermStep w) s = .next s)) ∧
    (∀ tests, old = 3 → (s.lake w).off = 0 → s.lakeState w = 4 → 500000 ≤ (s.lake w).cool →
      (s.rd u Reg.lakeRstStatReturning = 0 → ∃ t, exec (.shutReturn w tests) s = .next t ∧
        t.rd u Reg.lakeRstStatReturning = 1 ∧ t.rd u Reg.lakeVfVolt = s.mv w 4 % 2 ^ 10 ∧ t.ratio w = 4 ∧
        (w : Nat) ∉ t.net.cutLakes) ∧
      (s.rd u Reg.lakeRstStatReturning = 1 → (w : Nat) ∉ s.net.tabLakes → ∃ t, exec (.shutReturn w tests) s = .next t ∧
        t.lakeState w = 0 ∧ t.rd u Reg.lakeThermState = 0 ∧ t.rd u Reg.lakeClkLimitTherm = 4 ∧
        t.rd u Reg.lakeRstStatReturning = 0 ∧ t.mem = s.mem))

/-- R472, R473: a coolant sample shows both temperatures; a rise above its limit in two samples in a row sets COOL_WARN, counts and posts
it. -/
def Sys2Proof.Claims.CoolantRule : Prop :=
  ∀ (s : State) (a b : Nat), HubQuiet s → a ≤ 400 → b ≤ 400 →
    ∃ t, exec (.coolantSample a b) s = .next t ∧ t.rd .hub Reg.svcModStatCoolIn = a ∧ t.rd .hub Reg.svcModStatCoolOut = b ∧
      t.mem = s.mem ∧
      (s.rd .hub Reg.svcModStatCoolWarn = 0 → a + 4 * s.rd .hub Reg.svcModCfgDtLimit < b → s.pwr.coolPrev % 2 = 1 →
        t.rd .hub Reg.svcModStatCoolWarn = 1 ∧
        t.rd .hub Reg.svcCoolWarns = min (s.rd .hub Reg.svcCoolWarns + 1) 0xFFFFFFFF ∧ Posted s t 0x1B 0 0 (a + b * 2 ^ 16) 0xFF) ∧
      (s.rd .hub Reg.svcModStatCoolWarn = 0 → b ≤ a + 4 * s.rd .hub Reg.svcModCfgDtLimit →
        b ≤ 4 * s.rd .hub Reg.svcModCfgOutLimit → t.rd .hub Reg.svcModStatCoolWarn = 0 ∧ t.hub = s.hub)

/-- R379–R387, R472: heat in the stack and the coolant. -/
def Obligations.ThermalStatesAndCoolant : Prop :=
  Claims.ThermalRule ∧ Claims.CoolantRule

/-! Silent errors, logs, resets and broadcasts. -/

/-- R392–R397: an idle unit that may be tested becomes active; a segment with the right signature leads to the next, the last to a pass
that is counted and stamped; a wrong one fails the unit: its overlay bit, its record, its pond's event. -/
def Obligations.OpalTestsPassOrFail : Prop :=
  ∀ (s : State) (g : PondIx) (t : Fin 16),
    let x := s.opalOf g t
    let f := fieldOf g
    let right := Config.opalSignature (match tileType t with | .m => 0 | .v => 1 | .a => 2 | .s => 3) (s.ratio (lakeOf g)) x.seg
    (∀ (fi : FieldIx) (p : Fin 288) (m : BitVec 16), (fi : Nat) = f → 288 * (fi : Nat) + (p : Nat) = g → m = 1#16 <<< (t : Nat) →
      s.rd (.fld f) Reg.fldOpalCfgEn = 1 → s.supervised f = true → s.unitIdle g t = true → s.mayOffer g t = true →
      s.lakeState (lakeOf g) = 0 → ∃ r, exec (.opalOffer fi [(p, m)]) s = .next r ∧ (r.opalOf g t).active = true ∧
      (r.opalOf g t).age = x.age ∧ r = { s with opal := r.opal }) ∧
    (∀ sig, x.active = true → s.clocked g = true →
      (sig = right → x.seg + 1 < 32 → ∃ r, exec (.opalSegment g t sig) s = .next r ∧ (r.opalOf g t).seg = x.seg + 1 ∧
        (r.opalOf g t).active = true ∧ r = { s with opal := r.opal }) ∧
      (sig = right → 32 ≤ x.seg + 1 → ∃ r, exec (.opalSegment g t sig) s = .next r ∧ (r.opalOf g t).active = false ∧
        (r.opalOf g t).seg = 0 ∧ (r.opalOf g t).age = 0 ∧ (r.opalOf g t).passTime = s.now ∧
        r.rd (.fld f) Reg.fldOpalPass = (s.rd (.fld f) Reg.fldOpalPass + 1) % 2 ^ 48) ∧
      (sig ≠ right → ∃ r, exec (.opalSegment g t sig) s = .next r ∧ (r.opalOf g t).active = false ∧
        (r.tileW g t).testBit 0 = true ∧ Raised r g 6 t ∧
        r.rd (.fld f) Reg.fldOpalFail = min (s.rd (.fld f) Reg.fldOpalFail + 1) 0xFFFFFFFF ∧
        ∃ e ∈ r.err.queue, e.kind = 8 ∧ e.field = f ∧ e.pond = pondIn g ∧ e.tile = t))

/-- R392: besides the step bound, a unit is due for a test when its last pass is more than 24 hours old, and is not made due sooner. -/
def Obligations.OpalDayBound : Prop :=
  ∀ (s : State) (g : PondIx) (t : Fin 16),
    let x := s.opalOf g t
    (x.passTime + 24 * 3600 * 10 ^ 9 < s.now → ∃ r, exec (.opalDue g t) s = .next r ∧ r.opalOf g t = { x with due := true } ∧
      (∀ h u : Nat, 16 * h + u ≠ 16 * (g : Nat) + (t : Nat) → r.opalOf h u = s.opalOf h u) ∧ r = { s with opal := r.opal }) ∧
    (s.now ≤ x.passTime + 24 * 3600 * 10 ^ 9 → exec (.opalDue g t) s = .next s)

/-- R17, R403–R406: the oldest record of a field, of one service cycle that of the lower UNIT, enters its log with the next
sequence number and goes on to the module log, and, when its severity is P or F, faults the running partition it names; records
that wait enter the module log; a failed supervisor's field is adopted by its pair's. -/
def Obligations.RecordsAreLogged : Prop :=
  ∀ (s : State) (f : FieldIx),
    let u : UnitId := .fld f
    (∀ r rest, s.err.queue = r :: rest → r.field = f → (∀ x ∈ rest, x.field = f → x.time = r.time → r.unit ≤ x.unit) →
      s.supvWorks f = true → s.repeats f r = false →
      (sevOf r.kind < 2 → ∃ t e, exec (.errorRecordLog f) s = .next t ∧
        e = { r with seq := s.rd u Reg.fldElogStatWritten % 65536 } ∧ (t.err.elog.get f []).head? = some e ∧
        t.err.mlogWait = s.err.mlogWait ++ [e] ∧ t.err.queue = rest ∧
        t.rd u Reg.fldElogStatWritten = (s.rd u Reg.fldElogStatWritten + 1) % 2 ^ 32 ∧ t = { s with
          regs := t.regs
          err := t.err }) ∧
      (2 ≤ sevOf r.kind → r.part < 64 → (s.parts.get r.part Sys2Proof.Machine.Part.none).state = 3 → (s.parts.get r.part Sys2Proof.Machine.Part.none).faultCode = 0 →
        ∃ t, exec (.errorRecordLog f) s = .next t ∧ (t.parts.get r.part Sys2Proof.Machine.Part.none).recStep = 1 ∧
          (t.parts.get r.part Sys2Proof.Machine.Part.none).faultField = f ∧ (t.parts.get r.part Sys2Proof.Machine.Part.none).faultTime = r.time ∧
          t.err.queue = rest)) ∧
    (∀ r, s.hubOn = true → s.err.mlogWait = [r] → ∃ t, exec .moduleLogAppend s = .next t ∧
      t.err.mlog = (r :: s.err.mlog).take 65536 ∧ t.err.mlogWait = [] ∧
      t.rd .hub Reg.svcMlogStatWritten = (s.rd .hub Reg.svcMlogStatWritten + 1) % 2 ^ 32 ∧ t.mem = s.mem) ∧
    (∀ q : FieldIx, (q : Nat) = 8 * ((f : Nat) / 8) + ((f : Nat) % 8 ^^^ 1) → s.supvWorks f = true → s.supvWorks q = true →
      ∃ t, exec (.supervisorFail f) s = .next t ∧ t.supvWorks f = false ∧ t.supervised f = true ∧
        t.rd (.fld q) Reg.fldSupvAdopting = 1 ∧ t.rd u Reg.fldSupvAdopted = 1 ∧ t.parts = s.parts ∧
        ∃ e ∈ t.err.queue, e.kind = 0x19 ∧ e.field = q)

/-- R414–R418, R493: a tile of a pond in no partition closes its boundary; once drained it is cleared, its core memory zeroed and no other
byte, and it returns; a pond in no partition closes, and once drained its memories are zero and it returns. -/
def Sys2Proof.Claims.ResetsRule : Prop :=
  ∀ (s : State) (g : PondIx), s.partOf g = none →
    (∀ t : Fin 16,
      let i := 16 * (g : Nat) + (t : Nat)
      (i ∉ s.closed → ∀ bad, ∃ r, exec (.tile g t bad) s = .next r ∧ i ∈ r.closed ∧ i ∉ r.drainDone ∧ r.tileRun g t = false ∧
        r.mem = s.mem) ∧
      (i ∈ s.closed → i ∈ s.drainDone → ∃ r, exec (.tile g t false) s = .next r ∧ i ∉ r.closed ∧ r.tileRun g t = false ∧
        (∀ q, q < 8 → inQ r g t q = TQueue.empty ∧ outQ r g t q = TQueue.empty) ∧
        (∀ k, r.mem.byte k = if tileType t ≠ .a ∧ coreKey g t 0 ≤ k ∧ k < coreKey g t 0 + 2 ^ 18 then 0 else s.mem.byte k))) ∧
    (∀ x : TestFail,
      ((∃ i, i < 16 ∧ 16 * (g : Nat) + i ∉ s.closed) → ∃ r, exec (.cold g x) s = .next r ∧
        (∀ i, i < 16 → 16 * (g : Nat) + i ∈ r.closed) ∧ r.mem = s.mem) ∧
      ((∀ i, i < 16 → 16 * (g : Nat) + i ∈ s.closed ∧ 16 * (g : Nat) + i ∈ s.drainDone) → ∃ r, exec (.cold g x) s = .next r ∧
        (∀ i, i < 16 → 16 * (g : Nat) + i ∉ r.closed) ∧ (g : Nat) ∉ r.net.cutPonds ∧
        (∀ k, k < 2 ^ 23 → r.mem.byte (pondKey g k) = 0) ∧
        (∀ i k, i < 16 → tileType i ≠ .a → k < 2 ^ 18 → r.mem.byte (coreKey g i k) = 0)))

/-- R428–R430: a chunk of the object that the receiver takes is written, and clears its missing bit when its CRC is right; after repair
the chunk that was missing is written; a receiver that the unicast does not reach either is marked failed. -/
def Sys2Proof.Claims.BroadcastsRule : Prop :=
  ∀ (s : State) (g : PondIx) (i : Nat),
    let u : UnitId := .pond g
    let key := s.bcKey g (4096 * i)
    let missing (t : State) : Bool := (t.rdi u Reg.pondBcMiss (i / 64)).testBit (i % 64)
    (∀ (crc : BitVec 32) (len : Nat) (bs : List Byte), s.rd (.tile g 5) Reg.scoreCtrlRun = 0 → s.rd u Reg.pondBcCfgActive = 1 →
      i < s.rd u Reg.pondBcCfgChunks → i < 4096 → ∃ t, exec (.broadcastChunk g (s.rd u Reg.pondBcCfgObject) i crc len bs) s = .next t ∧
      t.mem = s.mem.putBytes key bs ∧
      (crc32 bs = crc.toNat → missing t = false) ∧ (crc32 bs ≠ crc.toNat → missing t = missing s)) ∧
    (∀ bs : List Byte, s.rd u Reg.pondBcCfgActive = 1 → s.bcMissing g ≠ 0 → i < 4096 →
      (List.range (s.rd u Reg.pondBcCfgChunks)).filter (fun k => (s.rdi u Reg.pondBcMiss (k / 64)).testBit (k % 64)) = [i] →
      (∀ rounds, ∃ t, exec (.broadcastRepair g bs rounds true) s = .next t ∧
        t.mem = s.mem.putBytes key ((bs.drop (4096 * i)).take 4096) ∧ missing t = false) ∧
      (∃ t, exec (.broadcastRepair g bs 8 false) s = .next t ∧ t.rd u Reg.pondBcCfgActive = 0 ∧
        (t.tileW g 5).testBit 0 = true ∧ t.mem = s.mem))

/-- R414–R430: tile and pond resets and the program broadcast. -/
def Obligations.ResetsAndBroadcasts : Prop :=
  Claims.ResetsRule ∧ Claims.BroadcastsRule

/-! The wafer network. -/

/-- Where a packet that leaves router i by port q arrives (R233, R251). -/
def Sys2Proof.Claims.beyond (i q : Nat) : Place :=
  if q = 5 then .strip (fieldOf (i / 16)) else .router (neighbour i q) (opposite q)

/-- Flight n has gone from s, and the packet p is on its way from `at_` in its place. -/
def Sys2Proof.Claims.Moved (s t : State) (n : Nat) (p : Packet) (at_ : Place) : Prop :=
  t.net.flights = s.net.flights.eraseIdx n ++ [(⟨p, at_, 0, 0⟩ : Flight)]

/-- Nothing differs but the network and router registers. -/
def Sys2Proof.Claims.OnlyNet (s t : State) : Prop :=
  t = { s with
    regs := t.regs
    net := t.net }

/-- R235: a bad link CRC is counted, and the packet that showed it is discarded and comes again from the sender's replay buffer; after
the eighth failed replay both ends mark the link failed and enter the overlay, and LINK_FAIL is recorded. -/
def Sys2Proof.Claims.LinkReplayRule : Prop :=
  ∀ (s : State) (i : Fin 221184) (q : Fin 4),
    let u : UnitId := .tile (i / 16) (i % 16)
    let m := neighbour i q
    let um : UnitId := .tile (m / 16) (m % 16)
    let n := s.net.links.get (8 * i + q) 0 + 1
    let kept := s.net.replay.get (8 * m + opposite q) []
    s.rdi u Reg.rtrLinkState q ≠ 2 → s.liveGraph.link i q = true → ∃ t, exec (.linkCrcError i q) s = .next t ∧
      t.rdi u Reg.rtrCrcErr q = min (s.rdi u Reg.rtrCrcErr q + 1) 0xFFFFFFFF ∧ t.mem = s.mem ∧
      t.net.links.get (8 * i + q) 0 = n ∧ (kept = [] → t.net.flights = s.net.flights) ∧
      (∀ (pre : List Flight) (p : Packet) (c w d : Nat), s.net.flights = pre ++ [⟨p, .router i q, w, d⟩] → kept.getLast? = some (p, c) →
        t.net.flights = if n ≤ 8 then pre ++ [⟨p, .router i q, 0, 0⟩] else pre) ∧
      (n ≤ 8 → t.rdi u Reg.rtrLinkState q = 1 ∧ t.rdi um Reg.rtrLinkState (opposite q) = 1 ∧ t.overlay = s.overlay ∧ OnlyNet s t) ∧
      (8 < n → t.rdi u Reg.rtrLinkState q = 2 ∧ t.rdi um Reg.rtrLinkState (opposite q) = 2 ∧
        (t.tileW (i / 16) (i % 16)).testBit (2 + q) = true ∧ (t.tileW (m / 16) (m % 16)).testBit (2 + opposite q) = true ∧
        ∃ e ∈ t.err.queue, e.kind = 0x0E ∧ e.field = fieldOf (i / 16) ∧ e.pond = pondIn (i / 16) ∧ e.tile = i % 16 ∧ e.detail = q)

/-- No packet at router i but flight n wants output port q: no other whole packet, no branch of an MCAST, no copy in its hold slot. -/
def Sys2Proof.Claims.Alone (s : State) (i q n : Nat) : Prop :=
  s.lakeAsleep i = false ∧ s.heldAt i q = none ∧ (∀ k y, s.net.flights[k]? = some y → k ≠ n → s.wants i q y = false) ∧
    ∀ e ∈ s.heads i, e.2.pkt.typ = 6 → e.2.pkt.vc = 2 → (s.mcastBranches i e.2.pkt).contains q = false

/-- R237, R243, R244, R251, R252, R254, R257, R259: the packet at the head of its buffer that alone wants an output port leaves by it to
the router beyond, or by the field port to its strip, with credit; a packet without a path is answered UNIT_ABSENT and recorded, an
MCAST once for each target pond, or, a response, discarded; a crossbar passes its oldest packet to the working port of its EGRESS; a
packet that has waited ESC_WAIT cycles enters the escape channel; a copy leaves its hold slot with credit. -/
def Sys2Proof.Claims.HopsRule : Prop :=
  ∀ (s : State),
    (∀ (i : Fin 221184) (q : Fin 6) (n : Nat) (x : Flight),
      let u : UnitId := .tile (i / 16) (i % 16)
      let lost (e : Nat × Flight) : Bool := !s.atGoal e.2 && decide (s.hopOf i e.2.inPort e.2.pkt = .lost)
      (∀ dn, Alone s i q n → s.net.flights[n]? = some x → s.isHead i n = true → s.atGoal x = false →
        (∀ e ∈ s.heads i, lost e = false) → s.hopOf i x.inPort x.pkt = .go q dn → s.credit i q x.pkt x.pkt.vc = true →
        ∃ t, exec (.packetHop (.out i q)) s = .next t ∧
          Moved s t n (if x.pkt.vc < 2 then x.pkt else x.pkt.put 110 1 dn.toNat) (beyond i q) ∧
          t.rdi u Reg.rtrPktOut q = (s.rdi u Reg.rtrPktOut q + 1) % 2 ^ 48 ∧ OnlyNet s t) ∧
      (s.lakeAsleep i = false → (s.heads i).find? lost = some (n, x) →
        (x.pkt.typ < 8 → x.pkt.typ ≠ 5 → x.pkt.typ ≠ 6 → s.answerRoom i x.pkt.ordered = true →
          ∃ t, exec (.packetHop (.out i q)) s = .next t ∧ t.mem = s.mem ∧ t.rd u Reg.rtrNack = (s.rd u Reg.rtrNack + 1) % 2 ^ 48 ∧
          ∃ e ∈ t.err.queue, e.kind = 0x0A ∧ e.tile = i % 16 ∧ e.detail = x.pkt.dest % 2 ^ 58 + 2 * 2 ^ 58) ∧
        (∀ ponds, x.pkt.typ = 6 → s.answerRoom i x.pkt.ordered = true → targetPonds (s.mcastTargets x.pkt.dest) = ponds → ponds ≠ [] →
          ∃ t, exec (.packetHop (.out i q)) s = .next t ∧ t.mem = s.mem ∧
            t.rd u Reg.rtrNack = (s.rd u Reg.rtrNack + ponds.length) % 2 ^ 48) ∧
        (8 ≤ x.pkt.typ → ∃ t, exec (.packetHop (.out i q)) s = .next t ∧
          t.net.flights = s.net.flights.eraseIdx n ∧ t.rd u Reg.rtrDiscard = min (s.rd u Reg.rtrDiscard + 1) 0xFFFFFFFF ∧
          OnlyNet s t))) ∧
    (∀ (f : FieldIx) (n : Nat) (x : Flight),
      s.net.flights.zipIdx.find? (fun e => decide (e.1.place = .strip f) && !s.atGoal e.1) = some (x, n) →
      dRank x.pkt.dest ≠ s.rank → x.pkt.egress % 64 = f → s.net.egressHold.contains (dRank x.pkt.dest) = false →
      s.rdi (.opt f) Reg.optPstatState (x.pkt.egress / 64) = 3 ∨ s.rdi (.opt f) Reg.optPstatState (x.pkt.egress / 64) = 4 →
      ∃ t, exec (.packetHop (.strip f)) s = .next t ∧ Moved s t n x.pkt (.port (4 * f + x.pkt.egress / 64)) ∧ OnlyNet s t) ∧
    (∀ (n i q0 q : Nat) (dn : Bool) (x : Flight), Alone s i q n → s.net.flights[n]? = some x → x.place = .router i q0 → x.pkt.vc < 2 →
      x.pkt.ordered = false → s.atGoal x = false → s.net.update < 3 → s.rd (.tile (i / 16) (i % 16)) Reg.rtrCfgEscWait ≤ x.waited →
      s.isHead i n = true → s.escapeStep i x.pkt false = .go q dn → s.credit i q x.pkt 3 = true →
      ∃ t p, exec (.escapeEntry n) s = .next t ∧ Moved s t n p (beyond i q) ∧ p.vc = 3 ∧ p.down = dn ∧ p.dest = x.pkt.dest ∧
        p.src = x.pkt.src ∧ p.tag = x.pkt.tag ∧ p.payload = x.pkt.payload ∧ p.hchkOk = true ∧
        t.rd (.tile (i / 16) (i % 16)) Reg.rtrEscEnter = (s.rd (.tile (i / 16) (i % 16)) Reg.rtrEscEnter + 1) % 2 ^ 48 ∧
        OnlyNet s t) ∧
    (∀ (i : Fin 221184) (q : Fin 6) (dt : Nat),
      let u : UnitId := .tile (i / 16) (i % 16)
      (s.heldAt i q = none → exec (.holdSlotSend i q dt) s = .next s) ∧
      (∀ h, s.heldAt i q = some h → h.pkt.vc = 2 → q.val < 4 → s.lakeAsleep i = false →
        (∀ y ∈ s.net.flights, s.wants i q y = false) →
        (∀ e ∈ s.heads i, e.2.pkt.typ = 6 → e.2.pkt.vc = 2 → (s.mcastBranches i e.2.pkt).contains q = false) →
        ∃ t, exec (.holdSlotSend i q dt) s = .next t ∧ OnlyNet s t ∧
          t.rdi u Reg.rtrMcHold q = (s.rdi u Reg.rtrMcHold q + dt) % 2 ^ 48 ∧
          (s.credit i q h.pkt 2 = false → t.net = s.net) ∧
          (s.credit i q h.pkt 2 = true → s.liveGraph.link i q = true → t.heldAt i q = none ∧
            t.net.flights = s.net.flights ++ [(⟨h.pkt, .router (neighbour i q) (opposite q), 0, 0⟩ : Flight)])))

/-- R253: an update of the tables begins when the working graph differs from the one in force, freezes escape admission and takes the
graph of that moment, drains the escape channel, and puts the new tables in force under the next epoch; its last step leaves the rest
of the machine alone. -/
def Sys2Proof.Claims.TableUpdateRule : Prop :=
  ∀ (s : State) (late : Bool),
    let reaches (n : Nat) : Prop := ∃ t, exec (.tableUpdate late) s = .next t ∧ t = { s with net := { s.net with update := n } }
    (s.net.update = 0 → s.nextGraph ≠ s.tableGraph → reaches 1) ∧
    (s.net.update = 0 → s.nextGraph = s.tableGraph → reaches 0) ∧
    (s.net.update = 1 → reaches 2) ∧
    (s.net.update = 2 → ∃ t, exec (.tableUpdate late) s = .next t ∧ t.updateGraph = s.nextGraph ∧ t.escapeShut = true ∧
      t.tableGraph = s.tableGraph ∧ t.net.flights = s.net.flights ∧ t = { s with net := t.net }) ∧
    (s.net.update = 3 → (∀ x ∈ s.net.flights, ∀ i q, x.place = .router i q → x.pkt.vc = 3 → q = 4) → reaches 4) ∧
    (s.net.update = 3 → late = false → (∃ x ∈ s.net.flights, ∃ i q, x.place = .router i q ∧ x.pkt.vc = 3 ∧ q ≠ 4) → reaches 3) ∧
    (s.net.update = 4 → ∃ t, exec (.tableUpdate late) s = .next t ∧ t.tableGraph = s.updateGraph ∧ t.net.epoch = s.net.epoch + 1 ∧
      t.net.flights = s.net.flights ∧ t = { s with net := t.net }) ∧
    (5 ≤ s.net.update → s.nextGraph = s.tableGraph → reaches 0) ∧ (5 ≤ s.net.update → s.nextGraph ≠ s.tableGraph → reaches 1)

/-- R235–R254: hops, the escape channel, failed links and the updates of the routing tables. -/
def Obligations.NetworkHopsAndTables : Prop :=
  Claims.LinkReplayRule ∧ Claims.TableUpdateRule ∧ Claims.HopsRule

/-- R255–R259: a tile's interface sends an MCAST with one answer due from each target pond, or refuses an empty group ADDR_INVALID; at the
group root, where it has room, it moves to channel 2; a target tile with room takes the entry, as a token where TOK says so. -/
def Obligations.MulticastDelivers : Prop :=
  ∀ (s : State),
    (∀ (g : PondIx) (t : Fin 16) (dest : BitVec 48) (data : Entry), s.rank < 64 →
      let d := dest.toNat + 0xF * 2 ^ 48 + s.rank * 2 ^ 52
      let mask := dest.toNat.testBit 47
      let ponds := targetPonds (s.mcastTargets d)
      s.roomAt (16 * g + t) 4 (if mask = true then 2 else 0) 6 = true → (addrKind 6 d = 0 → mask = true ∨ s.groupSites (d % 256) ≠ [] → ∃ r p, exec (.mcast (.issue g t dest data)) s = .next r ∧
        Launched r p (.router (16 * g + t) 4) ∧ p.typ = 6 ∧ p.dest = d ∧ p.src = srcTile s.rank g t 0 % 2 ^ 28 ∧ p.payload = data ∧
        (mask = true → p.vc = 2) ∧ OnlyNet s r ∧
        ∃ o, r.net.outst = s.net.outst ++ [o] ∧ o.due = ponds.length ∧ o.tag % 1024 = p.tag ∧ o.src = srcTile s.rank g t 0) ∧
      (mask = false → s.groupSites (d % 256) = [] → ∃ r, exec (.mcast (.issue g t dest data)) s = .next r ∧ r.mem = s.mem ∧
        ∃ e ∈ r.err.queue, e.kind = 0x0A ∧ e.tile = t ∧ e.detail = d % 2 ^ 58 + 2 ^ 58)) ∧
    (∀ (n i q0 : Nat) (x : Flight), s.net.flights[n]? = some x → x.place = .router i q0 → x.pkt.typ = 6 → s.atGoal x = true →
      s.isHead i n = true → s.lakeAsleep i = false → x.pkt.malformed = false →
      (x.pkt.vc ≠ 2 → s.roomAt i q0 2 6 = true → ∃ t y, exec (.mcast (.serve n)) s = .next t ∧ OnlyNet s t ∧
        t.net.flights = s.net.flights.set n y ∧ y.place = x.place ∧ y.pkt.vc = 2 ∧ y.pkt.dest = x.pkt.dest ∧
        y.pkt.payload = x.pkt.payload) ∧
      (∀ qn, x.pkt.vc = 2 → s.mcastBranches i x.pkt = [4] → x.done = 0 →
        (∀ e ∈ s.mcastTargets x.pkt.dest, (s.mcastPath x.pkt e).isSome = true) → s.heldAt i 4 = none →
        s.answerRoom (16 * (i / 16) + 5) false = true → NoBatch s (i / 16) (i % 16) → s.resetting (i / 16) (i % 16) = false →
        s.absent (queueDest s.rank (i / 16) (i % 16) 0 false) = false → tileType (i % 16) ≠ .a →
        s.granted x.pkt.src (i / 16) 2 = true →
        (s.mcastTargets x.pkt.dest).filter (fun e => decide (e.1 = i / 16) && decide (e.2.1 = i % 16)) = [(i / 16, i % 16, qn)] →
        Room (inQ s (i / 16) (i % 16) qn) 1 → ∃ t, exec (.mcast (.serve n)) s = .next t ∧
        (inQ t (i / 16) (i % 16) qn).hw = (inQ s (i / 16) (i % 16) qn).hw ++
          [⟨(x.pkt.dest / 2 ^ 43).testBit 0, x.pkt.payload⟩] ∧ t.mem = s.mem))

/-! Collectives. -/

/-- R260, R261: two REDUCEs of one tag and destination that take the same output combine; a REDUCE at its queue fills an empty
collection slot, a conflicting one sets SLOT_ERR; a full slot writes its elements into the queue. -/
def Obligations.ReduceCombines : Prop :=
  ∀ (s : State),
    (∀ (i q r : Nat) (x y : Flight) (dt : Nat), s.net.flights = [y, x] → x.place = .router i q → y.place = .router i r →
      x.pkt.typ = 5 → y.pkt.typ = 5 → s.atGoal x = false → x.pkt.malformed = false → y.pkt.matches x.pkt = true →
      s.hopOf i r y.pkt = s.hopOf i q x.pkt → 0 < s.rd (.tile (i / 16) (i % 16)) Reg.rtrCfgCombWin → y.waited ≤ x.waited + s.rd (.tile (i / 16) (i % 16)) Reg.rtrCfgCombWin →
      ∃ t z, exec (.reduce (.flight 1 dt)) s = .next t ∧ OnlyNet s t ∧ t.net.flights = [z] ∧ z.place = y.place ∧
        z.pkt.tag = y.pkt.tag ∧ z.pkt.dest = y.pkt.dest ∧ z.pkt.bits 40 12 = y.pkt.bits 40 12 ∧
        z.pkt.bits 28 12 = (y.pkt.bits 28 12 + x.pkt.bits 28 12) % 4096 ∧
        z.pkt.payload = BitVec.ofNat 256 (combine32 x.pkt.rfmt x.pkt.rop x.pkt.num y.pkt.payload.toNat x.pkt.payload.toNat) ∧
        t.rd (.tile (i / 16) (i % 16)) Reg.rtrCombine = (s.rd (.tile (i / 16) (i % 16)) Reg.rtrCombine + 1) % 2 ^ 48) ∧
    (∀ (n dt g i : Nat) (p : Packet), s.atTile n = some (g, i, p) → p.typ = 5 → p.malformed = false → s.resetting g i = false →
      s.absent p.dest = false →
      let k := slotKey (16 * g + i) (p.tag % 16)
      (s.net.rslots.find? (fun e => decide (e.1 = k)) = none →
        (p.cnt < p.expect → ∃ t, exec (.reduce (.flight n dt)) s = .next t ∧ t.net.flights = s.net.flights.eraseIdx n ∧
          t.net.rslots.get k RSlot.empty = ⟨p.tag, p.dest, p.rop, p.rfmt, p.num, p.cnt, p.expect, p.payload⟩ ∧
          t.queues = s.queues ∧ OnlyNet s t) ∧
        (p.cnt = p.expect → NoBatch s g i → Room (inQ s g i (dQueue p.dest)) 1 → i < 16 →
          ∃ t, exec (.reduce (.flight n dt)) s = .next t ∧ (inQ t g i (dQueue p.dest)).hw = (inQ s g i (dQueue p.dest)).hw ++
            [⟨false, p.payload⟩] ∧ t.net.rslots.find? (fun e => decide (e.1 = k)) = none ∧ t.mem = s.mem)) ∧
      (∀ e, s.net.rslots.find? (fun e => decide (e.1 = k)) = some e → e.2.tag ≠ p.tag → ∃ t, exec (.reduce (.flight n dt)) s = .next t ∧
        t.rd (.tile g i) Reg.rtrStatusSlotErr = 1 ∧ Raised t g 2 i ∧ t.net.rslots = s.net.rslots ∧ t.mem = s.mem ∧
        ∃ r ∈ t.err.queue, r.kind = 0x11 ∧ r.tile = i ∧ r.detail = p.tag + 2 ^ 10)) ∧
    (∀ (i : Fin 221184) (n : Fin 16) (x : RSlot), s.net.rslots.find? (fun e => decide (e.1 = slotKey i n)) = some (slotKey i n, x) →
      (x.cnt ≠ x.expect → ∃ t, exec (.reduce (.slot i n)) s = .next t ∧ t = s) ∧
      (x.cnt = x.expect → NoBatch s (i / 16) (i % 16) → Room (inQ s (i / 16) (i % 16) (dQueue x.dest)) 1 →
        ∃ t, exec (.reduce (.slot i n)) s = .next t ∧
        (inQ t (i / 16) (i % 16) (dQueue x.dest)).hw = (inQ s (i / 16) (i % 16) (dQueue x.dest)).hw ++ [⟨false, x.data⟩] ∧
        t.net.rslots.find? (fun e => decide (e.1 = slotKey i n)) = none ∧ t.mem = s.mem))

/-- R300–R308: a contributing queue sends its entry as a REDUCE to the shard's context and counts it, or faults beyond the collective's
range; the context combines contributions to a chunk; a start marker releases the owner's downward phase; a context in memory mode
reads the next chunk of its pass; a context that times out drops its buffers and raises POISON at its pacing pond. -/
def Obligations.CollectivesProgress : Prop :=
  ∀ (s : State),
    (∀ (g : PondIx) (i : Fin 16) (q : Fin 8) (e : QEnt) (r : CollRec),
      let u : UnitId := .tile g i
      let c := s.rdi u Reg.rtrQcollCtx q
      let chunk := s.rdi u Reg.rtrQcollStart q + s.rdi u Reg.rtrQcposSent q
      let shard := chunk / r.chunks
      s.clocked g = true → s.rdi u Reg.rtrQcollEn q = 1 → s.headOf g i true q = some e → e.tok = false → s.collRec c = some r →
      s.rdi u Reg.rtrQcollMarker q = 0 → s.portRoom (srcTile s.rank g i 0) (if r.mem = true then 4 else 5) false = true →
      (chunk < r.shards * r.chunks → r.mem = false → NoBatch s g i → ∃ t, exec (.contributingQueueEntry g i q) s = .next t ∧
        Launched t (mkReduce r.num 0 (shard / 48 % 2 * 512 + chunk % r.chunks) r.contrib 1 r.op r.fmt
          (mkAddr s.rank 0xC (shard % 48 * 2 ^ 37 + 64 + r.ctx)) 0 e.data.toNat) (.router (16 * (g : Nat) + (i : Nat)) 4) ∧
        (outQ t g i q).hw = (outQ s g i q).hw.drop 1 ∧
        t.rdi u Reg.rtrQcposSent q = (s.rdi u Reg.rtrQcposSent q + 1) % 2 ^ 48 ∧ t.mem = s.mem) ∧
      (r.shards * r.chunks ≤ chunk → ∃ t, exec (.contributingQueueEntry g i q) s = .next t ∧ Raised t g 2 i ∧
        (t.rdi u Reg.rtrQcollRangeErr q).testBit 0 = true ∧ (outQ t g i q).hw = (outQ s g i q).hw.drop 1 ∧ t.net = s.net ∧
        t.mem = s.mem ∧ ∃ x ∈ t.err.queue, x.kind = 0x14 ∧ x.tile = i ∧ x.sub = 16 + q)) ∧
    (∀ (n dt f : Nat) (p : Packet) (r : CollRec) (b : CBuf),
      let c := p.dest % 128 - 64
      let k := p.tag % 512
      s.atTile n = none → s.atStrip n = some (f, p) → (∃ x, s.net.flights[n]? = some x ∧ x.pkt = p) → p.typ = 5 → p.malformed = false →
      64 ≤ p.dest % 128 → p.dest % 128 < 80 → s.collRec c = some r → s.cbuf f c (p.tag / 512) = some b → p.tag < 1024 →
      p.rop = r.op → p.rfmt = r.fmt → p.num = r.num →
      (r.mem = false → r.kind ≠ 2 → p.role = 0 → k < r.chunks → (b.o.get k (0, 0)).1 + p.cnt < r.contrib →
        ∃ t, exec (.reduce (.flight n dt)) s = .next t ∧ t.mem = s.mem ∧ t.net.flights = s.net.flights.eraseIdx n ∧
          t.cbuf f c (p.tag / 512) = some { b with o := b.o.set k (0, 0) ((b.o.get k (0, 0)).1 + p.cnt,
            if (b.o.get k (0, 0)).1 = 0 then p.payload.toNat
            else combine32 r.fmt r.op r.num (b.o.get k (0, 0)).2 p.payload.toNat) }) ∧
      (p.role = 3 → p.cnt = 1 → r.kind = 2 ∨ r.kind = 3 → s.owns b.shard = true → b.started = false →
        ∃ t, exec (.startMarker n dt) s = .next t ∧ t.mem = s.mem ∧ ∃ b', t.cbuf f c (p.tag / 512) = some b' ∧
          b'.started = true ∧ b'.o = b.o ∧ b'.outst = b.outst + (if r.mem then 0 else r.chunks))) ∧
    (∀ (f : FieldIx) (c : Fin 16) (p : Fin 2) (r : CollRec) (b : CBuf) (x : CPass) (rest : List CPass),
      s.collRec c = some r → s.cbuf f c p = some b → r.mem = true → b.outst = 0 → b.passes = x :: rest → x.dst ≠ [] → b.pos < r.chunks →
      ∃ t, exec (.memoryModeCombine f c p) s = .next t ∧ t.mem = s.mem ∧
        t.cbuf f c p = some { b with
          pos := b.pos + 1
          outst := 1 } ∧
        ∃ o ∈ t.net.outst, o.dest = x.src + 32 * b.pos ∧ o.typ = 0 ∧ o.purpose = .collRead p b.pos) ∧
    (∀ (f : FieldIx) (c : Fin 16) (r : CollRec),
      let u : UnitId := .opt f
      s.rdi u Reg.optCstatState c ≠ 2 → s.coll f c ≠ Coll.idle → s.collRec c = some r →
      ∃ t, exec (.collTimeout f c) s = .next t ∧ t.rdi u Reg.optCstatState c = 2 ∧ t.rdi u Reg.optCstatErr c = 1 ∧
        t.coll f c = Coll.idle ∧ t.mem = s.mem ∧ t.net = s.net ∧ (∀ g, s.pacePond r = some g → Raised t g 2 5) ∧
        ∃ e ∈ t.err.queue, e.kind = 0x14 ∧ e.field = f ∧ e.sub = 64 + c)

/-! The optical fabric. -/

/-- The packets that wait at port p, oldest first. -/
def Sys2Proof.Claims.waitingAt (s : State) (p : Nat) : List Packet :=
  (s.net.flights.filter (fun x => decide (x.place = .port p))).map (fun x => x.pkt)

/-- Port p stands in state st. -/
def Sys2Proof.Claims.PortIs (s : State) (p st : Nat) : Prop := s.prd p Reg.optPstatState = st

/-- Nothing differs but registers, the network, the ports, the link-state map published and the hub's records. -/
def Sys2Proof.Claims.OnlyPorts (s t : State) : Prop :=
  t = { s with
    regs := t.regs
    net := t.net
    ports := t.ports
    ring := t.ring
    hub := t.hub
    hostMem := t.hostMem
    err := t.err }

/-- R267, R268: a port that is up and owes nothing sends up to 13 of its oldest packets under the next SEQ and keeps them for replay,
or an idle frame; a NAK that is owed and a frame to be resent go first. A frame that fails FEC or CRC is counted and discarded, and a
NAK is owed; a data frame in sequence delivers its packets to the strip, one out of sequence does not; every good frame drops what its
ACK acknowledges. A NAK has all the rest resent, and brings the port down when the frame at the head has failed 16 times. -/
def Obligations.FramesCarryAndReplay : Prop :=
  ∀ (s : State) (p : PortIx), s.portUp p = true →
    let u := portUnit p
    let k := (p : Nat) % 4
    let x := s.port p
    let sends (t : State) : Prop := t.rdi u Reg.optTxFrames k = (s.rdi u Reg.optTxFrames k + 1) % 2 ^ 48
    let onPort (t : State) : Prop := t = { s with
      regs := t.regs
      ports := t.ports }
    (x.nak = false → x.again = 0 →
      (waitingAt s p ≠ [] → x.replay.length < 2048 → ∃ t, exec (.dataFrame p .sent) s = .next t ∧ OnlyPorts s t ∧ sends t ∧
        (t.port p).tx = (x.tx + 1) % 2 ^ 16 ∧ (t.port p).rx = x.rx ∧
        (t.port p).replay = x.replay ++ [(x.tx, (waitingAt s p).take 13)] ∧ waitingAt t p = (waitingAt s p).drop 13 ∧
        (t.port p).last = frameOf x.tx x.rx 0 ((waitingAt s p).take 13)) ∧
      (waitingAt s p = [] ∨ 2048 ≤ x.replay.length → ∃ t, exec (.dataFrame p .sent) s = .next t ∧ onPort t ∧ sends t ∧
        t.port p = { x with last := frameOf x.tx x.rx 1 [] })) ∧
    (x.nak = true → ∃ t, exec (.dataFrame p .sent) s = .next t ∧ onPort t ∧ sends t ∧ t.port p = { x with
      nak := false
      last := frameOf x.tx x.rx 2 [] }) ∧
    (∀ e, x.nak = false → x.again ≠ 0 → x.replay[x.replay.length - x.again]? = some e →
      ∃ t, exec (.dataFrame p .sent) s = .next t ∧ onPort t ∧ sends t ∧
        t.port p = { x with
          again := x.again - 1
          last := frameOf e.1 x.rx 0 e.2 } ∧
        t.rdi u Reg.optReplay k = (s.rdi u Reg.optReplay k + 1) % 2 ^ 48) ∧
    (∀ (f : Frame) (n : Nat),
      (f.good = false → ∃ t, exec (.dataFrame p (.received f n)) s = .next t ∧ onPort t ∧ t.port p = { x with nak := true } ∧
        t.rdi u Reg.optFrameErr k = min (s.rdi u Reg.optFrameErr k + 1) 0xFFFFFFFF) ∧
      (f.good = true → f.kind = 0 → f.seq = x.rx → (∀ q ∈ f.pkts, dRank q.dest = s.rank ∧ q.down = false) →
        ∃ t, exec (.dataFrame p (.received f n)) s = .next t ∧ OnlyPorts s t ∧ (t.port p).rx = (x.rx + 1) % 2 ^ 16 ∧
        (t.port p).replay = (x.acked f.ack).replay ∧
        t.net.flights = s.net.flights ++ f.pkts.map (fun q => (⟨q, .strip ((p : Nat) / 4), 0, 0⟩ : Flight)) ∧
        t.rdi u Reg.optRxFrames k = (s.rdi u Reg.optRxFrames k + 1) % 2 ^ 48) ∧
      (f.good = true → (f.kind = 0 ∧ f.seq ≠ x.rx) ∨ f.kind = 1 → ∃ t, exec (.dataFrame p (.received f n)) s = .next t ∧ onPort t ∧
        t.port p = x.acked f.ack)) ∧
    (∀ (seq : BitVec 16) (i : Instr),
      let y := x.acked seq.toNat
      let head := decide ((x.replay.head?.map (fun e => e.1)) = some seq.toNat)
      i = .nak p seq ∨ (∃ f n, i = .dataFrame p (.received f n) ∧ f.good = true ∧ f.kind = 2 ∧ f.ack = seq.toNat) →
      ∃ t, exec i s = .next t ∧ OnlyPorts s t ∧ (t.port p).replay = y.replay ∧ (t.port p).again = y.replay.length ∧
        t.rdi u Reg.optRxFrames k = (s.rdi u Reg.optRxFrames k + 1) % 2 ^ 48 ∧
        (y.replay = [] → (t.port p).bad = 0 ∧ t.portUp p = true) ∧
        (y.replay ≠ [] → head = true → (t.port p).bad = x.bad + 1) ∧ (y.replay ≠ [] → head = false → (t.port p).bad = 1) ∧
        (y.replay ≠ [] → head = true → 15 ≤ x.bad → PortIs t p 5 ∧ t.prd p Reg.optPstatLanes = 0))

/-- R270–R272, R281: training goes from supply light to locked lanes to the peer's identity; a peer of the wrong rank, size, ports or
deal index is MISCABLED and recorded; a silent one brings the port down; the good lanes, none of a wavelength flagged low, give the
width and the port is up, in its deal. A down port tries again, and RETRAIN trains at once; a spare stands by instead. -/
def Sys2Proof.Claims.TrainingRule : Prop :=
  ∀ (s : State) (p : PortIx),
    let u := portUnit p
    let k := (p : Nat) % 4
    (s.mayTrain p = true →
      (∀ low : BitVec 16, PortIs s p 0 → s.spareNo p = none → ∃ t, exec (.portTraining p (.light low)) s = .next t ∧ PortIs t p 1 ∧
        t.prd p Reg.optPeerValid = 0 ∧ t = { s with regs := t.regs } ∧
        (∀ n, n < 4 → t.rd (.opt ((p : Nat) / 16 * 4 + n)) Reg.optLaserPresent = 1 ∧
          t.rd (.opt ((p : Nat) / 16 * 4 + n)) Reg.optLaserLow = low.toNat) ∧
        OtherRegs s t ([(u, Reg.optPstatState, k), (u, Reg.optPeerValid, k)] ++ (List.range 4).flatMap (fun n =>
          [(.opt ((p : Nat) / 16 * 4 + n), Reg.optLaserPresent, 0), (.opt ((p : Nat) / 16 * 4 + n), Reg.optLaserLow, 0)]))) ∧
      (PortIs s p 1 → s.rd u Reg.optLaserPresent = 1 → ∃ t, exec (.portTraining p .locked) s = .next t ∧ PortIs t p 2 ∧
        OnlyRegs s t [(u, Reg.optPstatState, k)]) ∧
      (PortIs s p 2 → ∃ t, exec (.portTraining p .silent) s = .next t ∧ PortIs t p 5 ∧ OnlyPorts s t) ∧
      (∀ x : Ident, PortIs s p 2 →
        let right := x.size = s.ranks ∧ x.fab = decide (s.rd u Reg.optSysFab192 = 1) ∧ s.cabled p = some (x.rank, x.deal)
        (right → x.rank < 64 → x.deal < 256 → ∃ t, exec (.portTraining p (.identity x)) s = .next t ∧ PortIs t p 2 ∧
          t.prd p Reg.optPeerPeerRank = x.rank ∧ t.prd p Reg.optPeerPeerDeal = x.deal ∧ t.prd p Reg.optPeerValid = 1 ∧
          t = { s with regs := t.regs }) ∧
        (¬ right → ∃ t, exec (.portTraining p (.identity x)) s = .next t ∧ PortIs t p 6 ∧ OnlyPorts s t ∧
          ∃ e ∈ t.err.queue, e.kind = 0x12 ∧ e.field = (p : Nat) / 4 ∧ e.sub = 32 + k)) ∧
      (∀ ok : BitVec 16, PortIs s p 2 → s.prd p Reg.optPeerValid = 1 → (∀ q ∈ [61, 125, 189], s.prd q Reg.optPstatSubst ≠ 1) →
        let lanes := ok.toNat - (ok.toNat &&& s.rd u Reg.optLaserLow)
        let w := widthOf (bitCount 16 lanes)
        (w ≠ 0 → ∃ t, exec (.portTraining p (.lanes ok)) s = .next t ∧ OnlyPorts s t ∧ PortIs t p (if w = 16 then 3 else 4) ∧
          t.prd p Reg.optPstatLanes = w ∧ t.prd p Reg.optPstatLaneOk = lanes ∧ t.prd p Reg.optPeerDeal = s.dealOf p % 256 ∧
          (t.port p).was = true) ∧
        (w = 0 → ∃ t, exec (.portTraining p (.lanes ok)) s = .next t ∧ PortIs t p 5))) ∧
    (PortIs s p 5 → s.mayTrain p = true → (s.port p).was = false ∨ s.prd p Reg.optPstatFails < 3 →
      s.rd u Reg.optLaserPresent = 1 →
      (s.spareNo p = none → ∃ t, exec (.trainingRetry p) s = .next t ∧ PortIs t p 1 ∧ t.prd p Reg.optPeerValid = 0 ∧
        OnlyRegs s t [(u, Reg.optPstatState, k), (u, Reg.optPeerValid, k)]) ∧
      (s.spareNo p ≠ none → ∃ t, exec (.trainingRetry p) s = .next t ∧ PortIs t p 7 ∧ OnlyRegs s t [(u, Reg.optPstatState, k)])) ∧
    (s.portThere p = true → s.prd p Reg.optPctrlEn = 1 → s.prd p Reg.optPctrlHoldDown = 0 → 1 < s.ranks →
      ∃ t, exec (.retrain p) s = .next t ∧ PortIs t p (if s.spareNo p = none then 1 else 7) ∧ t.prd p Reg.optPstatLanes = 0 ∧
        OnlyPorts s t)

/-- R273, R478: lanes that fail narrow a port to the next width, recorded, or bring it down; an unseated supply connector brings every
lit port down. -/
def Sys2Proof.Claims.LanesRule : Prop :=
  ∀ (s : State),
    (∀ (p : PortIx) (lost : BitVec 16), s.portUp p = true → s.prd p Reg.optPstatLaneOk < 2 ^ 16 → s.prd p Reg.optPstatLanes ≤ 16 →
      let ok := s.prd p Reg.optPstatLaneOk - (s.prd p Reg.optPstatLaneOk &&& lost.toNat)
      let w := min (widthOf (bitCount 16 ok)) (s.prd p Reg.optPstatLanes)
      ∃ t, exec (.laneDrop p lost) s = .next t ∧ OnlyPorts s t ∧ t.prd p Reg.optPstatLaneOk = ok ∧
        (w = 0 → PortIs t p 5) ∧
        (w ≠ 0 → w < s.prd p Reg.optPstatLanes → PortIs t p 4 ∧ t.prd p Reg.optPstatLanes = w ∧
          ∃ e ∈ t.err.queue, e.kind = 0x13 ∧ e.field = (p : Nat) / 4 ∧ e.sub = 32 + (p : Nat) % 4 ∧ e.detail = w) ∧
        (w ≠ 0 → w = s.prd p Reg.optPstatLanes → t = { s with regs := t.regs } ∧ t.prd p Reg.optPstatLanes = w)) ∧
    (s.rd .hub Reg.svcPwrStatAuxOk = 1 →
      (∃ t, exec (.laserPermitN true) s = .next t ∧ t.rd .hub Reg.svcModStatSupplySeated = 1 ∧ t.laserPermitLow = true ∧
        OnlyRegs s t [(.hub, Reg.svcModStatSupplySeated, 0)]) ∧
      (∃ t, exec (.laserPermitN false) s = .next t ∧ t.rd .hub Reg.svcModStatSupplySeated = 0 ∧ t.laserPermitLow = false ∧
        OnlyPorts s t ∧ ∀ p : PortIx, s.rd (.opt (4 * ((p : Nat) / 16))) Reg.optLaserPresent = 1 →
          1 ≤ s.prd p Reg.optPstatState → s.prd p Reg.optPstatState ≤ 4 → PortIs t p 5))

/-- R270–R276: training, width and light of an optical port. -/
def Obligations.PortTrainsToWidth : Prop :=
  Claims.TrainingRule ∧ Claims.LanesRule

/-- R276: a wavelength whose supply power is low is flagged in OPT_LASER.LOW of the four engines of its supply, and every port of that
supply that is up drops the lane; when a supply has lost all light its 16 ports go down, LOST is set, and an event names the
supply. -/
def Obligations.LaserLightLowOrLost : Prop :=
  ∀ (s : State),
    (∀ (i : Fin 12) (j : Fin 16), ∃ t, exec (.laserLow i j) s = .next t ∧ OnlyPorts s t ∧
      (∀ n, n < 4 → (t.rd (.opt (4 * (i : Nat) + n)) Reg.optLaserLow).testBit j = true) ∧
      (∀ n, n < 16 → s.portUp (16 * (i : Nat) + n) = true →
        (t.prd (16 * (i : Nat) + n) Reg.optPstatLaneOk).testBit j = false)) ∧
    (∀ (i : Fin 12), ∃ t, exec (.laserLost i) s = .next t ∧ OnlyPorts s t ∧
      (∀ n, n < 4 → t.rd (.opt (4 * (i : Nat) + n)) Reg.optLaserPresent = 0 ∧
        t.rd (.opt (4 * (i : Nat) + n)) Reg.optLaserLost = 1) ∧
      (∀ n, n < 16 →
        let st := s.prd (16 * (i : Nat) + n) Reg.optPstatState
        PortIs t (16 * (i : Nat) + n) (if 1 ≤ st ∧ st ≤ 4 then 5 else st)) ∧
      (HubQuiet s → Posted s t 0x14 0 i 0 0xFF))

/-- R283, R284, R292, R427: a failed port leaves the egress table, its packets leave it, and traffic to its peer flows again; a dark
spare of a failed port's peer that finds the spare it must takes the port's deal index at the width its lanes give; one that finds
another module is MISCABLED, in silence it goes down. HOLD_DOWN and a clear EN darken a port; an enable while the port is being shut
down is latched, and acts otherwise. -/
def Obligations.PortsLeaveAndAreSpared : Prop :=
  ∀ (s : State) (p : PortIx),
    let b := s.prd p Reg.optPeerPeerRank
    let u := portUnit p
    let k := (p : Nat) % 4
    (s.portLeaving p = true → s.portUp p = false → ∃ t, exec (.portDown p) s = .next t ∧ (p : Nat) ∉ t.net.egress.get b [] ∧
      (t.port p).replay = [] ∧ waitingAt t p = [] ∧ b ∉ t.net.egressHold ∧ t.portLeaving p = false ∧ t.mem = s.mem ∧
      ((s.rd u Reg.optPspeSpe).testBit k = true →
        ((s.port p).wantEn = true → t.prd p Reg.optPctrlEn = 1) ∧ ((s.port p).wantFree = true → t.prd p Reg.optPctrlHoldDown = 0))) ∧
    (∀ (q : PortIx) (c far : Nat), s.cabled p = some (c, far) → c < 64 → s.portIsDown p = true → s.standIn (s.dealOf p) = none →
      s.spareTo c = some q → s.rd (portUnit q) Reg.optLaserPresent = 1 →
      (∀ (x : Ident) (ok : BitVec 16),
        let lanes := ok.toNat - (ok.toNat &&& s.rd (portUnit q) Reg.optLaserLow)
        let w := widthOf (bitCount 16 lanes)
        (s.rightPeer q x = true → w ≠ 0 → ∃ t, exec (.spareLight p ⟨some x, ok⟩) s = .next t ∧ OnlyPorts s t ∧
          PortIs t q (if w = 16 then 3 else 4) ∧ t.prd q Reg.optPstatSubst = 1 ∧ t.prd q Reg.optPeerDeal = s.dealOf p % 256 ∧
          t.prd q Reg.optPeerPeerRank = c) ∧
        (s.rightPeer q x = true → w = 0 → ∃ t, exec (.spareLight p ⟨some x, ok⟩) s = .next t ∧ PortIs t q 5) ∧
        (s.rightPeer q x = false → ∃ t, exec (.spareLight p ⟨some x, ok⟩) s = .next t ∧ PortIs t q 6 ∧
          ∃ e ∈ t.err.queue, e.kind = 0x12 ∧ e.field = (q : Nat) / 4 ∧ e.sub = 32 + (q : Nat) % 4)) ∧
      ∀ ok, ∃ t, exec (.spareLight p ⟨none, ok⟩) s = .next t ∧ PortIs t q 5 ∧ OnlyPorts s t) ∧
    (s.portThere p = true →
      (∃ t, exec (.holdDown p true) s = .next t ∧ OnlyPorts s t ∧ t.prd p Reg.optPctrlHoldDown = 1 ∧ PortIs t p 0) ∧
      (∃ t, exec (.portEn p false) s = .next t ∧ OnlyPorts s t ∧ t.prd p Reg.optPctrlEn = 0 ∧ PortIs t p 0) ∧
      (s.portLeaving p = true → PortIs s p 0 →
        (∃ t, exec (.holdDown p false) s = .next t ∧ (t.rd u Reg.optPspeSpe).testBit k = true ∧ (t.port p).wantFree = true ∧
          OnlyPorts s t ∧ OtherRegs s t [(u, Reg.optPspeSpe, 0)]) ∧
        (∃ t, exec (.portEn p true) s = .next t ∧ (t.rd u Reg.optPspeSpe).testBit k = true ∧ (t.port p).wantEn = true ∧
          OnlyPorts s t ∧ OtherRegs s t [(u, Reg.optPspeSpe, 0)])) ∧
      (s.portLeaving p = false ∨ ¬ PortIs s p 0 →
        (∃ t, exec (.holdDown p false) s = .next t ∧ t = { s with regs := t.regs } ∧ t.prd p Reg.optPctrlHoldDown = 0) ∧
        (∃ t, exec (.portEn p true) s = .next t ∧ t = { s with regs := t.regs } ∧ t.prd p Reg.optPctrlEn = 1)))

/-! Trust. -/

/-- Nothing differs but the hub's registers, host memory, the hub and the trust state. -/
def Sys2Proof.Claims.OnlyTrust (s t : State) : Prop :=
  t = { s with
    regs := t.regs
    hub := t.hub
    hostMem := t.hostMem
    trust := t.trust }

/-- R442–R452: FW_STAGE writes a valid bundle to the slot that is not running and clears TRIAL; FW_ACTIVATE tries the staged slot, or with
COMMIT makes the running slot ACTIVE and raises C to its SVN; ENROLL_KEY fuses the hash of a configuration key once; LICENCE_INSTALL
stores a valid licence in the first free slot and adds its features. Each refusal leaves the trust state as it was. -/
def Obligations.TrustCommandsGuarded : Prop :=
  ∀ (s : State) (slot : Fin 1024) (c : HCmd), HubQuiet s → s.hub.busMaster = true →
    let x := s.trust
    let done (i : Instr) (code : Nat) (y : TrustSt) : Prop := ∃ t, exec i s = .next t ∧ t.trust = y ∧ OnlyTrust s t ∧
      Completes s t c (if code = 0 then 0 else 7) code 0 0
    let n := 1 - x.running
    let bs := s.hostMem.bytes (c.f 16 8) (min (c.f 24 8) (2 ^ 26 + 1))
    (Accepted s slot 0x10 c → ∀ flash,
      (bundleCode bs x.c ≠ 0 → done (.fwStage slot flash) (bundleCode bs x.c) x) ∧
      (bundleCode bs x.c = 0 → ∃ y : TrustSt, done (.fwStage slot flash) (if flash then 0 else 10) y ∧ y.trial = 0 ∧ y.c = x.c ∧
        y.configKey = x.configKey ∧ y.slot n = (if flash then bundleSlot bs else FwSlot.empty) ∧
        y.slot (1 - n) = x.slot (1 - n))) ∧
    (Accepted s slot 0x11 c → c.f 16 1 = 0 →
      ((x.slot n).valid = false → done (.fwActivate slot) 9 x) ∧
      ((x.slot n).valid = true → done (.fwActivate slot) 0 { x with trial := n + 1 })) ∧
    (Accepted s slot 0x11 c → c.f 16 1 = 1 →
      ((x.slot x.running).valid = false → done (.fwActivateCommit slot) 9 x) ∧
      ((x.slot x.running).valid = true → done (.fwActivateCommit slot) 0 { x with
        active := x.running
        c := max x.c (x.slot x.running).svn })) ∧
    (let key := s.hostMem.bytes (c.f 16 8) 64
     Accepted s slot 0x13 c →
      (x.configKey ≠ 0 → done (.enrollKey slot) 8 x) ∧
      (x.configKey = 0 → c.f 24 4 ≠ 0x454E524C → done (.enrollKey slot) 1 x) ∧
      (x.configKey = 0 → c.f 24 4 = 0x454E524C → ecOn (beNat (key.take 32)) (beNat (key.drop 32)) = true →
        done (.enrollKey slot) 0 { x with configKey := leNat (sha256 key) })) ∧
    (let b := s.hostMem.bytes (c.f 16 8) 160
     Accepted s slot 0x12 c → ∀ flash,
      (licenceCode b ≠ 0 → done (.licenceInstall slot flash) (licenceCode b) x) ∧
      (licenceCode b = 0 → ∀ e, e ∈ x.lics → byteNat e.2 28 4 = byteNat b 28 4 → done (.licenceInstall slot flash) 5 x) ∧
      (∀ k : Fin 16, licenceCode b = 0 → (∀ e ∈ x.lics, byteNat e.2 28 4 ≠ byteNat b 28 4) → x.lics.get k [] = [] →
        (∀ j, j < (k : Nat) → x.lics.get j [] ≠ []) → ∃ t, exec (.licenceInstall slot true) s = .next t ∧
        t.trust = { x with lics := x.lics.set k [] b } ∧ Completes s t c 0 0 0 0 ∧
        t.rdi .hub Reg.svcLicSlotUsed k = 1 ∧ t.rdi .hub Reg.svcLicSlotFeatures k = byteNat b 24 4 % 32 ∧
        t.rd .hub Reg.svcLicEffFeatures = (s.rd .hub Reg.svcLicEffFeatures ||| byteNat b 24 4 % 32) % 32 ∧ OnlyTrust s t))

/-- R443, R445: the boot ROM tries the TRIAL slot when there is one and its bundle is valid and not rolled back, else ACTIVE, else the
other slot, and with none of them enters recovery; a trial that does not reach state 1 is forgotten, and the hub then boots ACTIVE and
shows the failure. -/
def Obligations.BootRomChoosesSlot : Prop :=
  ∀ (s : State) (a b : Bool), s.rd .hub Reg.svcPwrStatState = 0 → s.rd .hub Reg.svcPwrStatAuxOk = 1 → s.pwr.modReset = false →
    let x := s.trust
    let boots (n : Nat) : Prop := (x.slot n).valid = true ∧ x.c ≤ (x.slot n).svn ∧ (if n = 0 then a else b) = true
    let runs (i : Instr) (n : Nat) : Prop := ∃ t, exec i s = .next t ∧ t.trust.running = n ∧ t.trust.recovery = false ∧
      t.trust.trial = 0 ∧ t.trust.session = false ∧ t.rd .hub Reg.svcPwrStatState = 1 ∧ t.trust.c = x.c ∧
      t.trust.configKey = x.configKey ∧ t.mem = s.mem
    let recovers (i : Instr) : Prop := ∃ t, exec i s = .next t ∧ t.trust.recovery = true ∧ t.rd .hub Reg.svcPwrStatState = 0 ∧
      t.rd .hub Reg.svcFwStatRecovery = 1 ∧ t.trust.c = x.c ∧ t.mem = s.mem
    let n := 1 - x.active
    (x.failed = 0 → x.trial = 0 →
      (boots x.active → runs (.hubBoot a b) x.active) ∧ (¬ boots x.active → boots n → runs (.hubBoot a b) n) ∧
      (¬ boots x.active → ¬ boots n → recovers (.hubBoot a b))) ∧
    (x.failed = 0 → x.trial ≠ 0 →
      (boots (x.trial - 1) → runs (.hubBoot a b) (x.trial - 1)) ∧
      (¬ boots (x.trial - 1) → ∃ t, exec (.hubBoot a b) s = .next t ∧ t.trust = { x with
        trial := 0
        failed := x.trial } ∧ t.rd .hub Reg.svcPwrStatState = 0)) ∧
    (x.failed ≠ 0 →
      (boots x.active → runs (.fwTrialFailed a b) x.active ∧ ∃ t, exec (.fwTrialFailed a b) s = .next t ∧ t.trust.failed = 0 ∧
        t.rd .hub Reg.svcFwStatTrialFailed = 1) ∧
      (¬ boots x.active → ¬ boots n → recovers (.fwTrialFailed a b)))

/-- R439–R441, R451: the SPDM messages advance the connection in order, answer with digests, certificates, signatures and measurements, and
open and end a session; an IDE key goes to a set not in use, K_SET_GO switches to a set that holds a key, and an integrity failure
ends the stream and erases its keys. A message out of order changes nothing and is answered with an error. -/
def Obligations.AttestationInOrder : Prop :=
  ∀ (s : State),
    let x := s.trust
    let answers (i : Instr) (st : Nat) (bs : List Byte) (y : TrustSt) : Prop := ∃ t, exec i s = .next t ∧ t.trust = y ∧
      t.hub.reply = ⟨st, bs⟩ ∧ t.mem = s.mem
    let done (i : Instr) (bs : List Byte) (y : TrustSt) : Prop := answers i 0 bs y
    let refused (i : Instr) : Prop := ∃ t, exec i s = .next t ∧ t = { s with hub := { s.hub with reply := ⟨1, []⟩ } }
    (s.rd .hub Reg.svcPwrStatState ≠ 0 →
      done .getVersion [0x12] { x with
        conn := 1
        exchange := false
        session := false } ∧
      (x.conn = 1 → done .getCapabilities [] { x with conn := 2 }) ∧
      (x.conn ≠ 1 → refused .getCapabilities) ∧
      (x.conn = 2 → done (.negotiateAlgorithms true) [] { x with conn := 3 }) ∧ refused (.negotiateAlgorithms false) ∧
      (∀ (o n : BitVec 16) (nonce : Entry),
        let chain := sha256 Config.certChain
        let m := chain ++ leBytes 32 nonce.toNat
        (x.conn = 3 → done .getDigests chain x ∧ done (.getCertificate 0 o n) ((Config.certChain.drop o.toNat).take n.toNat) x ∧
          done (.challenge 0 nonce) (m ++ Config.deviceSign m) x ∧
          done (.keyExchange 0 nonce) (Config.deviceSign m) { x with
            exchange := true
            session := false } ∧
          (∀ i : BitVec 8, 1 ≤ i.toNat → i.toNat ≤ 7 →
            let m := s.measurement i.toNat ++ leBytes 32 nonce.toNat
            done (.getMeasurements i nonce) (m ++ Config.deviceSign m) x)) ∧
        (x.conn ≠ 3 → refused .getDigests ∧ refused (.keyExchange 0 nonce) ∧ refused (.challenge 0 nonce) ∧
          ∀ i, refused (.getMeasurements i nonce))) ∧
      (x.exchange = true → done (.finish true) [] { x with
        exchange := false
        session := true }) ∧ (x.exchange = false → refused (.finish true)) ∧
      (x.session = true → done .endSession [] { x with session := false }) ∧ (x.session = false → refused .endSession)) ∧
    (∀ (set dir : Fin 2) (sub : Fin 3),
      let k := 8 * (dir : Nat) + (sub : Nat)
      (∀ key : Entry, x.session = true → x.sets.get k 0 ≠ (set : Nat) + 1 → done (.keyProg set dir sub key) [] { x with
        keys := x.keys.set (16 * (set : Nat) + k) 0 (key.toNat + 1) }) ∧
      (∀ key : Entry, x.session = false ∨ x.sets.get k 0 = (set : Nat) + 1 → refused (.keyProg set dir sub key)) ∧
      (x.session = true → x.keys.get (16 * (set : Nat) + k) 0 ≠ 0 → ∃ t, exec (.kSetGo set dir sub) s = .next t ∧
        t.trust = { x with sets := x.sets.set k 0 ((set : Nat) + 1) } ∧ t.hub.reply = ⟨0, []⟩ ∧
        ((∀ d b, d < 2 → b < 3 → 8 * d + b = k ∨ x.sets.get (8 * d + b) 0 ≠ 0) → t.rd .hub Reg.hubStatusIdeActive = 1)) ∧
      (x.session = false ∨ x.keys.get (16 * (set : Nat) + k) 0 = 0 → refused (.kSetGo set dir sub))) ∧
    (s.rd .hub Reg.hubStatusIdeActive = 1 → ∃ t, exec .ideIntegrityFail s = .next t ∧ t.trust = { x with
      keys := []
      sets := []
      aer := true } ∧ t.rd .hub Reg.hubStatusIdeActive = 0 ∧ t.mem = s.mem)

/-! Telemetry and the service interfaces. -/

/-- R457: a 48-bit counter counts modulo 2^48 and reads below 2^48; its wrap bit is set when its value passes 0xFFFF_FFFF_FFFF, however far
one increment carries it, and stays set; a second wrap leaves the wrap register as it was. -/
def Obligations.CounterWrapsOnce : Prop :=
  ∀ (s : State) (u : UnitId) (f w : Fld) (i wi bit n : Nat), f.width = 48 → bit < w.width → f.key u i ≠ w.key u wi →
    s.rdi u f i < 2 ^ 48 →
    let t := s.counti u f i w wi bit n
    t.rdi u f i = (s.rdi u f i + n) % 2 ^ 48 ∧ t.view u f i < 2 ^ 48 ∧
      ((t.rdi u w wi).testBit bit = true ↔ (s.rdi u w wi).testBit bit = true ∨ 2 ^ 48 ≤ s.rdi u f i + n) ∧
      ((s.rdi u w wi).testBit bit = true → t.rdi u w wi = s.rdi u w wi) ∧ OnlyRegs s t [(u, f, i), (u, w, wi)]

/-- R456, R462, R464, R465, R466: a sweep falls due at each multiple of PERIOD_S, samples the counters and leaves those of absent units; a
sample adds the difference mod 2^48 to the total, clears the wrap bit it read as 1, and marks the total inexact when counts may
have gone unseen; a write of a wrap register is discarded and counted; SEL selects a counter; the low half of a counter latches
its high half for its requester. -/
def Obligations.TelemetrySweepsCounters : Prop :=
  ∀ (s : State), s.hubOn = true →
    (let p := s.rd .hub Reg.svcTelemCtrlPeriodS * 10 ^ 9
     s.rd .hub Reg.svcTelemCtrlEn = 1 → s.rd .hub Reg.svcTelemLastTime / p < s.now / p → ∃ t, exec .telemSweep s = .next t ∧
      t = { s with
        regs := t.regs
        telem := t.telem } ∧
      t.rd .hub Reg.svcTelemLastTime = s.now ∧ t.rd .hub Reg.svcTelemStatSweeps = min (s.rd .hub Reg.svcTelemStatSweeps + 1) 0xFFFFFFFF ∧
      ∀ (u : UnitId) (c : Ctr) (i : Nat), u.ok = true → s.regAbsent u c.fld.off = true → c ∈ unitCtrs u → i < c.fld.number →
        t.telem.get (c.fld.key u i) Telem.init = s.telem.get (c.fld.key u i) Telem.init) ∧
    (∀ (u : UnitId) (c : Ctr) (w : Fld) (i : Nat), c.wrap = some w → s.rdi u c.fld i ≠ 0 → s.rdi u c.fld i < 2 ^ 48 →
      let k := c.fld.key u i
      let x := s.telem.get k Telem.init
      let b := s.rdi u c.fld i
      let wi := if 1 < w.count then i else 0
      let bit := c.bit + c.step * i
      let wrapped := (s.rdi u w wi).testBit bit
      x.raw < 2 ^ 48 → x.total < 2 ^ 64 →
      let y := (s.sampleCtr u c i).telem.get k Telem.init
      y.raw = b ∧ y.last = s.now ∧ y.sat = x.sat ∧ ((s.sampleCtr u c i).rdi u w wi).testBit bit = false ∧
        y.total = (x.total + (if x.raw ≤ b then b - x.raw else 2 ^ 48 - (x.raw - b))) % 2 ^ 64 ∧
        (y.inexact = true ↔ x.inexact = true ∨ (wrapped = true ∧ (x.raw ≤ b ∨ c.wrapNs ≤ s.now - x.last)))) ∧
    (∀ (u : UnitId) (o v : Nat), u.ok = true → s.rd .hub Reg.svcTelemCtrlEn = 1 → isWrapReg u o = true → o % 8 = 0 →
      ∃ t, exec (.wrapWriteIgnored u o v) s = .next t ∧ OnlyRegs s t [(.hub, Reg.svcTelemWrIgnCount, 0)] ∧
        t.rd .hub Reg.svcTelemWrIgnCount = min (s.rd .hub Reg.svcTelemWrIgnCount + 1) 0xFFFFFFFF) ∧
    (∀ addr : DWord, ∃ t, exec (.svcTelemSel addr) s = .next t ∧ OnlyRegs s t [(.hub, Reg.svcTelemSelAddr, 0)] ∧
      t.rd .hub Reg.svcTelemSelAddr = addr.toNat % 2 ^ 58) ∧
    (∀ (u : UnitId) (o : Nat) (who : Fin 4), u.ok = true → (ctrOf u o).isSome = true → o % 8 = 0 → s.regAbsent u o = false →
      let k := 4 * u.idx + who
      (∃ t, exec (.counterReadLow u o false who) s = .next t ∧ t.hub.reply = ⟨0, leBytes 4 (s.csrRead u o % 2 ^ 32)⟩ ∧
        t.latches.get k (0, 0) = (o + 1, s.csrRead u o / 2 ^ 32) ∧ t.regs = s.regs ∧
        ∀ j, j ≠ k → t.latches.get j (0, 0) = s.latches.get j (0, 0)) ∧
      (∀ h, s.latches.get k (0, 0) = (o + 1, h) → ∃ t, exec (.counterReadLow u o true who) s = .next t ∧
        t.hub.reply = ⟨0, leBytes 4 h⟩ ∧ t.latches.get k (0, 0) = (0, 0) ∧ t.regs = s.regs))

/-- R480: in power states 1–6, out of reset, the hub answers each SMBus read and releases SMB_ALERT_N when it answers the Alert Response
Address; otherwise it answers nothing. No read changes anything else. -/
def Sys2Proof.Claims.SmbusRule : Prop :=
  ∀ (s : State),
    let answers (i : Instr) (n v : Nat) : Prop := ∃ t, exec i s = .next t ∧ t = { s with hub := { s.hub with reply := ⟨0, leBytes n v⟩ } }
    let h (f : Fld) : Nat := s.rd .hub f
    let reads : List Instr := [.smbPwrStat, .smbMainV, .smbMainW, .smbAuxV, .smbWaferTemp, .smbCoolIn, .smbCoolOut, .smbCapW, .smbFlags,
      .smbSerial, .smbLastOff]
    (s.hubOn = true → 1 ≤ h Reg.svcPwrStatState → h Reg.svcPwrStatState ≤ 6 →
      answers .smbPwrStat 2 (h Reg.svcPwrStatState + 8 * (h Reg.svcPwrStatMainOk % 2) + 16 * (h Reg.svcPwrStatAuxOk % 2)
        + 32 * (h Reg.svcPwrStatAlert % 2) + 64 * (h Reg.svcPwrStatAlertExt % 2) + 128 * (h Reg.svcPwrStatAlertInt % 2)
        + 256 * (h Reg.svcPwrStatModReady % 2) + 4096 * (h Reg.svcPwrStatLastOff % 16)) ∧
      answers .smbMainV 2 (h Reg.svcPwrMeasMainV) ∧ answers .smbMainW 2 (h Reg.svcPwrMeasMainW) ∧
      answers .smbAuxV 2 (h Reg.svcPwrMeasAuxV) ∧ answers .smbCoolIn 2 (h Reg.svcModStatCoolIn) ∧
      answers .smbCoolOut 2 (h Reg.svcModStatCoolOut) ∧ answers .smbCapW 2 (h Reg.svcCapCtrlCapW) ∧
      answers .smbLastOff 1 (h Reg.svcPwrStatLastOff) ∧ answers .smbSerial 16 (leNat (Config.moduleSerial.take 16)) ∧
      (∃ m, answers .smbWaferTemp 2 m ∧ (∀ w : LakeIx, s.rd (.lake w) Reg.lakeThermTemp ≤ m) ∧
        ∃ w : LakeIx, s.rd (.lake w) Reg.lakeThermTemp = m) ∧
      (∃ v, answers .smbFlags 1 v ∧ v < 64 ∧ (v.testBit 0 = true ↔ h Reg.svcPwrStatAlert = 1) ∧
        (v.testBit 1 = true ↔ h Reg.svcModStatCoolWarn = 1) ∧ (v.testBit 2 = true ↔ h Reg.svcPwrStatState = 6) ∧
        (v.testBit 3 = true ↔ h Reg.svcPwrStatModReady = 1) ∧
        (v.testBit 4 = true ↔ h Reg.svcPwrStatAuxOk = 1 ∧ h Reg.svcModStatSupplySeated = 1) ∧
        (v.testBit 5 = true ↔ h Reg.hubStatusLinkWidth ≠ 0)) ∧
      (s.smbAlertLow = true → ∃ t, exec .alertResponse s = .next t ∧ t.smbAlertLow = false ∧
        t.hub.reply = ⟨0, leBytes 1 (2 * (0x58 + h Reg.svcModStatSmbAddr))⟩ ∧ t = { s with
          pwr := t.pwr
          hub := t.hub })) ∧
    (s.hubOn = false ∨ h Reg.svcPwrStatState = 0 ∨ h Reg.svcPwrStatState = 7 → ∀ i ∈ .alertResponse :: reads, ∃ t,
      exec i s = .next t ∧ t = { s with hub := { s.hub with reply := ⟨1, []⟩ } })

/-- R481: while AUX is qualified BYPASS shifts one zero, IDCODE reads 0x1A48_03B5, SAMPLE/PRELOAD loads the boundary cells and EXTEST
drives them while MOD_RESET_N is asserted; at any other time both act as BYPASS. -/
def Sys2Proof.Claims.JtagRule : Prop :=
  ∀ (s : State), s.rd .hub Reg.svcPwrStatAuxOk = 1 →
    let answers (i : Instr) (bs : List Byte) (n : Nat) : Prop := ∃ t, exec i s = .next t ∧ t.hub.reply = ⟨0, bs⟩ ∧
      t = { s with
        hub := t.hub
        pwr := { s.pwr with jtag := n } }
    answers .jtagBypass [0] 0 ∧ answers .jtagIdcode [0xB5, 0x03, 0x48, 0x1A] 1 ∧
    (∀ cells,
      (s.pwr.modReset = false → answers (.samplePreload cells) [0] 2 ∧ answers .extest [0] 3 ∧ s.scanDrive = none) ∧
      (s.pwr.modReset = true →
        (∃ t, exec (.samplePreload cells) s = .next t ∧ t.pwr.boundary = cells ∧ t.scanDrive = none ∧ t.regs = s.regs ∧
          t.mem = s.mem) ∧
        (∃ t, exec .extest s = .next t ∧ t.scanDrive = some s.pwr.boundary ∧ t.regs = s.regs ∧ t.mem = s.mem)))

/-- R480, R481: the SMBus and JTAG ports. -/
def Obligations.ServicePortsAnswer : Prop :=
  Claims.SmbusRule ∧ Claims.JtagRule

/-! The whole block. -/

/-- The step takes the command at the front of the queue and runs it with the queue's rest. -/
def Obligations.StepRunsFrontCommand : Prop :=
  ∀ (c : Instr) (s : State) (rest : List Instr), s.pending = c :: rest → step s = exec c { s with pending := rest }

/-- MODEL'S CHOICE (log entry 11): with no command waiting, the second service cycle of the beat begins and nothing else changes. -/
def Sys2Proof.Claims.StepIdlesRule : Prop :=
  ∀ (s : State), s.pending = [] → ∃ t, step s = .next t ∧ t.clk.half = true ∧ t = { s with clk := { s.clk with half := true } }

/-- R21 and log entry 1: every command completes in every state, with the queue as it was and the factory map, which is in fuses,
unchanged. -/
def Sys2Proof.Claims.CommandsCompleteRule : Prop :=
  ∀ (c : Instr) (s : State), ∃ t, exec c s = .next t ∧ t.pending = s.pending ∧ t.factory = s.factory

/-- Every step answers a next state. -/
def Obligations.EveryStepAnswers : Prop :=
  Claims.CommandsCompleteRule ∧ Claims.StepIdlesRule

/-- After reset the module is in Standby with AUX qualified (R360), no command waits, no memory byte is non-zero, no packet is on
its way, no partition is present, and the queues, springs and logs are empty. -/
def Sys2Proof.Claims.ResetStateRule : Prop :=
  let s := State.reset
  s.pending = [] ∧ s.rd .hub Reg.svcPwrStatState = 1 ∧ s.rd .hub Reg.svcPwrStatAuxOk = 1 ∧ s.rd .hub Reg.svcPwrStatMainOk = 0 ∧
    s.rd .hub Reg.svcCapCtrlCapW = 22000 ∧ s.rd .hub Reg.svcTelemCtrlPeriodS = 3600 ∧ s.rd .hub Reg.hubCtrlClogEn = 0 ∧
    s.net.flights = [] ∧ s.err.elog = [] ∧ s.err.mlog = [] ∧ s.trust.session = false ∧ s.trust.c = 0 ∧
    (∀ k, s.mem.byte k = 0) ∧ (∀ n, (s.parts.get n Sys2Proof.Machine.Part.none).state = 0) ∧ (∀ g t q, inQ s g t q = TQueue.empty) ∧
    (∀ g n, s.spring g n = Spring.zero) ∧ (∀ u f i, s.rdi u f i = f.rstIn u i)

/-- Commands that chapter 18 lets reach the fuses, the flash, the SPDM connection and the IDE keys, and the resets of the hub. -/
def Sys2Proof.Claims.reachesTrust : Instr → Bool
  | .fwStage .. | .fwActivate .. | .fwActivateCommit .. | .licenceInstall .. | .enrollKey .. | .hostInterfaceReset .. | .perst
  | .auxQualified .. | .auxLoss .. | .modResetN .. | .modResetRelease | .hubBoot .. | .fwTrialFailed .. | .getVersion | .getCapabilities
  | .negotiateAlgorithms .. | .getDigests | .getCertificate .. | .challenge .. | .getMeasurements .. | .keyExchange .. | .finish ..
  | .endSession | .keyProg .. | .kSetGo .. | .ideIntegrityFail => true
  | _ => false

/-- Commands of the module outside the wafer. -/
def Sys2Proof.Claims.outsideWafer : Instr → Bool
  | .smbPwrStat | .smbMainV | .smbMainW | .smbAuxV | .smbWaferTemp | .smbCoolIn | .smbCoolOut | .smbCapW | .smbFlags | .smbSerial
  | .smbLastOff | .alertResponse | .jtagBypass | .jtagIdcode | .samplePreload .. | .extest | .coolantSample .. | .svcTelemSel ..
  | .counterReadLow .. | .ptmExchange .. => true
  | _ => false

/-- R437–R451, R480, R481: a command outside chapter 18 and the resets of the hub leaves the trust state; a command of the module
outside the wafer leaves the wafer's memory, queues, cores, network, partitions and defect overlay. -/
def Obligations.CommandsStayInBounds : Prop :=
  ∀ (c : Instr) (s t : State), exec c s = .next t →
    (reachesTrust c = false → t.trust = s.trust) ∧
    (outsideWafer c = true → t.mem = s.mem ∧ t.queues = s.queues ∧ t.springs = s.springs ∧ t.mcores = s.mcores ∧
      t.vcores = s.vcores ∧ t.scores = s.scores ∧ t.gens = s.gens ∧ t.net = s.net ∧ t.parts = s.parts ∧ t.overlay = s.overlay ∧
      t.bad = s.bad ∧ t.ports = s.ports)

/-- R445, R446: no step lowers the anti-rollback counter, changes an enrolled configuration key, or changes the factory defect map. -/
def Obligations.FusesNeverFall : Prop :=
  ∀ (s t : State), step s = .next t →
    s.trust.c ≤ t.trust.c ∧ (s.trust.configKey ≠ 0 → t.trust.configKey = s.trust.configKey) ∧ t.factory = s.factory

/-- R439, R443, R451: a session and a key exchange stand on a negotiated connection; the boot selectors name slots; a key set in use holds
a key for its direction and sub-stream. -/
def Sys2Proof.Claims.TrustInv (x : TrustSt) : Prop :=
  (x.session = true → x.conn = 3) ∧ (x.exchange = true → x.conn = 3) ∧ x.active < 2 ∧ x.running < 2 ∧ x.trial ≤ 2 ∧ x.failed ≤ 2 ∧
    ∀ k set, x.sets.get k 0 = set + 1 → x.keys.get (16 * set + k) 0 ≠ 0

/-- R439, R443, R451: every step keeps the invariant of the trust state: a session and a key exchange stand on a negotiated connection,
the boot selectors name slots, and a key set in use holds a key for its direction and sub-stream. -/
def Obligations.TrustInvariantKept : Prop := ∀ (s t : State), TrustInv s.trust → step s = .next t → TrustInv t.trust

/-- The state after reset meets the invariant of the trust state. -/
def Sys2Proof.Claims.TrustInvResetRule : Prop := TrustInv State.reset.trust

/-- The state after reset, which meets the invariant of the trust state. -/
def Obligations.ResetMeetsInvariant : Prop :=
  Claims.ResetStateRule ∧ Claims.TrustInvResetRule

/-- R236, R239: every field of a packet reads back as it was formed, whatever its values, and its HCHK matches; a changed field reads
back, and the others are as they were. -/
def Obligations.PacketFieldsReadBack : Prop :=
  (∀ (typ : Fin 16) (ordered counted parity : Bool) (len tag src dest egress : Nat) (payload : BitVec 256), len < 32 → tag < 1024 →
    src < 2 ^ 28 → dest < 2 ^ 58 → egress < 256 →
    let p := mkPacket typ ordered counted parity len tag src dest egress payload
    p.typ = typ ∧ p.ordered = ordered ∧ p.counted = counted ∧ p.parity = parity ∧ p.len = len ∧ p.tag = tag ∧ p.src = src ∧
      p.dest = dest ∧ p.egress = egress ∧ p.down = false ∧ p.payload = payload ∧ p.hchkOk = true ∧
      p.vc = (if ordered then 3 else if 8 ≤ (typ : Nat) then 1 else if (typ : Nat) = 5 then 2 else 0)) ∧
  (∀ (p : Packet) (lo w v lo' w' : Nat), lo + w ≤ 120 → v < 2 ^ w → lo' + w' ≤ 120 → lo' + w' ≤ lo ∨ lo + w ≤ lo' →
    (p.put lo w v).bits lo w = v ∧ (p.put lo w v).bits lo' w' = p.bits lo' w' ∧ (p.put lo w v).payload = p.payload ∧
      (p.put lo w v).hchkOk = true)
end

