-- ==== Sys2Proof/Laws/Frames.lean ====
section
/-! SUPPORT. What a frame's sender forms, its receiver finds good (R267, R288). -/

namespace Sys2Proof.Machine

/-- The n low bytes of a number do not see what lies above them. -/
theorem leBytes_above (n b c : Nat) : leBytes n (b + c * 2 ^ (8 * n)) = leBytes n b := by
  induction n generalizing b c with
  | zero => rfl
  | succ n ih =>
    have h : b + c * 2 ^ (8 * (n + 1)) = b + 256 * (c * 2 ^ (8 * n)) := by
      rw [show 8 * (n + 1) = 8 * n + 8 by omega, Nat.pow_add]
      have : c * (2 ^ (8 * n) * 2 ^ 8) = 256 * (c * 2 ^ (8 * n)) := by
        rw [show (2 : Nat) ^ 8 = 256 from rfl, Nat.mul_comm (2 ^ (8 * n)) 256, Nat.mul_left_comm]
      omega
    rw [h]
    simp only [leBytes]
    rw [Nat.add_mul_div_left _ _ (by decide : 0 < 256), ih]
    congr 1
    apply BitVec.eq_of_toNat_eq
    simp [BitVec.toNat_ofNat]

/-- The CRC-32 has 32 bits. -/
theorem crc32_lt (bs : List Byte) : crc32 bs < 2 ^ 32 := by
  have key : ∀ (c : Nat) (b : Byte), c < 2 ^ 32 → crc32Step c b < 2 ^ 32 := by
    intro c b hc
    unfold crc32Step
    have hx : c ^^^ b.toNat < 2 ^ 32 := Nat.xor_lt_two_pow hc (Nat.lt_of_lt_of_le b.isLt (by decide))
    have step : ∀ (l : List Nat) (x : Nat), x < 2 ^ 32 →
        l.foldl (fun x _ => if x % 2 = 1 then (x / 2) ^^^ 0xEDB88320 else x / 2) x < 2 ^ 32 := by
      intro l
      induction l with
      | nil => intro x h; exact h
      | cons a l ih =>
        intro x h
        apply ih
        show (if x % 2 = 1 then (x / 2) ^^^ 0xEDB88320 else x / 2) < 2 ^ 32
        split
        · exact Nat.xor_lt_two_pow (by omega) (by decide)
        · omega
    exact step _ _ hx
  have all : ∀ (l : List Byte) (c : Nat), c < 2 ^ 32 → l.foldl crc32Step c < 2 ^ 32 := by
    intro l
    induction l with
    | nil => intro c h; exact h
    | cons b l ih => intro c h; exact ih _ (key c b h)
  exact Nat.xor_lt_two_pow (all bs _ (by decide)) (by decide)

/-- A number of n bytes under its own CRC-32 carries that CRC. -/
theorem crc_above (n w b : Nat) (hb : b < 2 ^ (8 * n)) (hw : 8 * n + 32 ≤ w) :
    let x := (BitVec.ofNat w (b + crc32 (leBytes n b) * 2 ^ (8 * n))).toNat
    leBytes n x = leBytes n b ∧ x / 2 ^ (8 * n) = crc32 (leBytes n b) ∧ x % 2 ^ (8 * n) = b := by
  have hc := crc32_lt (leBytes n b)
  have hlt : b + crc32 (leBytes n b) * 2 ^ (8 * n) < 2 ^ w := by
    have h1 : 2 ^ (8 * n + 32) ≤ 2 ^ w := Nat.pow_le_pow_right (by decide) hw
    have h2 : (crc32 (leBytes n b) + 1) * 2 ^ (8 * n) ≤ 2 ^ 32 * 2 ^ (8 * n) := Nat.mul_le_mul_right _ hc
    rw [Nat.pow_add, Nat.mul_comm] at h1
    rw [Nat.add_mul, Nat.one_mul] at h2
    omega
  simp only [BitVec.toNat_ofNat, Nat.mod_eq_of_lt hlt]
  refine ⟨leBytes_above n b _, ?_, ?_⟩
  · rw [Nat.add_mul_div_right _ _ (Nat.two_pow_pos _), Nat.div_eq_of_lt hb, Nat.zero_add]
  · rw [Nat.add_mul_mod_self_right, Nat.mod_eq_of_lt hb]

/-- A field of the k low bits of a number is read from those bits. -/
theorem field_low (x lo w k : Nat) (h : lo + w ≤ k) : x / 2 ^ lo % 2 ^ w = x % 2 ^ k / 2 ^ lo % 2 ^ w := by
  apply Nat.eq_of_testBit_eq
  intro i
  simp only [Nat.testBit_mod_two_pow, Nat.testBit_div_two_pow]
  by_cases hi : i < w
  · have : i + lo < k := by omega
    simp [hi, this]
  · simp [hi]

/-- A bit below bit k is a bit of the k low bits. -/
theorem testBit_low {x b k i : Nat} (h : x % 2 ^ k = b) (hi : i < k) : x.testBit i = b.testBit i := by
  rw [← h, Nat.testBit_mod_two_pow]
  simp [hi]

/-- R267: a frame that arrives as it was formed is good. -/
theorem frameOf_good (seq ack kind : Nat) (ps : List Packet) (hb : frameBody seq ack kind ps < 2 ^ (8 * 632)) :
    (⟨true, frameOf seq ack kind ps⟩ : Frame).good = true := by
  have h := crc_above 632 5140 (frameBody seq ack kind ps) hb (by decide)
  unfold Frame.good frameOf
  simp only [Bool.true_and, decide_eq_true_eq]
  rw [h.1, h.2.1, Nat.mod_eq_of_lt (crc32_lt _)]

/-- R267: the bits below a frame's CRC are its header and slots. -/
theorem frameOf_low (seq ack kind : Nat) (ps : List Packet) (hb : frameBody seq ack kind ps < 2 ^ (8 * 632)) :
    (frameOf seq ack kind ps).toNat % 2 ^ (8 * 632) = frameBody seq ack kind ps :=
  (crc_above 632 5140 (frameBody seq ack kind ps) hb (by decide)).2.2

/-- R267: SEQ, ACK and KIND of a frame that was formed. -/
theorem frameOf_fields (seq ack kind : Nat) (ps : List Packet) (hb : frameBody seq ack kind ps < 2 ^ (8 * 632)) :
    let f : Frame := ⟨true, frameOf seq ack kind ps⟩
    let b := frameBody seq ack kind ps
    f.seq = b % 2 ^ 16 ∧ f.ack = b / 2 ^ 16 % 2 ^ 16 ∧ f.kind = b / 2 ^ 32 % 2 ^ 4 := by
  have h := frameOf_low seq ack kind ps hb
  refine ⟨?_, ?_, ?_⟩
  · have := field_low (frameOf seq ack kind ps).toNat 0 16 (8 * 632) (by decide)
    rw [Nat.pow_zero, Nat.div_one, Nat.div_one, h] at this
    exact this
  · exact (field_low _ 16 16 (8 * 632) (by decide)).trans (by rw [h])
  · exact (field_low _ 32 4 (8 * 632) (by decide)).trans (by rw [h])

/-- Functions that agree on a list filter it alike. -/
theorem filterMap_same {α β : Type} {l : List α} {f g : α → Option β} (h : ∀ i ∈ l, f i = g i) : l.filterMap f = l.filterMap g := by
  induction l with
  | nil => rfl
  | cons a l ih =>
    rw [List.filterMap_cons, List.filterMap_cons, h a List.mem_cons_self, ih (fun i hi => h i (List.mem_cons_of_mem a hi))]

/-- R267: the packets of a frame that was formed. -/
theorem frameOf_pkts (seq ack kind : Nat) (ps : List Packet) (hb : frameBody seq ack kind ps < 2 ^ (8 * 632)) :
    (⟨true, frameOf seq ack kind ps⟩ : Frame).pkts = (List.range 13).filterMap (fun i =>
      if (frameBody seq ack kind ps).testBit (36 + i) then
        some ⟨BitVec.ofNat 128 (frameBody seq ack kind ps / 2 ^ (64 + 384 * i) % 2 ^ 128),
          BitVec.ofNat 256 (frameBody seq ack kind ps / 2 ^ (192 + 384 * i) % 2 ^ 256)⟩
      else none) := by
  have h := frameOf_low seq ack kind ps hb
  unfold Frame.pkts
  apply filterMap_same
  intro i hi
  have hi' : i < 13 := List.mem_range.mp hi
  have e (lo w : Nat) (hl : lo + w ≤ 8 * 632) : (frameOf seq ack kind ps).extractLsb' lo w
      = BitVec.ofNat w (frameBody seq ack kind ps / 2 ^ lo % 2 ^ w) := by
    apply BitVec.eq_of_toNat_eq
    rw [BitVec.extractLsb'_toNat, BitVec.toNat_ofNat, Nat.shiftRight_eq_div_pow, field_low _ lo w _ hl, h, Nat.mod_mod]
  have b : (frameOf seq ack kind ps).getLsbD (36 + i) = (frameBody seq ack kind ps).testBit (36 + i) :=
    testBit_low h (by omega)
  simp only [b]
  rw [e (64 + 384 * i) 128 (by omega), e (192 + 384 * i) 256 (by omega)]

/-- A field of w bits over one of k bits has k + w bits. -/
theorem top_lt (a m w k j : Nat) (hj : k + w = j) (ha : a < 2 ^ k) : a + m % 2 ^ w * 2 ^ k < 2 ^ j := by
  have h : m % 2 ^ w + 1 ≤ 2 ^ w := Nat.mod_lt _ (Nat.two_pow_pos _)
  have h' : (m % 2 ^ w + 1) * 2 ^ k ≤ 2 ^ w * 2 ^ k := Nat.mul_le_mul_right _ h
  rw [Nat.add_mul, Nat.one_mul] at h'
  rw [← hj, Nat.pow_add, Nat.mul_comm (2 ^ k)]
  omega

/-- R288: a ring frame that arrives as it was formed is good, and its TIME and DELAY are those it was formed with. -/
theorem ringFrameOf_good (time delay hops master topo msgs : Nat) (l : List RingMsg) :
    let f : RingFrame := ⟨ringFrameOf time delay hops master topo msgs, l⟩
    f.good = true ∧ f.time = time % 2 ^ 64 ∧ f.delay = delay % 2 ^ 32 := by
  have hb := top_lt (0x5A5AC3C35A5AC3C3 + (time % 2 ^ 64) * 2 ^ 64 + (delay % 2 ^ 32) * 2 ^ 128 + (hops % 2 ^ 8) * 2 ^ 160
    + (master % 2 ^ 8) * 2 ^ 168 + (topo % 2 ^ 16) * 2 ^ 176) msgs 9776 192 (8 * 1246) rfl (by omega)
  have h := crc_above 1246 10000 _ hb (by decide)
  have low (lo w : Nat) (hl : lo + w ≤ 192) := field_low (ringFrameOf time delay hops master topo msgs).toNat lo w (8 * 1246)
    (Nat.le_trans hl (by decide))
  have cut (lo w : Nat) (hl : lo + w ≤ 192) : (ringFrameOf time delay hops master topo msgs).toNat / 2 ^ lo % 2 ^ w
      = (0x5A5AC3C35A5AC3C3 + (time % 2 ^ 64) * 2 ^ 64 + (delay % 2 ^ 32) * 2 ^ 128 + (hops % 2 ^ 8) * 2 ^ 160
    + (master % 2 ^ 8) * 2 ^ 168 + (topo % 2 ^ 16) * 2 ^ 176) / 2 ^ lo % 2 ^ w := by
    rw [low lo w hl]
    unfold ringFrameOf
    rw [h.2.2, field_low _ lo w 192 hl, Nat.add_mul_mod_self_right, ← field_low _ lo w 192 hl]
  refine ⟨?_, ?_, ?_⟩
  · unfold RingFrame.good ringFrameOf
    simp only [decide_eq_true_eq]
    rw [show (9968 : Nat) = 8 * 1246 by decide, h.1]
    exact h.2.1.symm
  · exact (cut 64 64 (by decide)).trans (by omega)
  · exact (cut 128 32 (by decide)).trans (by omega)

end Sys2Proof.Machine
end

