-- ==== Sys2Proof/Laws/Tab.lean ====
section
/-! SUPPORT. Laws of sparse tables and of memory: reading after writing, and the canonical form. -/

namespace Sys2Proof.Machine

variable {α : Type}

/-! Reading after writing. -/

theorem Tab.get_del (t : Tab α) (k j : Nat) (d : α) : (Tab.del t k).get j d = if j = k then d else t.get j d := by
  induction t with
  | nil => simp [Tab.del, Tab.get]
  | cons e r ih =>
    obtain ⟨a, v⟩ := e
    by_cases h : a = k
    · subst h; simp only [Tab.del, if_true, ih]
      by_cases hj : j = a
      · simp [hj]
      · simp [Tab.get, hj, Ne.symm hj]
    · simp only [Tab.del, h, if_false, Tab.get, ih]
      by_cases ha : a = j
      · subst ha; simp [h]
      · simp [ha]

theorem Tab.get_ins (t : Tab α) (k j : Nat) (d v : α) (h : ∀ e ∈ t, e.1 ≠ k) :
    (Tab.ins t k v).get j d = if j = k then v else t.get j d := by
  induction t with
  | nil =>
    by_cases hj : j = k
    · simp [Tab.ins, Tab.get, hj]
    · simp [Tab.ins, Tab.get, hj, Ne.symm hj]
  | cons e r ih =>
    obtain ⟨a, w⟩ := e
    have ha : a ≠ k := h (a, w) (by simp)
    have ih := ih (fun e he => h e (by simp [he]))
    by_cases hk : k < a
    · by_cases hj : j = k
      · simp [Tab.ins, hk, Tab.get, hj]
      · simp [Tab.ins, hk, Tab.get, hj, Ne.symm hj]
    · simp only [Tab.ins, hk, if_false, Tab.get, ih]
      by_cases hj : a = j
      · subst hj; simp [ha]
      · simp [hj]

theorem Tab.not_mem_del (t : Tab α) (k : Nat) : ∀ e ∈ Tab.del t k, e.1 ≠ k := by
  induction t with
  | nil => simp [Tab.del]
  | cons e r ih =>
    obtain ⟨a, v⟩ := e
    by_cases h : a = k
    · simpa [Tab.del, h] using ih
    · simp only [Tab.del, h, if_false, List.mem_cons, forall_eq_or_imp]
      exact ⟨h, ih⟩

/-- Reading any key after writing one. -/
theorem Tab.get_set [DecidableEq α] (t : Tab α) (k j : Nat) (d v : α) : (Tab.set t k d v).get j d = if j = k then v else t.get j d := by
  unfold Tab.set
  split
  · rename_i h; subst h; rw [Tab.get_del]
  · rw [Tab.get_ins _ _ _ _ _ (Tab.not_mem_del t k), Tab.get_del]
    by_cases hj : j = k <;> simp [hj]

@[simp] theorem Tab.get_set_self [DecidableEq α] (t : Tab α) (k : Nat) (d v : α) : (Tab.set t k d v).get k d = v := by simp [Tab.get_set]

/-- A write at another key, whatever that key's default is. -/
theorem Tab.get_set_ne [DecidableEq α] (t : Tab α) (k j : Nat) (d d' v : α) (h : j ≠ k) : (Tab.set t k d v).get j d' = t.get j d' := by
  unfold Tab.set
  split
  · rw [Tab.get_del]; simp [h]
  · rw [Tab.get_ins _ _ _ _ _ (Tab.not_mem_del t k), Tab.get_del]; simp [h]

theorem Tab.get_clear (t : Tab α) (p : Nat → Bool) (j : Nat) (d : α) :
    (Tab.clear t p).get j d = if p j then d else t.get j d := by
  induction t with
  | nil => simp [Tab.clear, Tab.get]
  | cons e r ih =>
    obtain ⟨a, v⟩ := e
    unfold Tab.clear at ih ⊢
    by_cases hp : p a
    · simp only [List.filter, hp, Bool.not_true, ih, Tab.get]
      by_cases ha : a = j
      · subst ha; simp [hp]
      · simp [ha]
    · simp only [List.filter, hp, Bool.not_false, Tab.get, ih]
      by_cases ha : a = j
      · subst ha; simp [hp]
      · simp [ha]

/-! The canonical form. -/

theorem Tab.mem_del {t : Tab α} {k : Nat} {e : Nat × α} (h : e ∈ Tab.del t k) : e ∈ t := by
  induction t with
  | nil => simp [Tab.del] at h
  | cons x r ih =>
    obtain ⟨a, v⟩ := x
    by_cases ha : a = k
    · simp only [Tab.del, ha, if_true] at h; exact List.mem_cons_of_mem _ (ih h)
    · simp only [Tab.del, ha, if_false, List.mem_cons] at h
      rcases h with h | h
      · simp [h]
      · exact List.mem_cons_of_mem _ (ih h)

theorem Tab.mem_ins {t : Tab α} {k : Nat} {v : α} {e : Nat × α} (h : e ∈ Tab.ins t k v) : e = (k, v) ∨ e ∈ t := by
  induction t with
  | nil => simpa [Tab.ins] using h
  | cons x r ih =>
    obtain ⟨a, w⟩ := x
    by_cases hk : k < a
    · simpa [Tab.ins, hk] using h
    · simp only [Tab.ins, hk, if_false, List.mem_cons] at h
      rcases h with h | h
      · simp [h]
      · rcases ih h with h | h <;> simp [h]

theorem Tab.sorted_del {t : Tab α} (k : Nat) (h : Tab.sorted t = true) : Tab.sorted (Tab.del t k) = true := by
  induction t with
  | nil => simp [Tab.del, Tab.sorted]
  | cons x r ih =>
    obtain ⟨a, v⟩ := x
    simp only [Tab.sorted, Bool.and_eq_true, List.all_eq_true, decide_eq_true_eq] at h
    by_cases ha : a = k
    · simpa [Tab.del, ha] using ih h.2
    · simp only [Tab.del, ha, if_false, Tab.sorted, Bool.and_eq_true, List.all_eq_true, decide_eq_true_eq]
      exact ⟨fun e he => h.1 e (Tab.mem_del he), ih h.2⟩

theorem Tab.sorted_ins {t : Tab α} {k : Nat} (v : α) (h : Tab.sorted t = true) (hk : ∀ e ∈ t, e.1 ≠ k) :
    Tab.sorted (Tab.ins t k v) = true := by
  induction t with
  | nil => simp [Tab.ins, Tab.sorted]
  | cons x r ih =>
    obtain ⟨a, w⟩ := x
    have ha : a ≠ k := hk (a, w) (by simp)
    simp only [Tab.sorted, Bool.and_eq_true, List.all_eq_true, decide_eq_true_eq] at h
    by_cases hl : k < a
    · simp only [Tab.ins, hl, if_true, Tab.sorted, Bool.and_eq_true, List.all_eq_true, decide_eq_true_eq, List.mem_cons,
        forall_eq_or_imp]
      exact ⟨⟨trivial, fun e he => Nat.lt_trans hl (h.1 e he)⟩, h.1, h.2⟩
    · simp only [Tab.ins, hl, if_false, Tab.sorted, Bool.and_eq_true, List.all_eq_true, decide_eq_true_eq]
      refine ⟨fun e he => ?_, ih h.2 (fun e he => hk e (by simp [he]))⟩
      rcases Tab.mem_ins he with rfl | he
      · exact Nat.lt_of_le_of_ne (Nat.le_of_not_lt hl) ha
      · exact h.1 e he

/-- A write keeps the canonical form. -/
theorem Tab.wf_set [DecidableEq α] {t : Tab α} {d : Nat → α} (k : Nat) (v : α) (h : Tab.wf t d = true) :
    Tab.wf (Tab.set t k (d k) v) d = true := by
  simp only [Tab.wf, Bool.and_eq_true, List.all_eq_true, decide_eq_true_eq] at h ⊢
  unfold Tab.set
  split
  · exact ⟨Tab.sorted_del k h.1, fun e he => h.2 e (Tab.mem_del he)⟩
  · rename_i hv
    refine ⟨Tab.sorted_ins v (Tab.sorted_del k h.1) (Tab.not_mem_del t k), fun e he => ?_⟩
    rcases Tab.mem_ins he with rfl | he
    · exact hv
    · exact h.2 e (Tab.mem_del he)

theorem Tab.sorted_filter {t : Tab α} (p : Nat × α → Bool) (h : Tab.sorted t = true) : Tab.sorted (t.filter p) = true := by
  induction t with
  | nil => simp [Tab.sorted]
  | cons x r ih =>
    obtain ⟨a, v⟩ := x
    simp only [Tab.sorted, Bool.and_eq_true, List.all_eq_true, decide_eq_true_eq] at h
    rw [List.filter_cons]
    split
    · simp only [Tab.sorted, Bool.and_eq_true, List.all_eq_true, decide_eq_true_eq]
      exact ⟨fun e he => h.1 e (List.mem_filter.1 he).1, ih h.2⟩
    · exact ih h.2

/-- Dropping entries keeps the canonical form. -/
theorem Tab.wf_filter [DecidableEq α] {t : Tab α} {d : Nat → α} (p : Nat × α → Bool) (h : Tab.wf t d = true) :
    Tab.wf (t.filter p) d = true := by
  simp only [Tab.wf, Bool.and_eq_true, List.all_eq_true, decide_eq_true_eq] at h ⊢
  exact ⟨Tab.sorted_filter p h.1, fun e he => h.2 e (List.mem_filter.1 he).1⟩

theorem Tab.wf_clear [DecidableEq α] {t : Tab α} {d : Nat → α} (p : Nat → Bool) (h : Tab.wf t d = true) :
    Tab.wf (Tab.clear t p) d = true := Tab.wf_filter _ h

/-! Memory. -/

/-- Writing bytes keeps memory canonical. -/
theorem Memory.wf_putBytes {m : Tab Byte} (k : Nat) (bs : List Byte) (h : Memory.wf m = true) :
    Memory.wf (Tab.putBytes m k bs) = true := by
  induction bs generalizing m k with
  | nil => exact h
  | cons b r ih => exact ih (k + 1) (Tab.wf_set (d := fun _ => 0) k b h)

theorem Memory.wf_clear {m : Tab Byte} (p : Nat → Bool) (h : Memory.wf m = true) : Memory.wf (Tab.clear m p) = true :=
  Tab.wf_clear p h

/-- A byte outside the written range reads as before. -/
theorem Tab.byte_putBytes_out (m : Tab Byte) (k : Nat) (bs : List Byte) (j : Nat) (h : j < k ∨ k + bs.length ≤ j) :
    (Tab.putBytes m k bs).byte j = m.byte j := by
  induction bs generalizing m k with
  | nil => rfl
  | cons b r ih =>
    simp only [List.length_cons] at h
    rw [Tab.putBytes, ih _ _ (by omega)]
    exact Tab.get_set_ne _ _ _ _ _ _ (by omega)

/-- A byte of the written range reads as written. -/
theorem Tab.byte_putBytes_in (m : Tab Byte) (k : Nat) (bs : List Byte) (i : Nat) (h : i < bs.length) :
    (Tab.putBytes m k bs).byte (k + i) = bs[i] := by
  induction bs generalizing m k i with
  | nil => simp at h
  | cons b r ih =>
    rw [Tab.putBytes]
    cases i with
    | zero =>
      rw [Tab.byte_putBytes_out _ _ _ _ (by omega)]
      exact Tab.get_set_self _ _ _ _
    | succ i =>
      have := ih (Tab.set m k 0 b) (k + 1) i (by simpa using h)
      rw [show k + 1 + i = k + (i + 1) by omega] at this
      simpa using this

/-- Wafer memory stays canonical under the operations that change it. -/
theorem State.wf_putMem (s : State) (k : Nat) (bs : List Byte) (h : Memory.wf s.mem = true) :
    Memory.wf (s.putMem k bs).mem = true := Memory.wf_putBytes k bs h

theorem State.wf_zeroMem (s : State) (lo n : Nat) (h : Memory.wf s.mem = true) : Memory.wf (s.zeroMem lo n).mem = true :=
  Memory.wf_clear (fun k => decide (lo ≤ k) && decide (k < lo + n)) h

theorem State.wf_reset : Memory.wf State.reset.mem = true := rfl

end Sys2Proof.Machine
end

