-- ==== Sys2Proof/Laws/State.lean ====
section
/-! SUPPORT. Every field of the state under every named update: what an update does not write stays. -/

namespace Sys2Proof.Machine

/-! Register writes change registers only. -/

theorem State.setBiti_eq (s : State) (u : UnitId) (f : Fld) (i b : Nat) :
    s.setBiti u f i b = { s with regs := (s.setBiti u f i b).regs } := by
  unfold State.setBiti; split <;> rfl

theorem State.counti_eq (s : State) (u : UnitId) (f : Fld) (i : Nat) (w : Fld) (j b n : Nat) :
    s.counti u f i w j b n = { s with regs := (s.counti u f i w j b n).regs } := by
  unfold State.counti; dsimp only; split
  · rfl
  · rw [State.setBiti_eq]; rfl

theorem State.count_eq (s : State) (u : UnitId) (f w : Fld) (b n : Nat) :
    s.count u f w b n = { s with regs := (s.count u f w b n).regs } := State.counti_eq s u f 0 w 0 b n

/-! `wri` writes regs. -/

@[simp] theorem State.wri_mem (s : State) (u : UnitId) (f : Fld) (i v : Nat) : (s.wri u f i v).mem = s.mem := rfl
@[simp] theorem State.wri_bad (s : State) (u : UnitId) (f : Fld) (i v : Nat) : (s.wri u f i v).bad = s.bad := rfl
@[simp] theorem State.wri_hostMem (s : State) (u : UnitId) (f : Fld) (i v : Nat) : (s.wri u f i v).hostMem = s.hostMem := rfl
@[simp] theorem State.wri_queues (s : State) (u : UnitId) (f : Fld) (i v : Nat) : (s.wri u f i v).queues = s.queues := rfl
@[simp] theorem State.wri_steers (s : State) (u : UnitId) (f : Fld) (i v : Nat) : (s.wri u f i v).steers = s.steers := rfl
@[simp] theorem State.wri_springs (s : State) (u : UnitId) (f : Fld) (i v : Nat) : (s.wri u f i v).springs = s.springs := rfl
@[simp] theorem State.wri_waiters (s : State) (u : UnitId) (f : Fld) (i v : Nat) : (s.wri u f i v).waiters = s.waiters := rfl
@[simp] theorem State.wri_evals (s : State) (u : UnitId) (f : Fld) (i v : Nat) : (s.wri u f i v).evals = s.evals := rfl
@[simp] theorem State.wri_senders (s : State) (u : UnitId) (f : Fld) (i v : Nat) : (s.wri u f i v).senders = s.senders := rfl
@[simp] theorem State.wri_arrivals (s : State) (u : UnitId) (f : Fld) (i v : Nat) : (s.wri u f i v).arrivals = s.arrivals := rfl
@[simp] theorem State.wri_mcores (s : State) (u : UnitId) (f : Fld) (i v : Nat) : (s.wri u f i v).mcores = s.mcores := rfl
@[simp] theorem State.wri_vcores (s : State) (u : UnitId) (f : Fld) (i v : Nat) : (s.wri u f i v).vcores = s.vcores := rfl
@[simp] theorem State.wri_scores (s : State) (u : UnitId) (f : Fld) (i v : Nat) : (s.wri u f i v).scores = s.scores := rfl
@[simp] theorem State.wri_gens (s : State) (u : UnitId) (f : Fld) (i v : Nat) : (s.wri u f i v).gens = s.gens := rfl
@[simp] theorem State.wri_pmem (s : State) (u : UnitId) (f : Fld) (i v : Nat) : (s.wri u f i v).pmem = s.pmem := rfl
@[simp] theorem State.wri_opal (s : State) (u : UnitId) (f : Fld) (i v : Nat) : (s.wri u f i v).opal = s.opal := rfl
@[simp] theorem State.wri_latches (s : State) (u : UnitId) (f : Fld) (i v : Nat) : (s.wri u f i v).latches = s.latches := rfl
@[simp] theorem State.wri_saved (s : State) (u : UnitId) (f : Fld) (i v : Nat) : (s.wri u f i v).saved = s.saved := rfl
@[simp] theorem State.wri_events (s : State) (u : UnitId) (f : Fld) (i v : Nat) : (s.wri u f i v).events = s.events := rfl
@[simp] theorem State.wri_net (s : State) (u : UnitId) (f : Fld) (i v : Nat) : (s.wri u f i v).net = s.net := rfl
@[simp] theorem State.wri_err (s : State) (u : UnitId) (f : Fld) (i v : Nat) : (s.wri u f i v).err = s.err := rfl
@[simp] theorem State.wri_factory (s : State) (u : UnitId) (f : Fld) (i v : Nat) : (s.wri u f i v).factory = s.factory := rfl
@[simp] theorem State.wri_overlay (s : State) (u : UnitId) (f : Fld) (i v : Nat) : (s.wri u f i v).overlay = s.overlay := rfl
@[simp] theorem State.wri_parts (s : State) (u : UnitId) (f : Fld) (i v : Nat) : (s.wri u f i v).parts = s.parts := rfl
@[simp] theorem State.wri_img (s : State) (u : UnitId) (f : Fld) (i v : Nat) : (s.wri u f i v).img = s.img := rfl
@[simp] theorem State.wri_drams (s : State) (u : UnitId) (f : Fld) (i v : Nat) : (s.wri u f i v).drams = s.drams := rfl
@[simp] theorem State.wri_colls (s : State) (u : UnitId) (f : Fld) (i v : Nat) : (s.wri u f i v).colls = s.colls := rfl
@[simp] theorem State.wri_closed (s : State) (u : UnitId) (f : Fld) (i v : Nat) : (s.wri u f i v).closed = s.closed := rfl
@[simp] theorem State.wri_drainDone (s : State) (u : UnitId) (f : Fld) (i v : Nat) : (s.wri u f i v).drainDone = s.drainDone := rfl
@[simp] theorem State.wri_tests (s : State) (u : UnitId) (f : Fld) (i v : Nat) : (s.wri u f i v).tests = s.tests := rfl
@[simp] theorem State.wri_time (s : State) (u : UnitId) (f : Fld) (i v : Nat) : (s.wri u f i v).time = s.time := rfl
@[simp] theorem State.wri_clk (s : State) (u : UnitId) (f : Fld) (i v : Nat) : (s.wri u f i v).clk = s.clk := rfl
@[simp] theorem State.wri_hub (s : State) (u : UnitId) (f : Fld) (i v : Nat) : (s.wri u f i v).hub = s.hub := rfl
@[simp] theorem State.wri_trust (s : State) (u : UnitId) (f : Fld) (i v : Nat) : (s.wri u f i v).trust = s.trust := rfl
@[simp] theorem State.wri_ports (s : State) (u : UnitId) (f : Fld) (i v : Nat) : (s.wri u f i v).ports = s.ports := rfl
@[simp] theorem State.wri_ring (s : State) (u : UnitId) (f : Fld) (i v : Nat) : (s.wri u f i v).ring = s.ring := rfl
@[simp] theorem State.wri_ref (s : State) (u : UnitId) (f : Fld) (i v : Nat) : (s.wri u f i v).ref = s.ref := rfl
@[simp] theorem State.wri_lakes (s : State) (u : UnitId) (f : Fld) (i v : Nat) : (s.wri u f i v).lakes = s.lakes := rfl
@[simp] theorem State.wri_pwr (s : State) (u : UnitId) (f : Fld) (i v : Nat) : (s.wri u f i v).pwr = s.pwr := rfl
@[simp] theorem State.wri_telem (s : State) (u : UnitId) (f : Fld) (i v : Nat) : (s.wri u f i v).telem = s.telem := rfl
@[simp] theorem State.wri_free (s : State) (u : UnitId) (f : Fld) (i v : Nat) : (s.wri u f i v).free = s.free := rfl
@[simp] theorem State.wri_pending (s : State) (u : UnitId) (f : Fld) (i v : Nat) : (s.wri u f i v).pending = s.pending := rfl

/-! `wr` writes regs. -/

@[simp] theorem State.wr_mem (s : State) (u : UnitId) (f : Fld) (v : Nat) : (s.wr u f v).mem = s.mem := rfl
@[simp] theorem State.wr_bad (s : State) (u : UnitId) (f : Fld) (v : Nat) : (s.wr u f v).bad = s.bad := rfl
@[simp] theorem State.wr_hostMem (s : State) (u : UnitId) (f : Fld) (v : Nat) : (s.wr u f v).hostMem = s.hostMem := rfl
@[simp] theorem State.wr_queues (s : State) (u : UnitId) (f : Fld) (v : Nat) : (s.wr u f v).queues = s.queues := rfl
@[simp] theorem State.wr_steers (s : State) (u : UnitId) (f : Fld) (v : Nat) : (s.wr u f v).steers = s.steers := rfl
@[simp] theorem State.wr_springs (s : State) (u : UnitId) (f : Fld) (v : Nat) : (s.wr u f v).springs = s.springs := rfl
@[simp] theorem State.wr_waiters (s : State) (u : UnitId) (f : Fld) (v : Nat) : (s.wr u f v).waiters = s.waiters := rfl
@[simp] theorem State.wr_evals (s : State) (u : UnitId) (f : Fld) (v : Nat) : (s.wr u f v).evals = s.evals := rfl
@[simp] theorem State.wr_senders (s : State) (u : UnitId) (f : Fld) (v : Nat) : (s.wr u f v).senders = s.senders := rfl
@[simp] theorem State.wr_arrivals (s : State) (u : UnitId) (f : Fld) (v : Nat) : (s.wr u f v).arrivals = s.arrivals := rfl
@[simp] theorem State.wr_mcores (s : State) (u : UnitId) (f : Fld) (v : Nat) : (s.wr u f v).mcores = s.mcores := rfl
@[simp] theorem State.wr_vcores (s : State) (u : UnitId) (f : Fld) (v : Nat) : (s.wr u f v).vcores = s.vcores := rfl
@[simp] theorem State.wr_scores (s : State) (u : UnitId) (f : Fld) (v : Nat) : (s.wr u f v).scores = s.scores := rfl
@[simp] theorem State.wr_gens (s : State) (u : UnitId) (f : Fld) (v : Nat) : (s.wr u f v).gens = s.gens := rfl
@[simp] theorem State.wr_pmem (s : State) (u : UnitId) (f : Fld) (v : Nat) : (s.wr u f v).pmem = s.pmem := rfl
@[simp] theorem State.wr_opal (s : State) (u : UnitId) (f : Fld) (v : Nat) : (s.wr u f v).opal = s.opal := rfl
@[simp] theorem State.wr_latches (s : State) (u : UnitId) (f : Fld) (v : Nat) : (s.wr u f v).latches = s.latches := rfl
@[simp] theorem State.wr_saved (s : State) (u : UnitId) (f : Fld) (v : Nat) : (s.wr u f v).saved = s.saved := rfl
@[simp] theorem State.wr_events (s : State) (u : UnitId) (f : Fld) (v : Nat) : (s.wr u f v).events = s.events := rfl
@[simp] theorem State.wr_net (s : State) (u : UnitId) (f : Fld) (v : Nat) : (s.wr u f v).net = s.net := rfl
@[simp] theorem State.wr_err (s : State) (u : UnitId) (f : Fld) (v : Nat) : (s.wr u f v).err = s.err := rfl
@[simp] theorem State.wr_factory (s : State) (u : UnitId) (f : Fld) (v : Nat) : (s.wr u f v).factory = s.factory := rfl
@[simp] theorem State.wr_overlay (s : State) (u : UnitId) (f : Fld) (v : Nat) : (s.wr u f v).overlay = s.overlay := rfl
@[simp] theorem State.wr_parts (s : State) (u : UnitId) (f : Fld) (v : Nat) : (s.wr u f v).parts = s.parts := rfl
@[simp] theorem State.wr_img (s : State) (u : UnitId) (f : Fld) (v : Nat) : (s.wr u f v).img = s.img := rfl
@[simp] theorem State.wr_drams (s : State) (u : UnitId) (f : Fld) (v : Nat) : (s.wr u f v).drams = s.drams := rfl
@[simp] theorem State.wr_colls (s : State) (u : UnitId) (f : Fld) (v : Nat) : (s.wr u f v).colls = s.colls := rfl
@[simp] theorem State.wr_closed (s : State) (u : UnitId) (f : Fld) (v : Nat) : (s.wr u f v).closed = s.closed := rfl
@[simp] theorem State.wr_drainDone (s : State) (u : UnitId) (f : Fld) (v : Nat) : (s.wr u f v).drainDone = s.drainDone := rfl
@[simp] theorem State.wr_tests (s : State) (u : UnitId) (f : Fld) (v : Nat) : (s.wr u f v).tests = s.tests := rfl
@[simp] theorem State.wr_time (s : State) (u : UnitId) (f : Fld) (v : Nat) : (s.wr u f v).time = s.time := rfl
@[simp] theorem State.wr_clk (s : State) (u : UnitId) (f : Fld) (v : Nat) : (s.wr u f v).clk = s.clk := rfl
@[simp] theorem State.wr_hub (s : State) (u : UnitId) (f : Fld) (v : Nat) : (s.wr u f v).hub = s.hub := rfl
@[simp] theorem State.wr_trust (s : State) (u : UnitId) (f : Fld) (v : Nat) : (s.wr u f v).trust = s.trust := rfl
@[simp] theorem State.wr_ports (s : State) (u : UnitId) (f : Fld) (v : Nat) : (s.wr u f v).ports = s.ports := rfl
@[simp] theorem State.wr_ring (s : State) (u : UnitId) (f : Fld) (v : Nat) : (s.wr u f v).ring = s.ring := rfl
@[simp] theorem State.wr_ref (s : State) (u : UnitId) (f : Fld) (v : Nat) : (s.wr u f v).ref = s.ref := rfl
@[simp] theorem State.wr_lakes (s : State) (u : UnitId) (f : Fld) (v : Nat) : (s.wr u f v).lakes = s.lakes := rfl
@[simp] theorem State.wr_pwr (s : State) (u : UnitId) (f : Fld) (v : Nat) : (s.wr u f v).pwr = s.pwr := rfl
@[simp] theorem State.wr_telem (s : State) (u : UnitId) (f : Fld) (v : Nat) : (s.wr u f v).telem = s.telem := rfl
@[simp] theorem State.wr_free (s : State) (u : UnitId) (f : Fld) (v : Nat) : (s.wr u f v).free = s.free := rfl
@[simp] theorem State.wr_pending (s : State) (u : UnitId) (f : Fld) (v : Nat) : (s.wr u f v).pending = s.pending := rfl

/-! `setBiti` writes regs. -/

@[simp] theorem State.setBiti_mem (s : State) (u : UnitId) (f : Fld) (i b : Nat) : (s.setBiti u f i b).mem = s.mem := by rw [State.setBiti_eq]
@[simp] theorem State.setBiti_bad (s : State) (u : UnitId) (f : Fld) (i b : Nat) : (s.setBiti u f i b).bad = s.bad := by rw [State.setBiti_eq]
@[simp] theorem State.setBiti_hostMem (s : State) (u : UnitId) (f : Fld) (i b : Nat) : (s.setBiti u f i b).hostMem = s.hostMem := by rw [State.setBiti_eq]
@[simp] theorem State.setBiti_queues (s : State) (u : UnitId) (f : Fld) (i b : Nat) : (s.setBiti u f i b).queues = s.queues := by rw [State.setBiti_eq]
@[simp] theorem State.setBiti_steers (s : State) (u : UnitId) (f : Fld) (i b : Nat) : (s.setBiti u f i b).steers = s.steers := by rw [State.setBiti_eq]
@[simp] theorem State.setBiti_springs (s : State) (u : UnitId) (f : Fld) (i b : Nat) : (s.setBiti u f i b).springs = s.springs := by rw [State.setBiti_eq]
@[simp] theorem State.setBiti_waiters (s : State) (u : UnitId) (f : Fld) (i b : Nat) : (s.setBiti u f i b).waiters = s.waiters := by rw [State.setBiti_eq]
@[simp] theorem State.setBiti_evals (s : State) (u : UnitId) (f : Fld) (i b : Nat) : (s.setBiti u f i b).evals = s.evals := by rw [State.setBiti_eq]
@[simp] theorem State.setBiti_senders (s : State) (u : UnitId) (f : Fld) (i b : Nat) : (s.setBiti u f i b).senders = s.senders := by rw [State.setBiti_eq]
@[simp] theorem State.setBiti_arrivals (s : State) (u : UnitId) (f : Fld) (i b : Nat) : (s.setBiti u f i b).arrivals = s.arrivals := by rw [State.setBiti_eq]
@[simp] theorem State.setBiti_mcores (s : State) (u : UnitId) (f : Fld) (i b : Nat) : (s.setBiti u f i b).mcores = s.mcores := by rw [State.setBiti_eq]
@[simp] theorem State.setBiti_vcores (s : State) (u : UnitId) (f : Fld) (i b : Nat) : (s.setBiti u f i b).vcores = s.vcores := by rw [State.setBiti_eq]
@[simp] theorem State.setBiti_scores (s : State) (u : UnitId) (f : Fld) (i b : Nat) : (s.setBiti u f i b).scores = s.scores := by rw [State.setBiti_eq]
@[simp] theorem State.setBiti_gens (s : State) (u : UnitId) (f : Fld) (i b : Nat) : (s.setBiti u f i b).gens = s.gens := by rw [State.setBiti_eq]
@[simp] theorem State.setBiti_pmem (s : State) (u : UnitId) (f : Fld) (i b : Nat) : (s.setBiti u f i b).pmem = s.pmem := by rw [State.setBiti_eq]
@[simp] theorem State.setBiti_opal (s : State) (u : UnitId) (f : Fld) (i b : Nat) : (s.setBiti u f i b).opal = s.opal := by rw [State.setBiti_eq]
@[simp] theorem State.setBiti_latches (s : State) (u : UnitId) (f : Fld) (i b : Nat) : (s.setBiti u f i b).latches = s.latches := by rw [State.setBiti_eq]
@[simp] theorem State.setBiti_saved (s : State) (u : UnitId) (f : Fld) (i b : Nat) : (s.setBiti u f i b).saved = s.saved := by rw [State.setBiti_eq]
@[simp] theorem State.setBiti_events (s : State) (u : UnitId) (f : Fld) (i b : Nat) : (s.setBiti u f i b).events = s.events := by rw [State.setBiti_eq]
@[simp] theorem State.setBiti_net (s : State) (u : UnitId) (f : Fld) (i b : Nat) : (s.setBiti u f i b).net = s.net := by rw [State.setBiti_eq]
@[simp] theorem State.setBiti_err (s : State) (u : UnitId) (f : Fld) (i b : Nat) : (s.setBiti u f i b).err = s.err := by rw [State.setBiti_eq]
@[simp] theorem State.setBiti_factory (s : State) (u : UnitId) (f : Fld) (i b : Nat) : (s.setBiti u f i b).factory = s.factory := by rw [State.setBiti_eq]
@[simp] theorem State.setBiti_overlay (s : State) (u : UnitId) (f : Fld) (i b : Nat) : (s.setBiti u f i b).overlay = s.overlay := by rw [State.setBiti_eq]
@[simp] theorem State.setBiti_parts (s : State) (u : UnitId) (f : Fld) (i b : Nat) : (s.setBiti u f i b).parts = s.parts := by rw [State.setBiti_eq]
@[simp] theorem State.setBiti_img (s : State) (u : UnitId) (f : Fld) (i b : Nat) : (s.setBiti u f i b).img = s.img := by rw [State.setBiti_eq]
@[simp] theorem State.setBiti_drams (s : State) (u : UnitId) (f : Fld) (i b : Nat) : (s.setBiti u f i b).drams = s.drams := by rw [State.setBiti_eq]
@[simp] theorem State.setBiti_colls (s : State) (u : UnitId) (f : Fld) (i b : Nat) : (s.setBiti u f i b).colls = s.colls := by rw [State.setBiti_eq]
@[simp] theorem State.setBiti_closed (s : State) (u : UnitId) (f : Fld) (i b : Nat) : (s.setBiti u f i b).closed = s.closed := by rw [State.setBiti_eq]
@[simp] theorem State.setBiti_drainDone (s : State) (u : UnitId) (f : Fld) (i b : Nat) : (s.setBiti u f i b).drainDone = s.drainDone := by rw [State.setBiti_eq]
@[simp] theorem State.setBiti_tests (s : State) (u : UnitId) (f : Fld) (i b : Nat) : (s.setBiti u f i b).tests = s.tests := by rw [State.setBiti_eq]
@[simp] theorem State.setBiti_time (s : State) (u : UnitId) (f : Fld) (i b : Nat) : (s.setBiti u f i b).time = s.time := by rw [State.setBiti_eq]
@[simp] theorem State.setBiti_clk (s : State) (u : UnitId) (f : Fld) (i b : Nat) : (s.setBiti u f i b).clk = s.clk := by rw [State.setBiti_eq]
@[simp] theorem State.setBiti_hub (s : State) (u : UnitId) (f : Fld) (i b : Nat) : (s.setBiti u f i b).hub = s.hub := by rw [State.setBiti_eq]
@[simp] theorem State.setBiti_trust (s : State) (u : UnitId) (f : Fld) (i b : Nat) : (s.setBiti u f i b).trust = s.trust := by rw [State.setBiti_eq]
@[simp] theorem State.setBiti_ports (s : State) (u : UnitId) (f : Fld) (i b : Nat) : (s.setBiti u f i b).ports = s.ports := by rw [State.setBiti_eq]
@[simp] theorem State.setBiti_ring (s : State) (u : UnitId) (f : Fld) (i b : Nat) : (s.setBiti u f i b).ring = s.ring := by rw [State.setBiti_eq]
@[simp] theorem State.setBiti_ref (s : State) (u : UnitId) (f : Fld) (i b : Nat) : (s.setBiti u f i b).ref = s.ref := by rw [State.setBiti_eq]
@[simp] theorem State.setBiti_lakes (s : State) (u : UnitId) (f : Fld) (i b : Nat) : (s.setBiti u f i b).lakes = s.lakes := by rw [State.setBiti_eq]
@[simp] theorem State.setBiti_pwr (s : State) (u : UnitId) (f : Fld) (i b : Nat) : (s.setBiti u f i b).pwr = s.pwr := by rw [State.setBiti_eq]
@[simp] theorem State.setBiti_telem (s : State) (u : UnitId) (f : Fld) (i b : Nat) : (s.setBiti u f i b).telem = s.telem := by rw [State.setBiti_eq]
@[simp] theorem State.setBiti_free (s : State) (u : UnitId) (f : Fld) (i b : Nat) : (s.setBiti u f i b).free = s.free := by rw [State.setBiti_eq]
@[simp] theorem State.setBiti_pending (s : State) (u : UnitId) (f : Fld) (i b : Nat) : (s.setBiti u f i b).pending = s.pending := by rw [State.setBiti_eq]

/-! `counti` writes regs. -/

@[simp] theorem State.counti_mem (s : State) (u : UnitId) (f : Fld) (i : Nat) (w : Fld) (j b n : Nat) : (s.counti u f i w j b n).mem = s.mem := by rw [State.counti_eq]
@[simp] theorem State.counti_bad (s : State) (u : UnitId) (f : Fld) (i : Nat) (w : Fld) (j b n : Nat) : (s.counti u f i w j b n).bad = s.bad := by rw [State.counti_eq]
@[simp] theorem State.counti_hostMem (s : State) (u : UnitId) (f : Fld) (i : Nat) (w : Fld) (j b n : Nat) : (s.counti u f i w j b n).hostMem = s.hostMem := by rw [State.counti_eq]
@[simp] theorem State.counti_queues (s : State) (u : UnitId) (f : Fld) (i : Nat) (w : Fld) (j b n : Nat) : (s.counti u f i w j b n).queues = s.queues := by rw [State.counti_eq]
@[simp] theorem State.counti_steers (s : State) (u : UnitId) (f : Fld) (i : Nat) (w : Fld) (j b n : Nat) : (s.counti u f i w j b n).steers = s.steers := by rw [State.counti_eq]
@[simp] theorem State.counti_springs (s : State) (u : UnitId) (f : Fld) (i : Nat) (w : Fld) (j b n : Nat) : (s.counti u f i w j b n).springs = s.springs := by rw [State.counti_eq]
@[simp] theorem State.counti_waiters (s : State) (u : UnitId) (f : Fld) (i : Nat) (w : Fld) (j b n : Nat) : (s.counti u f i w j b n).waiters = s.waiters := by rw [State.counti_eq]
@[simp] theorem State.counti_evals (s : State) (u : UnitId) (f : Fld) (i : Nat) (w : Fld) (j b n : Nat) : (s.counti u f i w j b n).evals = s.evals := by rw [State.counti_eq]
@[simp] theorem State.counti_senders (s : State) (u : UnitId) (f : Fld) (i : Nat) (w : Fld) (j b n : Nat) : (s.counti u f i w j b n).senders = s.senders := by rw [State.counti_eq]
@[simp] theorem State.counti_arrivals (s : State) (u : UnitId) (f : Fld) (i : Nat) (w : Fld) (j b n : Nat) : (s.counti u f i w j b n).arrivals = s.arrivals := by rw [State.counti_eq]
@[simp] theorem State.counti_mcores (s : State) (u : UnitId) (f : Fld) (i : Nat) (w : Fld) (j b n : Nat) : (s.counti u f i w j b n).mcores = s.mcores := by rw [State.counti_eq]
@[simp] theorem State.counti_vcores (s : State) (u : UnitId) (f : Fld) (i : Nat) (w : Fld) (j b n : Nat) : (s.counti u f i w j b n).vcores = s.vcores := by rw [State.counti_eq]
@[simp] theorem State.counti_scores (s : State) (u : UnitId) (f : Fld) (i : Nat) (w : Fld) (j b n : Nat) : (s.counti u f i w j b n).scores = s.scores := by rw [State.counti_eq]
@[simp] theorem State.counti_gens (s : State) (u : UnitId) (f : Fld) (i : Nat) (w : Fld) (j b n : Nat) : (s.counti u f i w j b n).gens = s.gens := by rw [State.counti_eq]
@[simp] theorem State.counti_pmem (s : State) (u : UnitId) (f : Fld) (i : Nat) (w : Fld) (j b n : Nat) : (s.counti u f i w j b n).pmem = s.pmem := by rw [State.counti_eq]
@[simp] theorem State.counti_opal (s : State) (u : UnitId) (f : Fld) (i : Nat) (w : Fld) (j b n : Nat) : (s.counti u f i w j b n).opal = s.opal := by rw [State.counti_eq]
@[simp] theorem State.counti_latches (s : State) (u : UnitId) (f : Fld) (i : Nat) (w : Fld) (j b n : Nat) : (s.counti u f i w j b n).latches = s.latches := by rw [State.counti_eq]
@[simp] theorem State.counti_saved (s : State) (u : UnitId) (f : Fld) (i : Nat) (w : Fld) (j b n : Nat) : (s.counti u f i w j b n).saved = s.saved := by rw [State.counti_eq]
@[simp] theorem State.counti_events (s : State) (u : UnitId) (f : Fld) (i : Nat) (w : Fld) (j b n : Nat) : (s.counti u f i w j b n).events = s.events := by rw [State.counti_eq]
@[simp] theorem State.counti_net (s : State) (u : UnitId) (f : Fld) (i : Nat) (w : Fld) (j b n : Nat) : (s.counti u f i w j b n).net = s.net := by rw [State.counti_eq]
@[simp] theorem State.counti_err (s : State) (u : UnitId) (f : Fld) (i : Nat) (w : Fld) (j b n : Nat) : (s.counti u f i w j b n).err = s.err := by rw [State.counti_eq]
@[simp] theorem State.counti_factory (s : State) (u : UnitId) (f : Fld) (i : Nat) (w : Fld) (j b n : Nat) : (s.counti u f i w j b n).factory = s.factory := by rw [State.counti_eq]
@[simp] theorem State.counti_overlay (s : State) (u : UnitId) (f : Fld) (i : Nat) (w : Fld) (j b n : Nat) : (s.counti u f i w j b n).overlay = s.overlay := by rw [State.counti_eq]
@[simp] theorem State.counti_parts (s : State) (u : UnitId) (f : Fld) (i : Nat) (w : Fld) (j b n : Nat) : (s.counti u f i w j b n).parts = s.parts := by rw [State.counti_eq]
@[simp] theorem State.counti_img (s : State) (u : UnitId) (f : Fld) (i : Nat) (w : Fld) (j b n : Nat) : (s.counti u f i w j b n).img = s.img := by rw [State.counti_eq]
@[simp] theorem State.counti_drams (s : State) (u : UnitId) (f : Fld) (i : Nat) (w : Fld) (j b n : Nat) : (s.counti u f i w j b n).drams = s.drams := by rw [State.counti_eq]
@[simp] theorem State.counti_colls (s : State) (u : UnitId) (f : Fld) (i : Nat) (w : Fld) (j b n : Nat) : (s.counti u f i w j b n).colls = s.colls := by rw [State.counti_eq]
@[simp] theorem State.counti_closed (s : State) (u : UnitId) (f : Fld) (i : Nat) (w : Fld) (j b n : Nat) : (s.counti u f i w j b n).closed = s.closed := by rw [State.counti_eq]
@[simp] theorem State.counti_drainDone (s : State) (u : UnitId) (f : Fld) (i : Nat) (w : Fld) (j b n : Nat) : (s.counti u f i w j b n).drainDone = s.drainDone := by rw [State.counti_eq]
@[simp] theorem State.counti_tests (s : State) (u : UnitId) (f : Fld) (i : Nat) (w : Fld) (j b n : Nat) : (s.counti u f i w j b n).tests = s.tests := by rw [State.counti_eq]
@[simp] theorem State.counti_time (s : State) (u : UnitId) (f : Fld) (i : Nat) (w : Fld) (j b n : Nat) : (s.counti u f i w j b n).time = s.time := by rw [State.counti_eq]
@[simp] theorem State.counti_clk (s : State) (u : UnitId) (f : Fld) (i : Nat) (w : Fld) (j b n : Nat) : (s.counti u f i w j b n).clk = s.clk := by rw [State.counti_eq]
@[simp] theorem State.counti_hub (s : State) (u : UnitId) (f : Fld) (i : Nat) (w : Fld) (j b n : Nat) : (s.counti u f i w j b n).hub = s.hub := by rw [State.counti_eq]
@[simp] theorem State.counti_trust (s : State) (u : UnitId) (f : Fld) (i : Nat) (w : Fld) (j b n : Nat) : (s.counti u f i w j b n).trust = s.trust := by rw [State.counti_eq]
@[simp] theorem State.counti_ports (s : State) (u : UnitId) (f : Fld) (i : Nat) (w : Fld) (j b n : Nat) : (s.counti u f i w j b n).ports = s.ports := by rw [State.counti_eq]
@[simp] theorem State.counti_ring (s : State) (u : UnitId) (f : Fld) (i : Nat) (w : Fld) (j b n : Nat) : (s.counti u f i w j b n).ring = s.ring := by rw [State.counti_eq]
@[simp] theorem State.counti_ref (s : State) (u : UnitId) (f : Fld) (i : Nat) (w : Fld) (j b n : Nat) : (s.counti u f i w j b n).ref = s.ref := by rw [State.counti_eq]
@[simp] theorem State.counti_lakes (s : State) (u : UnitId) (f : Fld) (i : Nat) (w : Fld) (j b n : Nat) : (s.counti u f i w j b n).lakes = s.lakes := by rw [State.counti_eq]
@[simp] theorem State.counti_pwr (s : State) (u : UnitId) (f : Fld) (i : Nat) (w : Fld) (j b n : Nat) : (s.counti u f i w j b n).pwr = s.pwr := by rw [State.counti_eq]
@[simp] theorem State.counti_telem (s : State) (u : UnitId) (f : Fld) (i : Nat) (w : Fld) (j b n : Nat) : (s.counti u f i w j b n).telem = s.telem := by rw [State.counti_eq]
@[simp] theorem State.counti_free (s : State) (u : UnitId) (f : Fld) (i : Nat) (w : Fld) (j b n : Nat) : (s.counti u f i w j b n).free = s.free := by rw [State.counti_eq]
@[simp] theorem State.counti_pending (s : State) (u : UnitId) (f : Fld) (i : Nat) (w : Fld) (j b n : Nat) : (s.counti u f i w j b n).pending = s.pending := by rw [State.counti_eq]

/-! `count` writes regs. -/

@[simp] theorem State.count_mem (s : State) (u : UnitId) (f w : Fld) (b n : Nat) : (s.count u f w b n).mem = s.mem := by rw [State.count_eq]
@[simp] theorem State.count_bad (s : State) (u : UnitId) (f w : Fld) (b n : Nat) : (s.count u f w b n).bad = s.bad := by rw [State.count_eq]
@[simp] theorem State.count_hostMem (s : State) (u : UnitId) (f w : Fld) (b n : Nat) : (s.count u f w b n).hostMem = s.hostMem := by rw [State.count_eq]
@[simp] theorem State.count_queues (s : State) (u : UnitId) (f w : Fld) (b n : Nat) : (s.count u f w b n).queues = s.queues := by rw [State.count_eq]
@[simp] theorem State.count_steers (s : State) (u : UnitId) (f w : Fld) (b n : Nat) : (s.count u f w b n).steers = s.steers := by rw [State.count_eq]
@[simp] theorem State.count_springs (s : State) (u : UnitId) (f w : Fld) (b n : Nat) : (s.count u f w b n).springs = s.springs := by rw [State.count_eq]
@[simp] theorem State.count_waiters (s : State) (u : UnitId) (f w : Fld) (b n : Nat) : (s.count u f w b n).waiters = s.waiters := by rw [State.count_eq]
@[simp] theorem State.count_evals (s : State) (u : UnitId) (f w : Fld) (b n : Nat) : (s.count u f w b n).evals = s.evals := by rw [State.count_eq]
@[simp] theorem State.count_senders (s : State) (u : UnitId) (f w : Fld) (b n : Nat) : (s.count u f w b n).senders = s.senders := by rw [State.count_eq]
@[simp] theorem State.count_arrivals (s : State) (u : UnitId) (f w : Fld) (b n : Nat) : (s.count u f w b n).arrivals = s.arrivals := by rw [State.count_eq]
@[simp] theorem State.count_mcores (s : State) (u : UnitId) (f w : Fld) (b n : Nat) : (s.count u f w b n).mcores = s.mcores := by rw [State.count_eq]
@[simp] theorem State.count_vcores (s : State) (u : UnitId) (f w : Fld) (b n : Nat) : (s.count u f w b n).vcores = s.vcores := by rw [State.count_eq]
@[simp] theorem State.count_scores (s : State) (u : UnitId) (f w : Fld) (b n : Nat) : (s.count u f w b n).scores = s.scores := by rw [State.count_eq]
@[simp] theorem State.count_gens (s : State) (u : UnitId) (f w : Fld) (b n : Nat) : (s.count u f w b n).gens = s.gens := by rw [State.count_eq]
@[simp] theorem State.count_pmem (s : State) (u : UnitId) (f w : Fld) (b n : Nat) : (s.count u f w b n).pmem = s.pmem := by rw [State.count_eq]
@[simp] theorem State.count_opal (s : State) (u : UnitId) (f w : Fld) (b n : Nat) : (s.count u f w b n).opal = s.opal := by rw [State.count_eq]
@[simp] theorem State.count_latches (s : State) (u : UnitId) (f w : Fld) (b n : Nat) : (s.count u f w b n).latches = s.latches := by rw [State.count_eq]
@[simp] theorem State.count_saved (s : State) (u : UnitId) (f w : Fld) (b n : Nat) : (s.count u f w b n).saved = s.saved := by rw [State.count_eq]
@[simp] theorem State.count_events (s : State) (u : UnitId) (f w : Fld) (b n : Nat) : (s.count u f w b n).events = s.events := by rw [State.count_eq]
@[simp] theorem State.count_net (s : State) (u : UnitId) (f w : Fld) (b n : Nat) : (s.count u f w b n).net = s.net := by rw [State.count_eq]
@[simp] theorem State.count_err (s : State) (u : UnitId) (f w : Fld) (b n : Nat) : (s.count u f w b n).err = s.err := by rw [State.count_eq]
@[simp] theorem State.count_factory (s : State) (u : UnitId) (f w : Fld) (b n : Nat) : (s.count u f w b n).factory = s.factory := by rw [State.count_eq]
@[simp] theorem State.count_overlay (s : State) (u : UnitId) (f w : Fld) (b n : Nat) : (s.count u f w b n).overlay = s.overlay := by rw [State.count_eq]
@[simp] theorem State.count_parts (s : State) (u : UnitId) (f w : Fld) (b n : Nat) : (s.count u f w b n).parts = s.parts := by rw [State.count_eq]
@[simp] theorem State.count_img (s : State) (u : UnitId) (f w : Fld) (b n : Nat) : (s.count u f w b n).img = s.img := by rw [State.count_eq]
@[simp] theorem State.count_drams (s : State) (u : UnitId) (f w : Fld) (b n : Nat) : (s.count u f w b n).drams = s.drams := by rw [State.count_eq]
@[simp] theorem State.count_colls (s : State) (u : UnitId) (f w : Fld) (b n : Nat) : (s.count u f w b n).colls = s.colls := by rw [State.count_eq]
@[simp] theorem State.count_closed (s : State) (u : UnitId) (f w : Fld) (b n : Nat) : (s.count u f w b n).closed = s.closed := by rw [State.count_eq]
@[simp] theorem State.count_drainDone (s : State) (u : UnitId) (f w : Fld) (b n : Nat) : (s.count u f w b n).drainDone = s.drainDone := by rw [State.count_eq]
@[simp] theorem State.count_tests (s : State) (u : UnitId) (f w : Fld) (b n : Nat) : (s.count u f w b n).tests = s.tests := by rw [State.count_eq]
@[simp] theorem State.count_time (s : State) (u : UnitId) (f w : Fld) (b n : Nat) : (s.count u f w b n).time = s.time := by rw [State.count_eq]
@[simp] theorem State.count_clk (s : State) (u : UnitId) (f w : Fld) (b n : Nat) : (s.count u f w b n).clk = s.clk := by rw [State.count_eq]
@[simp] theorem State.count_hub (s : State) (u : UnitId) (f w : Fld) (b n : Nat) : (s.count u f w b n).hub = s.hub := by rw [State.count_eq]
@[simp] theorem State.count_trust (s : State) (u : UnitId) (f w : Fld) (b n : Nat) : (s.count u f w b n).trust = s.trust := by rw [State.count_eq]
@[simp] theorem State.count_ports (s : State) (u : UnitId) (f w : Fld) (b n : Nat) : (s.count u f w b n).ports = s.ports := by rw [State.count_eq]
@[simp] theorem State.count_ring (s : State) (u : UnitId) (f w : Fld) (b n : Nat) : (s.count u f w b n).ring = s.ring := by rw [State.count_eq]
@[simp] theorem State.count_ref (s : State) (u : UnitId) (f w : Fld) (b n : Nat) : (s.count u f w b n).ref = s.ref := by rw [State.count_eq]
@[simp] theorem State.count_lakes (s : State) (u : UnitId) (f w : Fld) (b n : Nat) : (s.count u f w b n).lakes = s.lakes := by rw [State.count_eq]
@[simp] theorem State.count_pwr (s : State) (u : UnitId) (f w : Fld) (b n : Nat) : (s.count u f w b n).pwr = s.pwr := by rw [State.count_eq]
@[simp] theorem State.count_telem (s : State) (u : UnitId) (f w : Fld) (b n : Nat) : (s.count u f w b n).telem = s.telem := by rw [State.count_eq]
@[simp] theorem State.count_free (s : State) (u : UnitId) (f w : Fld) (b n : Nat) : (s.count u f w b n).free = s.free := by rw [State.count_eq]
@[simp] theorem State.count_pending (s : State) (u : UnitId) (f w : Fld) (b n : Nat) : (s.count u f w b n).pending = s.pending := by rw [State.count_eq]

/-! `sati` writes regs. -/

@[simp] theorem State.sati_mem (s : State) (u : UnitId) (f : Fld) (i n : Nat) : (s.sati u f i n).mem = s.mem := rfl
@[simp] theorem State.sati_bad (s : State) (u : UnitId) (f : Fld) (i n : Nat) : (s.sati u f i n).bad = s.bad := rfl
@[simp] theorem State.sati_hostMem (s : State) (u : UnitId) (f : Fld) (i n : Nat) : (s.sati u f i n).hostMem = s.hostMem := rfl
@[simp] theorem State.sati_queues (s : State) (u : UnitId) (f : Fld) (i n : Nat) : (s.sati u f i n).queues = s.queues := rfl
@[simp] theorem State.sati_steers (s : State) (u : UnitId) (f : Fld) (i n : Nat) : (s.sati u f i n).steers = s.steers := rfl
@[simp] theorem State.sati_springs (s : State) (u : UnitId) (f : Fld) (i n : Nat) : (s.sati u f i n).springs = s.springs := rfl
@[simp] theorem State.sati_waiters (s : State) (u : UnitId) (f : Fld) (i n : Nat) : (s.sati u f i n).waiters = s.waiters := rfl
@[simp] theorem State.sati_evals (s : State) (u : UnitId) (f : Fld) (i n : Nat) : (s.sati u f i n).evals = s.evals := rfl
@[simp] theorem State.sati_senders (s : State) (u : UnitId) (f : Fld) (i n : Nat) : (s.sati u f i n).senders = s.senders := rfl
@[simp] theorem State.sati_arrivals (s : State) (u : UnitId) (f : Fld) (i n : Nat) : (s.sati u f i n).arrivals = s.arrivals := rfl
@[simp] theorem State.sati_mcores (s : State) (u : UnitId) (f : Fld) (i n : Nat) : (s.sati u f i n).mcores = s.mcores := rfl
@[simp] theorem State.sati_vcores (s : State) (u : UnitId) (f : Fld) (i n : Nat) : (s.sati u f i n).vcores = s.vcores := rfl
@[simp] theorem State.sati_scores (s : State) (u : UnitId) (f : Fld) (i n : Nat) : (s.sati u f i n).scores = s.scores := rfl
@[simp] theorem State.sati_gens (s : State) (u : UnitId) (f : Fld) (i n : Nat) : (s.sati u f i n).gens = s.gens := rfl
@[simp] theorem State.sati_pmem (s : State) (u : UnitId) (f : Fld) (i n : Nat) : (s.sati u f i n).pmem = s.pmem := rfl
@[simp] theorem State.sati_opal (s : State) (u : UnitId) (f : Fld) (i n : Nat) : (s.sati u f i n).opal = s.opal := rfl
@[simp] theorem State.sati_latches (s : State) (u : UnitId) (f : Fld) (i n : Nat) : (s.sati u f i n).latches = s.latches := rfl
@[simp] theorem State.sati_saved (s : State) (u : UnitId) (f : Fld) (i n : Nat) : (s.sati u f i n).saved = s.saved := rfl
@[simp] theorem State.sati_events (s : State) (u : UnitId) (f : Fld) (i n : Nat) : (s.sati u f i n).events = s.events := rfl
@[simp] theorem State.sati_net (s : State) (u : UnitId) (f : Fld) (i n : Nat) : (s.sati u f i n).net = s.net := rfl
@[simp] theorem State.sati_err (s : State) (u : UnitId) (f : Fld) (i n : Nat) : (s.sati u f i n).err = s.err := rfl
@[simp] theorem State.sati_factory (s : State) (u : UnitId) (f : Fld) (i n : Nat) : (s.sati u f i n).factory = s.factory := rfl
@[simp] theorem State.sati_overlay (s : State) (u : UnitId) (f : Fld) (i n : Nat) : (s.sati u f i n).overlay = s.overlay := rfl
@[simp] theorem State.sati_parts (s : State) (u : UnitId) (f : Fld) (i n : Nat) : (s.sati u f i n).parts = s.parts := rfl
@[simp] theorem State.sati_img (s : State) (u : UnitId) (f : Fld) (i n : Nat) : (s.sati u f i n).img = s.img := rfl
@[simp] theorem State.sati_drams (s : State) (u : UnitId) (f : Fld) (i n : Nat) : (s.sati u f i n).drams = s.drams := rfl
@[simp] theorem State.sati_colls (s : State) (u : UnitId) (f : Fld) (i n : Nat) : (s.sati u f i n).colls = s.colls := rfl
@[simp] theorem State.sati_closed (s : State) (u : UnitId) (f : Fld) (i n : Nat) : (s.sati u f i n).closed = s.closed := rfl
@[simp] theorem State.sati_drainDone (s : State) (u : UnitId) (f : Fld) (i n : Nat) : (s.sati u f i n).drainDone = s.drainDone := rfl
@[simp] theorem State.sati_tests (s : State) (u : UnitId) (f : Fld) (i n : Nat) : (s.sati u f i n).tests = s.tests := rfl
@[simp] theorem State.sati_time (s : State) (u : UnitId) (f : Fld) (i n : Nat) : (s.sati u f i n).time = s.time := rfl
@[simp] theorem State.sati_clk (s : State) (u : UnitId) (f : Fld) (i n : Nat) : (s.sati u f i n).clk = s.clk := rfl
@[simp] theorem State.sati_hub (s : State) (u : UnitId) (f : Fld) (i n : Nat) : (s.sati u f i n).hub = s.hub := rfl
@[simp] theorem State.sati_trust (s : State) (u : UnitId) (f : Fld) (i n : Nat) : (s.sati u f i n).trust = s.trust := rfl
@[simp] theorem State.sati_ports (s : State) (u : UnitId) (f : Fld) (i n : Nat) : (s.sati u f i n).ports = s.ports := rfl
@[simp] theorem State.sati_ring (s : State) (u : UnitId) (f : Fld) (i n : Nat) : (s.sati u f i n).ring = s.ring := rfl
@[simp] theorem State.sati_ref (s : State) (u : UnitId) (f : Fld) (i n : Nat) : (s.sati u f i n).ref = s.ref := rfl
@[simp] theorem State.sati_lakes (s : State) (u : UnitId) (f : Fld) (i n : Nat) : (s.sati u f i n).lakes = s.lakes := rfl
@[simp] theorem State.sati_pwr (s : State) (u : UnitId) (f : Fld) (i n : Nat) : (s.sati u f i n).pwr = s.pwr := rfl
@[simp] theorem State.sati_telem (s : State) (u : UnitId) (f : Fld) (i n : Nat) : (s.sati u f i n).telem = s.telem := rfl
@[simp] theorem State.sati_free (s : State) (u : UnitId) (f : Fld) (i n : Nat) : (s.sati u f i n).free = s.free := rfl
@[simp] theorem State.sati_pending (s : State) (u : UnitId) (f : Fld) (i n : Nat) : (s.sati u f i n).pending = s.pending := rfl

/-! `sat` writes regs. -/

@[simp] theorem State.sat_mem (s : State) (u : UnitId) (f : Fld) (n : Nat) : (s.sat u f n).mem = s.mem := rfl
@[simp] theorem State.sat_bad (s : State) (u : UnitId) (f : Fld) (n : Nat) : (s.sat u f n).bad = s.bad := rfl
@[simp] theorem State.sat_hostMem (s : State) (u : UnitId) (f : Fld) (n : Nat) : (s.sat u f n).hostMem = s.hostMem := rfl
@[simp] theorem State.sat_queues (s : State) (u : UnitId) (f : Fld) (n : Nat) : (s.sat u f n).queues = s.queues := rfl
@[simp] theorem State.sat_steers (s : State) (u : UnitId) (f : Fld) (n : Nat) : (s.sat u f n).steers = s.steers := rfl
@[simp] theorem State.sat_springs (s : State) (u : UnitId) (f : Fld) (n : Nat) : (s.sat u f n).springs = s.springs := rfl
@[simp] theorem State.sat_waiters (s : State) (u : UnitId) (f : Fld) (n : Nat) : (s.sat u f n).waiters = s.waiters := rfl
@[simp] theorem State.sat_evals (s : State) (u : UnitId) (f : Fld) (n : Nat) : (s.sat u f n).evals = s.evals := rfl
@[simp] theorem State.sat_senders (s : State) (u : UnitId) (f : Fld) (n : Nat) : (s.sat u f n).senders = s.senders := rfl
@[simp] theorem State.sat_arrivals (s : State) (u : UnitId) (f : Fld) (n : Nat) : (s.sat u f n).arrivals = s.arrivals := rfl
@[simp] theorem State.sat_mcores (s : State) (u : UnitId) (f : Fld) (n : Nat) : (s.sat u f n).mcores = s.mcores := rfl
@[simp] theorem State.sat_vcores (s : State) (u : UnitId) (f : Fld) (n : Nat) : (s.sat u f n).vcores = s.vcores := rfl
@[simp] theorem State.sat_scores (s : State) (u : UnitId) (f : Fld) (n : Nat) : (s.sat u f n).scores = s.scores := rfl
@[simp] theorem State.sat_gens (s : State) (u : UnitId) (f : Fld) (n : Nat) : (s.sat u f n).gens = s.gens := rfl
@[simp] theorem State.sat_pmem (s : State) (u : UnitId) (f : Fld) (n : Nat) : (s.sat u f n).pmem = s.pmem := rfl
@[simp] theorem State.sat_opal (s : State) (u : UnitId) (f : Fld) (n : Nat) : (s.sat u f n).opal = s.opal := rfl
@[simp] theorem State.sat_latches (s : State) (u : UnitId) (f : Fld) (n : Nat) : (s.sat u f n).latches = s.latches := rfl
@[simp] theorem State.sat_saved (s : State) (u : UnitId) (f : Fld) (n : Nat) : (s.sat u f n).saved = s.saved := rfl
@[simp] theorem State.sat_events (s : State) (u : UnitId) (f : Fld) (n : Nat) : (s.sat u f n).events = s.events := rfl
@[simp] theorem State.sat_net (s : State) (u : UnitId) (f : Fld) (n : Nat) : (s.sat u f n).net = s.net := rfl
@[simp] theorem State.sat_err (s : State) (u : UnitId) (f : Fld) (n : Nat) : (s.sat u f n).err = s.err := rfl
@[simp] theorem State.sat_factory (s : State) (u : UnitId) (f : Fld) (n : Nat) : (s.sat u f n).factory = s.factory := rfl
@[simp] theorem State.sat_overlay (s : State) (u : UnitId) (f : Fld) (n : Nat) : (s.sat u f n).overlay = s.overlay := rfl
@[simp] theorem State.sat_parts (s : State) (u : UnitId) (f : Fld) (n : Nat) : (s.sat u f n).parts = s.parts := rfl
@[simp] theorem State.sat_img (s : State) (u : UnitId) (f : Fld) (n : Nat) : (s.sat u f n).img = s.img := rfl
@[simp] theorem State.sat_drams (s : State) (u : UnitId) (f : Fld) (n : Nat) : (s.sat u f n).drams = s.drams := rfl
@[simp] theorem State.sat_colls (s : State) (u : UnitId) (f : Fld) (n : Nat) : (s.sat u f n).colls = s.colls := rfl
@[simp] theorem State.sat_closed (s : State) (u : UnitId) (f : Fld) (n : Nat) : (s.sat u f n).closed = s.closed := rfl
@[simp] theorem State.sat_drainDone (s : State) (u : UnitId) (f : Fld) (n : Nat) : (s.sat u f n).drainDone = s.drainDone := rfl
@[simp] theorem State.sat_tests (s : State) (u : UnitId) (f : Fld) (n : Nat) : (s.sat u f n).tests = s.tests := rfl
@[simp] theorem State.sat_time (s : State) (u : UnitId) (f : Fld) (n : Nat) : (s.sat u f n).time = s.time := rfl
@[simp] theorem State.sat_clk (s : State) (u : UnitId) (f : Fld) (n : Nat) : (s.sat u f n).clk = s.clk := rfl
@[simp] theorem State.sat_hub (s : State) (u : UnitId) (f : Fld) (n : Nat) : (s.sat u f n).hub = s.hub := rfl
@[simp] theorem State.sat_trust (s : State) (u : UnitId) (f : Fld) (n : Nat) : (s.sat u f n).trust = s.trust := rfl
@[simp] theorem State.sat_ports (s : State) (u : UnitId) (f : Fld) (n : Nat) : (s.sat u f n).ports = s.ports := rfl
@[simp] theorem State.sat_ring (s : State) (u : UnitId) (f : Fld) (n : Nat) : (s.sat u f n).ring = s.ring := rfl
@[simp] theorem State.sat_ref (s : State) (u : UnitId) (f : Fld) (n : Nat) : (s.sat u f n).ref = s.ref := rfl
@[simp] theorem State.sat_lakes (s : State) (u : UnitId) (f : Fld) (n : Nat) : (s.sat u f n).lakes = s.lakes := rfl
@[simp] theorem State.sat_pwr (s : State) (u : UnitId) (f : Fld) (n : Nat) : (s.sat u f n).pwr = s.pwr := rfl
@[simp] theorem State.sat_telem (s : State) (u : UnitId) (f : Fld) (n : Nat) : (s.sat u f n).telem = s.telem := rfl
@[simp] theorem State.sat_free (s : State) (u : UnitId) (f : Fld) (n : Nat) : (s.sat u f n).free = s.free := rfl
@[simp] theorem State.sat_pending (s : State) (u : UnitId) (f : Fld) (n : Nat) : (s.sat u f n).pending = s.pending := rfl

/-! `setScore` writes scores. -/

@[simp] theorem State.setScore_regs (s : State) (g : Nat) (c : SCore) : (s.setScore g c).regs = s.regs := rfl
@[simp] theorem State.setScore_mem (s : State) (g : Nat) (c : SCore) : (s.setScore g c).mem = s.mem := rfl
@[simp] theorem State.setScore_bad (s : State) (g : Nat) (c : SCore) : (s.setScore g c).bad = s.bad := rfl
@[simp] theorem State.setScore_hostMem (s : State) (g : Nat) (c : SCore) : (s.setScore g c).hostMem = s.hostMem := rfl
@[simp] theorem State.setScore_queues (s : State) (g : Nat) (c : SCore) : (s.setScore g c).queues = s.queues := rfl
@[simp] theorem State.setScore_steers (s : State) (g : Nat) (c : SCore) : (s.setScore g c).steers = s.steers := rfl
@[simp] theorem State.setScore_springs (s : State) (g : Nat) (c : SCore) : (s.setScore g c).springs = s.springs := rfl
@[simp] theorem State.setScore_waiters (s : State) (g : Nat) (c : SCore) : (s.setScore g c).waiters = s.waiters := rfl
@[simp] theorem State.setScore_evals (s : State) (g : Nat) (c : SCore) : (s.setScore g c).evals = s.evals := rfl
@[simp] theorem State.setScore_senders (s : State) (g : Nat) (c : SCore) : (s.setScore g c).senders = s.senders := rfl
@[simp] theorem State.setScore_arrivals (s : State) (g : Nat) (c : SCore) : (s.setScore g c).arrivals = s.arrivals := rfl
@[simp] theorem State.setScore_mcores (s : State) (g : Nat) (c : SCore) : (s.setScore g c).mcores = s.mcores := rfl
@[simp] theorem State.setScore_vcores (s : State) (g : Nat) (c : SCore) : (s.setScore g c).vcores = s.vcores := rfl
@[simp] theorem State.setScore_gens (s : State) (g : Nat) (c : SCore) : (s.setScore g c).gens = s.gens := rfl
@[simp] theorem State.setScore_pmem (s : State) (g : Nat) (c : SCore) : (s.setScore g c).pmem = s.pmem := rfl
@[simp] theorem State.setScore_opal (s : State) (g : Nat) (c : SCore) : (s.setScore g c).opal = s.opal := rfl
@[simp] theorem State.setScore_latches (s : State) (g : Nat) (c : SCore) : (s.setScore g c).latches = s.latches := rfl
@[simp] theorem State.setScore_saved (s : State) (g : Nat) (c : SCore) : (s.setScore g c).saved = s.saved := rfl
@[simp] theorem State.setScore_events (s : State) (g : Nat) (c : SCore) : (s.setScore g c).events = s.events := rfl
@[simp] theorem State.setScore_net (s : State) (g : Nat) (c : SCore) : (s.setScore g c).net = s.net := rfl
@[simp] theorem State.setScore_err (s : State) (g : Nat) (c : SCore) : (s.setScore g c).err = s.err := rfl
@[simp] theorem State.setScore_factory (s : State) (g : Nat) (c : SCore) : (s.setScore g c).factory = s.factory := rfl
@[simp] theorem State.setScore_overlay (s : State) (g : Nat) (c : SCore) : (s.setScore g c).overlay = s.overlay := rfl
@[simp] theorem State.setScore_parts (s : State) (g : Nat) (c : SCore) : (s.setScore g c).parts = s.parts := rfl
@[simp] theorem State.setScore_img (s : State) (g : Nat) (c : SCore) : (s.setScore g c).img = s.img := rfl
@[simp] theorem State.setScore_drams (s : State) (g : Nat) (c : SCore) : (s.setScore g c).drams = s.drams := rfl
@[simp] theorem State.setScore_colls (s : State) (g : Nat) (c : SCore) : (s.setScore g c).colls = s.colls := rfl
@[simp] theorem State.setScore_closed (s : State) (g : Nat) (c : SCore) : (s.setScore g c).closed = s.closed := rfl
@[simp] theorem State.setScore_drainDone (s : State) (g : Nat) (c : SCore) : (s.setScore g c).drainDone = s.drainDone := rfl
@[simp] theorem State.setScore_tests (s : State) (g : Nat) (c : SCore) : (s.setScore g c).tests = s.tests := rfl
@[simp] theorem State.setScore_time (s : State) (g : Nat) (c : SCore) : (s.setScore g c).time = s.time := rfl
@[simp] theorem State.setScore_clk (s : State) (g : Nat) (c : SCore) : (s.setScore g c).clk = s.clk := rfl
@[simp] theorem State.setScore_hub (s : State) (g : Nat) (c : SCore) : (s.setScore g c).hub = s.hub := rfl
@[simp] theorem State.setScore_trust (s : State) (g : Nat) (c : SCore) : (s.setScore g c).trust = s.trust := rfl
@[simp] theorem State.setScore_ports (s : State) (g : Nat) (c : SCore) : (s.setScore g c).ports = s.ports := rfl
@[simp] theorem State.setScore_ring (s : State) (g : Nat) (c : SCore) : (s.setScore g c).ring = s.ring := rfl
@[simp] theorem State.setScore_ref (s : State) (g : Nat) (c : SCore) : (s.setScore g c).ref = s.ref := rfl
@[simp] theorem State.setScore_lakes (s : State) (g : Nat) (c : SCore) : (s.setScore g c).lakes = s.lakes := rfl
@[simp] theorem State.setScore_pwr (s : State) (g : Nat) (c : SCore) : (s.setScore g c).pwr = s.pwr := rfl
@[simp] theorem State.setScore_telem (s : State) (g : Nat) (c : SCore) : (s.setScore g c).telem = s.telem := rfl
@[simp] theorem State.setScore_free (s : State) (g : Nat) (c : SCore) : (s.setScore g c).free = s.free := rfl
@[simp] theorem State.setScore_pending (s : State) (g : Nat) (c : SCore) : (s.setScore g c).pending = s.pending := rfl

/-! `putMem` writes mem. -/

@[simp] theorem State.putMem_regs (s : State) (k : Nat) (b : List Byte) : (s.putMem k b).regs = s.regs := rfl
@[simp] theorem State.putMem_bad (s : State) (k : Nat) (b : List Byte) : (s.putMem k b).bad = s.bad := rfl
@[simp] theorem State.putMem_hostMem (s : State) (k : Nat) (b : List Byte) : (s.putMem k b).hostMem = s.hostMem := rfl
@[simp] theorem State.putMem_queues (s : State) (k : Nat) (b : List Byte) : (s.putMem k b).queues = s.queues := rfl
@[simp] theorem State.putMem_steers (s : State) (k : Nat) (b : List Byte) : (s.putMem k b).steers = s.steers := rfl
@[simp] theorem State.putMem_springs (s : State) (k : Nat) (b : List Byte) : (s.putMem k b).springs = s.springs := rfl
@[simp] theorem State.putMem_waiters (s : State) (k : Nat) (b : List Byte) : (s.putMem k b).waiters = s.waiters := rfl
@[simp] theorem State.putMem_evals (s : State) (k : Nat) (b : List Byte) : (s.putMem k b).evals = s.evals := rfl
@[simp] theorem State.putMem_senders (s : State) (k : Nat) (b : List Byte) : (s.putMem k b).senders = s.senders := rfl
@[simp] theorem State.putMem_arrivals (s : State) (k : Nat) (b : List Byte) : (s.putMem k b).arrivals = s.arrivals := rfl
@[simp] theorem State.putMem_mcores (s : State) (k : Nat) (b : List Byte) : (s.putMem k b).mcores = s.mcores := rfl
@[simp] theorem State.putMem_vcores (s : State) (k : Nat) (b : List Byte) : (s.putMem k b).vcores = s.vcores := rfl
@[simp] theorem State.putMem_scores (s : State) (k : Nat) (b : List Byte) : (s.putMem k b).scores = s.scores := rfl
@[simp] theorem State.putMem_gens (s : State) (k : Nat) (b : List Byte) : (s.putMem k b).gens = s.gens := rfl
@[simp] theorem State.putMem_pmem (s : State) (k : Nat) (b : List Byte) : (s.putMem k b).pmem = s.pmem := rfl
@[simp] theorem State.putMem_opal (s : State) (k : Nat) (b : List Byte) : (s.putMem k b).opal = s.opal := rfl
@[simp] theorem State.putMem_latches (s : State) (k : Nat) (b : List Byte) : (s.putMem k b).latches = s.latches := rfl
@[simp] theorem State.putMem_saved (s : State) (k : Nat) (b : List Byte) : (s.putMem k b).saved = s.saved := rfl
@[simp] theorem State.putMem_events (s : State) (k : Nat) (b : List Byte) : (s.putMem k b).events = s.events := rfl
@[simp] theorem State.putMem_net (s : State) (k : Nat) (b : List Byte) : (s.putMem k b).net = s.net := rfl
@[simp] theorem State.putMem_err (s : State) (k : Nat) (b : List Byte) : (s.putMem k b).err = s.err := rfl
@[simp] theorem State.putMem_factory (s : State) (k : Nat) (b : List Byte) : (s.putMem k b).factory = s.factory := rfl
@[simp] theorem State.putMem_overlay (s : State) (k : Nat) (b : List Byte) : (s.putMem k b).overlay = s.overlay := rfl
@[simp] theorem State.putMem_parts (s : State) (k : Nat) (b : List Byte) : (s.putMem k b).parts = s.parts := rfl
@[simp] theorem State.putMem_img (s : State) (k : Nat) (b : List Byte) : (s.putMem k b).img = s.img := rfl
@[simp] theorem State.putMem_drams (s : State) (k : Nat) (b : List Byte) : (s.putMem k b).drams = s.drams := rfl
@[simp] theorem State.putMem_colls (s : State) (k : Nat) (b : List Byte) : (s.putMem k b).colls = s.colls := rfl
@[simp] theorem State.putMem_closed (s : State) (k : Nat) (b : List Byte) : (s.putMem k b).closed = s.closed := rfl
@[simp] theorem State.putMem_drainDone (s : State) (k : Nat) (b : List Byte) : (s.putMem k b).drainDone = s.drainDone := rfl
@[simp] theorem State.putMem_tests (s : State) (k : Nat) (b : List Byte) : (s.putMem k b).tests = s.tests := rfl
@[simp] theorem State.putMem_time (s : State) (k : Nat) (b : List Byte) : (s.putMem k b).time = s.time := rfl
@[simp] theorem State.putMem_clk (s : State) (k : Nat) (b : List Byte) : (s.putMem k b).clk = s.clk := rfl
@[simp] theorem State.putMem_hub (s : State) (k : Nat) (b : List Byte) : (s.putMem k b).hub = s.hub := rfl
@[simp] theorem State.putMem_trust (s : State) (k : Nat) (b : List Byte) : (s.putMem k b).trust = s.trust := rfl
@[simp] theorem State.putMem_ports (s : State) (k : Nat) (b : List Byte) : (s.putMem k b).ports = s.ports := rfl
@[simp] theorem State.putMem_ring (s : State) (k : Nat) (b : List Byte) : (s.putMem k b).ring = s.ring := rfl
@[simp] theorem State.putMem_ref (s : State) (k : Nat) (b : List Byte) : (s.putMem k b).ref = s.ref := rfl
@[simp] theorem State.putMem_lakes (s : State) (k : Nat) (b : List Byte) : (s.putMem k b).lakes = s.lakes := rfl
@[simp] theorem State.putMem_pwr (s : State) (k : Nat) (b : List Byte) : (s.putMem k b).pwr = s.pwr := rfl
@[simp] theorem State.putMem_telem (s : State) (k : Nat) (b : List Byte) : (s.putMem k b).telem = s.telem := rfl
@[simp] theorem State.putMem_free (s : State) (k : Nat) (b : List Byte) : (s.putMem k b).free = s.free := rfl
@[simp] theorem State.putMem_pending (s : State) (k : Nat) (b : List Byte) : (s.putMem k b).pending = s.pending := rfl

/-! `raise` writes events. -/

@[simp] theorem State.raise_regs (s : State) (g c i : Nat) : (s.raise g c i).regs = s.regs := rfl
@[simp] theorem State.raise_mem (s : State) (g c i : Nat) : (s.raise g c i).mem = s.mem := rfl
@[simp] theorem State.raise_bad (s : State) (g c i : Nat) : (s.raise g c i).bad = s.bad := rfl
@[simp] theorem State.raise_hostMem (s : State) (g c i : Nat) : (s.raise g c i).hostMem = s.hostMem := rfl
@[simp] theorem State.raise_queues (s : State) (g c i : Nat) : (s.raise g c i).queues = s.queues := rfl
@[simp] theorem State.raise_steers (s : State) (g c i : Nat) : (s.raise g c i).steers = s.steers := rfl
@[simp] theorem State.raise_springs (s : State) (g c i : Nat) : (s.raise g c i).springs = s.springs := rfl
@[simp] theorem State.raise_waiters (s : State) (g c i : Nat) : (s.raise g c i).waiters = s.waiters := rfl
@[simp] theorem State.raise_evals (s : State) (g c i : Nat) : (s.raise g c i).evals = s.evals := rfl
@[simp] theorem State.raise_senders (s : State) (g c i : Nat) : (s.raise g c i).senders = s.senders := rfl
@[simp] theorem State.raise_arrivals (s : State) (g c i : Nat) : (s.raise g c i).arrivals = s.arrivals := rfl
@[simp] theorem State.raise_mcores (s : State) (g c i : Nat) : (s.raise g c i).mcores = s.mcores := rfl
@[simp] theorem State.raise_vcores (s : State) (g c i : Nat) : (s.raise g c i).vcores = s.vcores := rfl
@[simp] theorem State.raise_scores (s : State) (g c i : Nat) : (s.raise g c i).scores = s.scores := rfl
@[simp] theorem State.raise_gens (s : State) (g c i : Nat) : (s.raise g c i).gens = s.gens := rfl
@[simp] theorem State.raise_pmem (s : State) (g c i : Nat) : (s.raise g c i).pmem = s.pmem := rfl
@[simp] theorem State.raise_opal (s : State) (g c i : Nat) : (s.raise g c i).opal = s.opal := rfl
@[simp] theorem State.raise_latches (s : State) (g c i : Nat) : (s.raise g c i).latches = s.latches := rfl
@[simp] theorem State.raise_saved (s : State) (g c i : Nat) : (s.raise g c i).saved = s.saved := rfl
@[simp] theorem State.raise_net (s : State) (g c i : Nat) : (s.raise g c i).net = s.net := rfl
@[simp] theorem State.raise_err (s : State) (g c i : Nat) : (s.raise g c i).err = s.err := rfl
@[simp] theorem State.raise_factory (s : State) (g c i : Nat) : (s.raise g c i).factory = s.factory := rfl
@[simp] theorem State.raise_overlay (s : State) (g c i : Nat) : (s.raise g c i).overlay = s.overlay := rfl
@[simp] theorem State.raise_parts (s : State) (g c i : Nat) : (s.raise g c i).parts = s.parts := rfl
@[simp] theorem State.raise_img (s : State) (g c i : Nat) : (s.raise g c i).img = s.img := rfl
@[simp] theorem State.raise_drams (s : State) (g c i : Nat) : (s.raise g c i).drams = s.drams := rfl
@[simp] theorem State.raise_colls (s : State) (g c i : Nat) : (s.raise g c i).colls = s.colls := rfl
@[simp] theorem State.raise_closed (s : State) (g c i : Nat) : (s.raise g c i).closed = s.closed := rfl
@[simp] theorem State.raise_drainDone (s : State) (g c i : Nat) : (s.raise g c i).drainDone = s.drainDone := rfl
@[simp] theorem State.raise_tests (s : State) (g c i : Nat) : (s.raise g c i).tests = s.tests := rfl
@[simp] theorem State.raise_time (s : State) (g c i : Nat) : (s.raise g c i).time = s.time := rfl
@[simp] theorem State.raise_clk (s : State) (g c i : Nat) : (s.raise g c i).clk = s.clk := rfl
@[simp] theorem State.raise_hub (s : State) (g c i : Nat) : (s.raise g c i).hub = s.hub := rfl
@[simp] theorem State.raise_trust (s : State) (g c i : Nat) : (s.raise g c i).trust = s.trust := rfl
@[simp] theorem State.raise_ports (s : State) (g c i : Nat) : (s.raise g c i).ports = s.ports := rfl
@[simp] theorem State.raise_ring (s : State) (g c i : Nat) : (s.raise g c i).ring = s.ring := rfl
@[simp] theorem State.raise_ref (s : State) (g c i : Nat) : (s.raise g c i).ref = s.ref := rfl
@[simp] theorem State.raise_lakes (s : State) (g c i : Nat) : (s.raise g c i).lakes = s.lakes := rfl
@[simp] theorem State.raise_pwr (s : State) (g c i : Nat) : (s.raise g c i).pwr = s.pwr := rfl
@[simp] theorem State.raise_telem (s : State) (g c i : Nat) : (s.raise g c i).telem = s.telem := rfl
@[simp] theorem State.raise_free (s : State) (g c i : Nat) : (s.raise g c i).free = s.free := rfl
@[simp] theorem State.raise_pending (s : State) (g c i : Nat) : (s.raise g c i).pending = s.pending := rfl

/-! `answer` writes hub. -/

@[simp] theorem State.answer_regs (s : State) (n : Nat) (b : List Byte) : (s.answer n b).regs = s.regs := rfl
@[simp] theorem State.answer_mem (s : State) (n : Nat) (b : List Byte) : (s.answer n b).mem = s.mem := rfl
@[simp] theorem State.answer_bad (s : State) (n : Nat) (b : List Byte) : (s.answer n b).bad = s.bad := rfl
@[simp] theorem State.answer_hostMem (s : State) (n : Nat) (b : List Byte) : (s.answer n b).hostMem = s.hostMem := rfl
@[simp] theorem State.answer_queues (s : State) (n : Nat) (b : List Byte) : (s.answer n b).queues = s.queues := rfl
@[simp] theorem State.answer_steers (s : State) (n : Nat) (b : List Byte) : (s.answer n b).steers = s.steers := rfl
@[simp] theorem State.answer_springs (s : State) (n : Nat) (b : List Byte) : (s.answer n b).springs = s.springs := rfl
@[simp] theorem State.answer_waiters (s : State) (n : Nat) (b : List Byte) : (s.answer n b).waiters = s.waiters := rfl
@[simp] theorem State.answer_evals (s : State) (n : Nat) (b : List Byte) : (s.answer n b).evals = s.evals := rfl
@[simp] theorem State.answer_senders (s : State) (n : Nat) (b : List Byte) : (s.answer n b).senders = s.senders := rfl
@[simp] theorem State.answer_arrivals (s : State) (n : Nat) (b : List Byte) : (s.answer n b).arrivals = s.arrivals := rfl
@[simp] theorem State.answer_mcores (s : State) (n : Nat) (b : List Byte) : (s.answer n b).mcores = s.mcores := rfl
@[simp] theorem State.answer_vcores (s : State) (n : Nat) (b : List Byte) : (s.answer n b).vcores = s.vcores := rfl
@[simp] theorem State.answer_scores (s : State) (n : Nat) (b : List Byte) : (s.answer n b).scores = s.scores := rfl
@[simp] theorem State.answer_gens (s : State) (n : Nat) (b : List Byte) : (s.answer n b).gens = s.gens := rfl
@[simp] theorem State.answer_pmem (s : State) (n : Nat) (b : List Byte) : (s.answer n b).pmem = s.pmem := rfl
@[simp] theorem State.answer_opal (s : State) (n : Nat) (b : List Byte) : (s.answer n b).opal = s.opal := rfl
@[simp] theorem State.answer_latches (s : State) (n : Nat) (b : List Byte) : (s.answer n b).latches = s.latches := rfl
@[simp] theorem State.answer_saved (s : State) (n : Nat) (b : List Byte) : (s.answer n b).saved = s.saved := rfl
@[simp] theorem State.answer_events (s : State) (n : Nat) (b : List Byte) : (s.answer n b).events = s.events := rfl
@[simp] theorem State.answer_net (s : State) (n : Nat) (b : List Byte) : (s.answer n b).net = s.net := rfl
@[simp] theorem State.answer_err (s : State) (n : Nat) (b : List Byte) : (s.answer n b).err = s.err := rfl
@[simp] theorem State.answer_factory (s : State) (n : Nat) (b : List Byte) : (s.answer n b).factory = s.factory := rfl
@[simp] theorem State.answer_overlay (s : State) (n : Nat) (b : List Byte) : (s.answer n b).overlay = s.overlay := rfl
@[simp] theorem State.answer_parts (s : State) (n : Nat) (b : List Byte) : (s.answer n b).parts = s.parts := rfl
@[simp] theorem State.answer_img (s : State) (n : Nat) (b : List Byte) : (s.answer n b).img = s.img := rfl
@[simp] theorem State.answer_drams (s : State) (n : Nat) (b : List Byte) : (s.answer n b).drams = s.drams := rfl
@[simp] theorem State.answer_colls (s : State) (n : Nat) (b : List Byte) : (s.answer n b).colls = s.colls := rfl
@[simp] theorem State.answer_closed (s : State) (n : Nat) (b : List Byte) : (s.answer n b).closed = s.closed := rfl
@[simp] theorem State.answer_drainDone (s : State) (n : Nat) (b : List Byte) : (s.answer n b).drainDone = s.drainDone := rfl
@[simp] theorem State.answer_tests (s : State) (n : Nat) (b : List Byte) : (s.answer n b).tests = s.tests := rfl
@[simp] theorem State.answer_time (s : State) (n : Nat) (b : List Byte) : (s.answer n b).time = s.time := rfl
@[simp] theorem State.answer_clk (s : State) (n : Nat) (b : List Byte) : (s.answer n b).clk = s.clk := rfl
@[simp] theorem State.answer_trust (s : State) (n : Nat) (b : List Byte) : (s.answer n b).trust = s.trust := rfl
@[simp] theorem State.answer_ports (s : State) (n : Nat) (b : List Byte) : (s.answer n b).ports = s.ports := rfl
@[simp] theorem State.answer_ring (s : State) (n : Nat) (b : List Byte) : (s.answer n b).ring = s.ring := rfl
@[simp] theorem State.answer_ref (s : State) (n : Nat) (b : List Byte) : (s.answer n b).ref = s.ref := rfl
@[simp] theorem State.answer_lakes (s : State) (n : Nat) (b : List Byte) : (s.answer n b).lakes = s.lakes := rfl
@[simp] theorem State.answer_pwr (s : State) (n : Nat) (b : List Byte) : (s.answer n b).pwr = s.pwr := rfl
@[simp] theorem State.answer_telem (s : State) (n : Nat) (b : List Byte) : (s.answer n b).telem = s.telem := rfl
@[simp] theorem State.answer_free (s : State) (n : Nat) (b : List Byte) : (s.answer n b).free = s.free := rfl
@[simp] theorem State.answer_pending (s : State) (n : Nat) (b : List Byte) : (s.answer n b).pending = s.pending := rfl

/-! `setQueue` writes queues. -/

@[simp] theorem State.setQueue_regs (s : State) (k : Nat) (q : TQueue) : (s.setQueue k q).regs = s.regs := rfl
@[simp] theorem State.setQueue_mem (s : State) (k : Nat) (q : TQueue) : (s.setQueue k q).mem = s.mem := rfl
@[simp] theorem State.setQueue_bad (s : State) (k : Nat) (q : TQueue) : (s.setQueue k q).bad = s.bad := rfl
@[simp] theorem State.setQueue_hostMem (s : State) (k : Nat) (q : TQueue) : (s.setQueue k q).hostMem = s.hostMem := rfl
@[simp] theorem State.setQueue_steers (s : State) (k : Nat) (q : TQueue) : (s.setQueue k q).steers = s.steers := rfl
@[simp] theorem State.setQueue_springs (s : State) (k : Nat) (q : TQueue) : (s.setQueue k q).springs = s.springs := rfl
@[simp] theorem State.setQueue_waiters (s : State) (k : Nat) (q : TQueue) : (s.setQueue k q).waiters = s.waiters := rfl
@[simp] theorem State.setQueue_evals (s : State) (k : Nat) (q : TQueue) : (s.setQueue k q).evals = s.evals := rfl
@[simp] theorem State.setQueue_senders (s : State) (k : Nat) (q : TQueue) : (s.setQueue k q).senders = s.senders := rfl
@[simp] theorem State.setQueue_arrivals (s : State) (k : Nat) (q : TQueue) : (s.setQueue k q).arrivals = s.arrivals := rfl
@[simp] theorem State.setQueue_mcores (s : State) (k : Nat) (q : TQueue) : (s.setQueue k q).mcores = s.mcores := rfl
@[simp] theorem State.setQueue_vcores (s : State) (k : Nat) (q : TQueue) : (s.setQueue k q).vcores = s.vcores := rfl
@[simp] theorem State.setQueue_scores (s : State) (k : Nat) (q : TQueue) : (s.setQueue k q).scores = s.scores := rfl
@[simp] theorem State.setQueue_gens (s : State) (k : Nat) (q : TQueue) : (s.setQueue k q).gens = s.gens := rfl
@[simp] theorem State.setQueue_pmem (s : State) (k : Nat) (q : TQueue) : (s.setQueue k q).pmem = s.pmem := rfl
@[simp] theorem State.setQueue_opal (s : State) (k : Nat) (q : TQueue) : (s.setQueue k q).opal = s.opal := rfl
@[simp] theorem State.setQueue_latches (s : State) (k : Nat) (q : TQueue) : (s.setQueue k q).latches = s.latches := rfl
@[simp] theorem State.setQueue_saved (s : State) (k : Nat) (q : TQueue) : (s.setQueue k q).saved = s.saved := rfl
@[simp] theorem State.setQueue_events (s : State) (k : Nat) (q : TQueue) : (s.setQueue k q).events = s.events := rfl
@[simp] theorem State.setQueue_net (s : State) (k : Nat) (q : TQueue) : (s.setQueue k q).net = s.net := rfl
@[simp] theorem State.setQueue_err (s : State) (k : Nat) (q : TQueue) : (s.setQueue k q).err = s.err := rfl
@[simp] theorem State.setQueue_factory (s : State) (k : Nat) (q : TQueue) : (s.setQueue k q).factory = s.factory := rfl
@[simp] theorem State.setQueue_overlay (s : State) (k : Nat) (q : TQueue) : (s.setQueue k q).overlay = s.overlay := rfl
@[simp] theorem State.setQueue_parts (s : State) (k : Nat) (q : TQueue) : (s.setQueue k q).parts = s.parts := rfl
@[simp] theorem State.setQueue_img (s : State) (k : Nat) (q : TQueue) : (s.setQueue k q).img = s.img := rfl
@[simp] theorem State.setQueue_drams (s : State) (k : Nat) (q : TQueue) : (s.setQueue k q).drams = s.drams := rfl
@[simp] theorem State.setQueue_colls (s : State) (k : Nat) (q : TQueue) : (s.setQueue k q).colls = s.colls := rfl
@[simp] theorem State.setQueue_closed (s : State) (k : Nat) (q : TQueue) : (s.setQueue k q).closed = s.closed := rfl
@[simp] theorem State.setQueue_drainDone (s : State) (k : Nat) (q : TQueue) : (s.setQueue k q).drainDone = s.drainDone := rfl
@[simp] theorem State.setQueue_tests (s : State) (k : Nat) (q : TQueue) : (s.setQueue k q).tests = s.tests := rfl
@[simp] theorem State.setQueue_time (s : State) (k : Nat) (q : TQueue) : (s.setQueue k q).time = s.time := rfl
@[simp] theorem State.setQueue_clk (s : State) (k : Nat) (q : TQueue) : (s.setQueue k q).clk = s.clk := rfl
@[simp] theorem State.setQueue_hub (s : State) (k : Nat) (q : TQueue) : (s.setQueue k q).hub = s.hub := rfl
@[simp] theorem State.setQueue_trust (s : State) (k : Nat) (q : TQueue) : (s.setQueue k q).trust = s.trust := rfl
@[simp] theorem State.setQueue_ports (s : State) (k : Nat) (q : TQueue) : (s.setQueue k q).ports = s.ports := rfl
@[simp] theorem State.setQueue_ring (s : State) (k : Nat) (q : TQueue) : (s.setQueue k q).ring = s.ring := rfl
@[simp] theorem State.setQueue_ref (s : State) (k : Nat) (q : TQueue) : (s.setQueue k q).ref = s.ref := rfl
@[simp] theorem State.setQueue_lakes (s : State) (k : Nat) (q : TQueue) : (s.setQueue k q).lakes = s.lakes := rfl
@[simp] theorem State.setQueue_pwr (s : State) (k : Nat) (q : TQueue) : (s.setQueue k q).pwr = s.pwr := rfl
@[simp] theorem State.setQueue_telem (s : State) (k : Nat) (q : TQueue) : (s.setQueue k q).telem = s.telem := rfl
@[simp] theorem State.setQueue_free (s : State) (k : Nat) (q : TQueue) : (s.setQueue k q).free = s.free := rfl
@[simp] theorem State.setQueue_pending (s : State) (k : Nat) (q : TQueue) : (s.setQueue k q).pending = s.pending := rfl

/-! `setSpring` writes springs. -/

@[simp] theorem State.setSpring_regs (s : State) (g n : Nat) (x : Spring) : (s.setSpring g n x).regs = s.regs := rfl
@[simp] theorem State.setSpring_mem (s : State) (g n : Nat) (x : Spring) : (s.setSpring g n x).mem = s.mem := rfl
@[simp] theorem State.setSpring_bad (s : State) (g n : Nat) (x : Spring) : (s.setSpring g n x).bad = s.bad := rfl
@[simp] theorem State.setSpring_hostMem (s : State) (g n : Nat) (x : Spring) : (s.setSpring g n x).hostMem = s.hostMem := rfl
@[simp] theorem State.setSpring_queues (s : State) (g n : Nat) (x : Spring) : (s.setSpring g n x).queues = s.queues := rfl
@[simp] theorem State.setSpring_steers (s : State) (g n : Nat) (x : Spring) : (s.setSpring g n x).steers = s.steers := rfl
@[simp] theorem State.setSpring_waiters (s : State) (g n : Nat) (x : Spring) : (s.setSpring g n x).waiters = s.waiters := rfl
@[simp] theorem State.setSpring_evals (s : State) (g n : Nat) (x : Spring) : (s.setSpring g n x).evals = s.evals := rfl
@[simp] theorem State.setSpring_senders (s : State) (g n : Nat) (x : Spring) : (s.setSpring g n x).senders = s.senders := rfl
@[simp] theorem State.setSpring_arrivals (s : State) (g n : Nat) (x : Spring) : (s.setSpring g n x).arrivals = s.arrivals := rfl
@[simp] theorem State.setSpring_mcores (s : State) (g n : Nat) (x : Spring) : (s.setSpring g n x).mcores = s.mcores := rfl
@[simp] theorem State.setSpring_vcores (s : State) (g n : Nat) (x : Spring) : (s.setSpring g n x).vcores = s.vcores := rfl
@[simp] theorem State.setSpring_scores (s : State) (g n : Nat) (x : Spring) : (s.setSpring g n x).scores = s.scores := rfl
@[simp] theorem State.setSpring_gens (s : State) (g n : Nat) (x : Spring) : (s.setSpring g n x).gens = s.gens := rfl
@[simp] theorem State.setSpring_pmem (s : State) (g n : Nat) (x : Spring) : (s.setSpring g n x).pmem = s.pmem := rfl
@[simp] theorem State.setSpring_opal (s : State) (g n : Nat) (x : Spring) : (s.setSpring g n x).opal = s.opal := rfl
@[simp] theorem State.setSpring_latches (s : State) (g n : Nat) (x : Spring) : (s.setSpring g n x).latches = s.latches := rfl
@[simp] theorem State.setSpring_saved (s : State) (g n : Nat) (x : Spring) : (s.setSpring g n x).saved = s.saved := rfl
@[simp] theorem State.setSpring_events (s : State) (g n : Nat) (x : Spring) : (s.setSpring g n x).events = s.events := rfl
@[simp] theorem State.setSpring_net (s : State) (g n : Nat) (x : Spring) : (s.setSpring g n x).net = s.net := rfl
@[simp] theorem State.setSpring_err (s : State) (g n : Nat) (x : Spring) : (s.setSpring g n x).err = s.err := rfl
@[simp] theorem State.setSpring_factory (s : State) (g n : Nat) (x : Spring) : (s.setSpring g n x).factory = s.factory := rfl
@[simp] theorem State.setSpring_overlay (s : State) (g n : Nat) (x : Spring) : (s.setSpring g n x).overlay = s.overlay := rfl
@[simp] theorem State.setSpring_parts (s : State) (g n : Nat) (x : Spring) : (s.setSpring g n x).parts = s.parts := rfl
@[simp] theorem State.setSpring_img (s : State) (g n : Nat) (x : Spring) : (s.setSpring g n x).img = s.img := rfl
@[simp] theorem State.setSpring_drams (s : State) (g n : Nat) (x : Spring) : (s.setSpring g n x).drams = s.drams := rfl
@[simp] theorem State.setSpring_colls (s : State) (g n : Nat) (x : Spring) : (s.setSpring g n x).colls = s.colls := rfl
@[simp] theorem State.setSpring_closed (s : State) (g n : Nat) (x : Spring) : (s.setSpring g n x).closed = s.closed := rfl
@[simp] theorem State.setSpring_drainDone (s : State) (g n : Nat) (x : Spring) : (s.setSpring g n x).drainDone = s.drainDone := rfl
@[simp] theorem State.setSpring_tests (s : State) (g n : Nat) (x : Spring) : (s.setSpring g n x).tests = s.tests := rfl
@[simp] theorem State.setSpring_time (s : State) (g n : Nat) (x : Spring) : (s.setSpring g n x).time = s.time := rfl
@[simp] theorem State.setSpring_clk (s : State) (g n : Nat) (x : Spring) : (s.setSpring g n x).clk = s.clk := rfl
@[simp] theorem State.setSpring_hub (s : State) (g n : Nat) (x : Spring) : (s.setSpring g n x).hub = s.hub := rfl
@[simp] theorem State.setSpring_trust (s : State) (g n : Nat) (x : Spring) : (s.setSpring g n x).trust = s.trust := rfl
@[simp] theorem State.setSpring_ports (s : State) (g n : Nat) (x : Spring) : (s.setSpring g n x).ports = s.ports := rfl
@[simp] theorem State.setSpring_ring (s : State) (g n : Nat) (x : Spring) : (s.setSpring g n x).ring = s.ring := rfl
@[simp] theorem State.setSpring_ref (s : State) (g n : Nat) (x : Spring) : (s.setSpring g n x).ref = s.ref := rfl
@[simp] theorem State.setSpring_lakes (s : State) (g n : Nat) (x : Spring) : (s.setSpring g n x).lakes = s.lakes := rfl
@[simp] theorem State.setSpring_pwr (s : State) (g n : Nat) (x : Spring) : (s.setSpring g n x).pwr = s.pwr := rfl
@[simp] theorem State.setSpring_telem (s : State) (g n : Nat) (x : Spring) : (s.setSpring g n x).telem = s.telem := rfl
@[simp] theorem State.setSpring_free (s : State) (g n : Nat) (x : Spring) : (s.setSpring g n x).free = s.free := rfl
@[simp] theorem State.setSpring_pending (s : State) (g n : Nat) (x : Spring) : (s.setSpring g n x).pending = s.pending := rfl

/-! `setMcore` writes mcores. -/

@[simp] theorem State.setMcore_regs (s : State) (g t : Nat) (x : MCore) : (s.setMcore g t x).regs = s.regs := rfl
@[simp] theorem State.setMcore_mem (s : State) (g t : Nat) (x : MCore) : (s.setMcore g t x).mem = s.mem := rfl
@[simp] theorem State.setMcore_bad (s : State) (g t : Nat) (x : MCore) : (s.setMcore g t x).bad = s.bad := rfl
@[simp] theorem State.setMcore_hostMem (s : State) (g t : Nat) (x : MCore) : (s.setMcore g t x).hostMem = s.hostMem := rfl
@[simp] theorem State.setMcore_queues (s : State) (g t : Nat) (x : MCore) : (s.setMcore g t x).queues = s.queues := rfl
@[simp] theorem State.setMcore_steers (s : State) (g t : Nat) (x : MCore) : (s.setMcore g t x).steers = s.steers := rfl
@[simp] theorem State.setMcore_springs (s : State) (g t : Nat) (x : MCore) : (s.setMcore g t x).springs = s.springs := rfl
@[simp] theorem State.setMcore_waiters (s : State) (g t : Nat) (x : MCore) : (s.setMcore g t x).waiters = s.waiters := rfl
@[simp] theorem State.setMcore_evals (s : State) (g t : Nat) (x : MCore) : (s.setMcore g t x).evals = s.evals := rfl
@[simp] theorem State.setMcore_senders (s : State) (g t : Nat) (x : MCore) : (s.setMcore g t x).senders = s.senders := rfl
@[simp] theorem State.setMcore_arrivals (s : State) (g t : Nat) (x : MCore) : (s.setMcore g t x).arrivals = s.arrivals := rfl
@[simp] theorem State.setMcore_vcores (s : State) (g t : Nat) (x : MCore) : (s.setMcore g t x).vcores = s.vcores := rfl
@[simp] theorem State.setMcore_scores (s : State) (g t : Nat) (x : MCore) : (s.setMcore g t x).scores = s.scores := rfl
@[simp] theorem State.setMcore_gens (s : State) (g t : Nat) (x : MCore) : (s.setMcore g t x).gens = s.gens := rfl
@[simp] theorem State.setMcore_pmem (s : State) (g t : Nat) (x : MCore) : (s.setMcore g t x).pmem = s.pmem := rfl
@[simp] theorem State.setMcore_opal (s : State) (g t : Nat) (x : MCore) : (s.setMcore g t x).opal = s.opal := rfl
@[simp] theorem State.setMcore_latches (s : State) (g t : Nat) (x : MCore) : (s.setMcore g t x).latches = s.latches := rfl
@[simp] theorem State.setMcore_saved (s : State) (g t : Nat) (x : MCore) : (s.setMcore g t x).saved = s.saved := rfl
@[simp] theorem State.setMcore_events (s : State) (g t : Nat) (x : MCore) : (s.setMcore g t x).events = s.events := rfl
@[simp] theorem State.setMcore_net (s : State) (g t : Nat) (x : MCore) : (s.setMcore g t x).net = s.net := rfl
@[simp] theorem State.setMcore_err (s : State) (g t : Nat) (x : MCore) : (s.setMcore g t x).err = s.err := rfl
@[simp] theorem State.setMcore_factory (s : State) (g t : Nat) (x : MCore) : (s.setMcore g t x).factory = s.factory := rfl
@[simp] theorem State.setMcore_overlay (s : State) (g t : Nat) (x : MCore) : (s.setMcore g t x).overlay = s.overlay := rfl
@[simp] theorem State.setMcore_parts (s : State) (g t : Nat) (x : MCore) : (s.setMcore g t x).parts = s.parts := rfl
@[simp] theorem State.setMcore_img (s : State) (g t : Nat) (x : MCore) : (s.setMcore g t x).img = s.img := rfl
@[simp] theorem State.setMcore_drams (s : State) (g t : Nat) (x : MCore) : (s.setMcore g t x).drams = s.drams := rfl
@[simp] theorem State.setMcore_colls (s : State) (g t : Nat) (x : MCore) : (s.setMcore g t x).colls = s.colls := rfl
@[simp] theorem State.setMcore_closed (s : State) (g t : Nat) (x : MCore) : (s.setMcore g t x).closed = s.closed := rfl
@[simp] theorem State.setMcore_drainDone (s : State) (g t : Nat) (x : MCore) : (s.setMcore g t x).drainDone = s.drainDone := rfl
@[simp] theorem State.setMcore_tests (s : State) (g t : Nat) (x : MCore) : (s.setMcore g t x).tests = s.tests := rfl
@[simp] theorem State.setMcore_time (s : State) (g t : Nat) (x : MCore) : (s.setMcore g t x).time = s.time := rfl
@[simp] theorem State.setMcore_clk (s : State) (g t : Nat) (x : MCore) : (s.setMcore g t x).clk = s.clk := rfl
@[simp] theorem State.setMcore_hub (s : State) (g t : Nat) (x : MCore) : (s.setMcore g t x).hub = s.hub := rfl
@[simp] theorem State.setMcore_trust (s : State) (g t : Nat) (x : MCore) : (s.setMcore g t x).trust = s.trust := rfl
@[simp] theorem State.setMcore_ports (s : State) (g t : Nat) (x : MCore) : (s.setMcore g t x).ports = s.ports := rfl
@[simp] theorem State.setMcore_ring (s : State) (g t : Nat) (x : MCore) : (s.setMcore g t x).ring = s.ring := rfl
@[simp] theorem State.setMcore_ref (s : State) (g t : Nat) (x : MCore) : (s.setMcore g t x).ref = s.ref := rfl
@[simp] theorem State.setMcore_lakes (s : State) (g t : Nat) (x : MCore) : (s.setMcore g t x).lakes = s.lakes := rfl
@[simp] theorem State.setMcore_pwr (s : State) (g t : Nat) (x : MCore) : (s.setMcore g t x).pwr = s.pwr := rfl
@[simp] theorem State.setMcore_telem (s : State) (g t : Nat) (x : MCore) : (s.setMcore g t x).telem = s.telem := rfl
@[simp] theorem State.setMcore_free (s : State) (g t : Nat) (x : MCore) : (s.setMcore g t x).free = s.free := rfl
@[simp] theorem State.setMcore_pending (s : State) (g t : Nat) (x : MCore) : (s.setMcore g t x).pending = s.pending := rfl

/-! `setVcore` writes vcores. -/

@[simp] theorem State.setVcore_regs (s : State) (g t : Nat) (x : VCore) : (s.setVcore g t x).regs = s.regs := rfl
@[simp] theorem State.setVcore_mem (s : State) (g t : Nat) (x : VCore) : (s.setVcore g t x).mem = s.mem := rfl
@[simp] theorem State.setVcore_bad (s : State) (g t : Nat) (x : VCore) : (s.setVcore g t x).bad = s.bad := rfl
@[simp] theorem State.setVcore_hostMem (s : State) (g t : Nat) (x : VCore) : (s.setVcore g t x).hostMem = s.hostMem := rfl
@[simp] theorem State.setVcore_queues (s : State) (g t : Nat) (x : VCore) : (s.setVcore g t x).queues = s.queues := rfl
@[simp] theorem State.setVcore_steers (s : State) (g t : Nat) (x : VCore) : (s.setVcore g t x).steers = s.steers := rfl
@[simp] theorem State.setVcore_springs (s : State) (g t : Nat) (x : VCore) : (s.setVcore g t x).springs = s.springs := rfl
@[simp] theorem State.setVcore_waiters (s : State) (g t : Nat) (x : VCore) : (s.setVcore g t x).waiters = s.waiters := rfl
@[simp] theorem State.setVcore_evals (s : State) (g t : Nat) (x : VCore) : (s.setVcore g t x).evals = s.evals := rfl
@[simp] theorem State.setVcore_senders (s : State) (g t : Nat) (x : VCore) : (s.setVcore g t x).senders = s.senders := rfl
@[simp] theorem State.setVcore_arrivals (s : State) (g t : Nat) (x : VCore) : (s.setVcore g t x).arrivals = s.arrivals := rfl
@[simp] theorem State.setVcore_mcores (s : State) (g t : Nat) (x : VCore) : (s.setVcore g t x).mcores = s.mcores := rfl
@[simp] theorem State.setVcore_scores (s : State) (g t : Nat) (x : VCore) : (s.setVcore g t x).scores = s.scores := rfl
@[simp] theorem State.setVcore_gens (s : State) (g t : Nat) (x : VCore) : (s.setVcore g t x).gens = s.gens := rfl
@[simp] theorem State.setVcore_pmem (s : State) (g t : Nat) (x : VCore) : (s.setVcore g t x).pmem = s.pmem := rfl
@[simp] theorem State.setVcore_opal (s : State) (g t : Nat) (x : VCore) : (s.setVcore g t x).opal = s.opal := rfl
@[simp] theorem State.setVcore_latches (s : State) (g t : Nat) (x : VCore) : (s.setVcore g t x).latches = s.latches := rfl
@[simp] theorem State.setVcore_saved (s : State) (g t : Nat) (x : VCore) : (s.setVcore g t x).saved = s.saved := rfl
@[simp] theorem State.setVcore_events (s : State) (g t : Nat) (x : VCore) : (s.setVcore g t x).events = s.events := rfl
@[simp] theorem State.setVcore_net (s : State) (g t : Nat) (x : VCore) : (s.setVcore g t x).net = s.net := rfl
@[simp] theorem State.setVcore_err (s : State) (g t : Nat) (x : VCore) : (s.setVcore g t x).err = s.err := rfl
@[simp] theorem State.setVcore_factory (s : State) (g t : Nat) (x : VCore) : (s.setVcore g t x).factory = s.factory := rfl
@[simp] theorem State.setVcore_overlay (s : State) (g t : Nat) (x : VCore) : (s.setVcore g t x).overlay = s.overlay := rfl
@[simp] theorem State.setVcore_parts (s : State) (g t : Nat) (x : VCore) : (s.setVcore g t x).parts = s.parts := rfl
@[simp] theorem State.setVcore_img (s : State) (g t : Nat) (x : VCore) : (s.setVcore g t x).img = s.img := rfl
@[simp] theorem State.setVcore_drams (s : State) (g t : Nat) (x : VCore) : (s.setVcore g t x).drams = s.drams := rfl
@[simp] theorem State.setVcore_colls (s : State) (g t : Nat) (x : VCore) : (s.setVcore g t x).colls = s.colls := rfl
@[simp] theorem State.setVcore_closed (s : State) (g t : Nat) (x : VCore) : (s.setVcore g t x).closed = s.closed := rfl
@[simp] theorem State.setVcore_drainDone (s : State) (g t : Nat) (x : VCore) : (s.setVcore g t x).drainDone = s.drainDone := rfl
@[simp] theorem State.setVcore_tests (s : State) (g t : Nat) (x : VCore) : (s.setVcore g t x).tests = s.tests := rfl
@[simp] theorem State.setVcore_time (s : State) (g t : Nat) (x : VCore) : (s.setVcore g t x).time = s.time := rfl
@[simp] theorem State.setVcore_clk (s : State) (g t : Nat) (x : VCore) : (s.setVcore g t x).clk = s.clk := rfl
@[simp] theorem State.setVcore_hub (s : State) (g t : Nat) (x : VCore) : (s.setVcore g t x).hub = s.hub := rfl
@[simp] theorem State.setVcore_trust (s : State) (g t : Nat) (x : VCore) : (s.setVcore g t x).trust = s.trust := rfl
@[simp] theorem State.setVcore_ports (s : State) (g t : Nat) (x : VCore) : (s.setVcore g t x).ports = s.ports := rfl
@[simp] theorem State.setVcore_ring (s : State) (g t : Nat) (x : VCore) : (s.setVcore g t x).ring = s.ring := rfl
@[simp] theorem State.setVcore_ref (s : State) (g t : Nat) (x : VCore) : (s.setVcore g t x).ref = s.ref := rfl
@[simp] theorem State.setVcore_lakes (s : State) (g t : Nat) (x : VCore) : (s.setVcore g t x).lakes = s.lakes := rfl
@[simp] theorem State.setVcore_pwr (s : State) (g t : Nat) (x : VCore) : (s.setVcore g t x).pwr = s.pwr := rfl
@[simp] theorem State.setVcore_telem (s : State) (g t : Nat) (x : VCore) : (s.setVcore g t x).telem = s.telem := rfl
@[simp] theorem State.setVcore_free (s : State) (g t : Nat) (x : VCore) : (s.setVcore g t x).free = s.free := rfl
@[simp] theorem State.setVcore_pending (s : State) (g t : Nat) (x : VCore) : (s.setVcore g t x).pending = s.pending := rfl

/-! `setGen` writes gens. -/

@[simp] theorem State.setGen_regs (s : State) (g t n : Nat) (x : Gen) : (s.setGen g t n x).regs = s.regs := rfl
@[simp] theorem State.setGen_mem (s : State) (g t n : Nat) (x : Gen) : (s.setGen g t n x).mem = s.mem := rfl
@[simp] theorem State.setGen_bad (s : State) (g t n : Nat) (x : Gen) : (s.setGen g t n x).bad = s.bad := rfl
@[simp] theorem State.setGen_hostMem (s : State) (g t n : Nat) (x : Gen) : (s.setGen g t n x).hostMem = s.hostMem := rfl
@[simp] theorem State.setGen_queues (s : State) (g t n : Nat) (x : Gen) : (s.setGen g t n x).queues = s.queues := rfl
@[simp] theorem State.setGen_steers (s : State) (g t n : Nat) (x : Gen) : (s.setGen g t n x).steers = s.steers := rfl
@[simp] theorem State.setGen_springs (s : State) (g t n : Nat) (x : Gen) : (s.setGen g t n x).springs = s.springs := rfl
@[simp] theorem State.setGen_waiters (s : State) (g t n : Nat) (x : Gen) : (s.setGen g t n x).waiters = s.waiters := rfl
@[simp] theorem State.setGen_evals (s : State) (g t n : Nat) (x : Gen) : (s.setGen g t n x).evals = s.evals := rfl
@[simp] theorem State.setGen_senders (s : State) (g t n : Nat) (x : Gen) : (s.setGen g t n x).senders = s.senders := rfl
@[simp] theorem State.setGen_arrivals (s : State) (g t n : Nat) (x : Gen) : (s.setGen g t n x).arrivals = s.arrivals := rfl
@[simp] theorem State.setGen_mcores (s : State) (g t n : Nat) (x : Gen) : (s.setGen g t n x).mcores = s.mcores := rfl
@[simp] theorem State.setGen_vcores (s : State) (g t n : Nat) (x : Gen) : (s.setGen g t n x).vcores = s.vcores := rfl
@[simp] theorem State.setGen_scores (s : State) (g t n : Nat) (x : Gen) : (s.setGen g t n x).scores = s.scores := rfl
@[simp] theorem State.setGen_pmem (s : State) (g t n : Nat) (x : Gen) : (s.setGen g t n x).pmem = s.pmem := rfl
@[simp] theorem State.setGen_opal (s : State) (g t n : Nat) (x : Gen) : (s.setGen g t n x).opal = s.opal := rfl
@[simp] theorem State.setGen_latches (s : State) (g t n : Nat) (x : Gen) : (s.setGen g t n x).latches = s.latches := rfl
@[simp] theorem State.setGen_saved (s : State) (g t n : Nat) (x : Gen) : (s.setGen g t n x).saved = s.saved := rfl
@[simp] theorem State.setGen_events (s : State) (g t n : Nat) (x : Gen) : (s.setGen g t n x).events = s.events := rfl
@[simp] theorem State.setGen_net (s : State) (g t n : Nat) (x : Gen) : (s.setGen g t n x).net = s.net := rfl
@[simp] theorem State.setGen_err (s : State) (g t n : Nat) (x : Gen) : (s.setGen g t n x).err = s.err := rfl
@[simp] theorem State.setGen_factory (s : State) (g t n : Nat) (x : Gen) : (s.setGen g t n x).factory = s.factory := rfl
@[simp] theorem State.setGen_overlay (s : State) (g t n : Nat) (x : Gen) : (s.setGen g t n x).overlay = s.overlay := rfl
@[simp] theorem State.setGen_parts (s : State) (g t n : Nat) (x : Gen) : (s.setGen g t n x).parts = s.parts := rfl
@[simp] theorem State.setGen_img (s : State) (g t n : Nat) (x : Gen) : (s.setGen g t n x).img = s.img := rfl
@[simp] theorem State.setGen_drams (s : State) (g t n : Nat) (x : Gen) : (s.setGen g t n x).drams = s.drams := rfl
@[simp] theorem State.setGen_colls (s : State) (g t n : Nat) (x : Gen) : (s.setGen g t n x).colls = s.colls := rfl
@[simp] theorem State.setGen_closed (s : State) (g t n : Nat) (x : Gen) : (s.setGen g t n x).closed = s.closed := rfl
@[simp] theorem State.setGen_drainDone (s : State) (g t n : Nat) (x : Gen) : (s.setGen g t n x).drainDone = s.drainDone := rfl
@[simp] theorem State.setGen_tests (s : State) (g t n : Nat) (x : Gen) : (s.setGen g t n x).tests = s.tests := rfl
@[simp] theorem State.setGen_time (s : State) (g t n : Nat) (x : Gen) : (s.setGen g t n x).time = s.time := rfl
@[simp] theorem State.setGen_clk (s : State) (g t n : Nat) (x : Gen) : (s.setGen g t n x).clk = s.clk := rfl
@[simp] theorem State.setGen_hub (s : State) (g t n : Nat) (x : Gen) : (s.setGen g t n x).hub = s.hub := rfl
@[simp] theorem State.setGen_trust (s : State) (g t n : Nat) (x : Gen) : (s.setGen g t n x).trust = s.trust := rfl
@[simp] theorem State.setGen_ports (s : State) (g t n : Nat) (x : Gen) : (s.setGen g t n x).ports = s.ports := rfl
@[simp] theorem State.setGen_ring (s : State) (g t n : Nat) (x : Gen) : (s.setGen g t n x).ring = s.ring := rfl
@[simp] theorem State.setGen_ref (s : State) (g t n : Nat) (x : Gen) : (s.setGen g t n x).ref = s.ref := rfl
@[simp] theorem State.setGen_lakes (s : State) (g t n : Nat) (x : Gen) : (s.setGen g t n x).lakes = s.lakes := rfl
@[simp] theorem State.setGen_pwr (s : State) (g t n : Nat) (x : Gen) : (s.setGen g t n x).pwr = s.pwr := rfl
@[simp] theorem State.setGen_telem (s : State) (g t n : Nat) (x : Gen) : (s.setGen g t n x).telem = s.telem := rfl
@[simp] theorem State.setGen_free (s : State) (g t n : Nat) (x : Gen) : (s.setGen g t n x).free = s.free := rfl
@[simp] theorem State.setGen_pending (s : State) (g t n : Nat) (x : Gen) : (s.setGen g t n x).pending = s.pending := rfl

/-! `setOpal` writes opal. -/

@[simp] theorem State.setOpal_regs (s : State) (g t : Nat) (x : OpalT) : (s.setOpal g t x).regs = s.regs := rfl
@[simp] theorem State.setOpal_mem (s : State) (g t : Nat) (x : OpalT) : (s.setOpal g t x).mem = s.mem := rfl
@[simp] theorem State.setOpal_bad (s : State) (g t : Nat) (x : OpalT) : (s.setOpal g t x).bad = s.bad := rfl
@[simp] theorem State.setOpal_hostMem (s : State) (g t : Nat) (x : OpalT) : (s.setOpal g t x).hostMem = s.hostMem := rfl
@[simp] theorem State.setOpal_queues (s : State) (g t : Nat) (x : OpalT) : (s.setOpal g t x).queues = s.queues := rfl
@[simp] theorem State.setOpal_steers (s : State) (g t : Nat) (x : OpalT) : (s.setOpal g t x).steers = s.steers := rfl
@[simp] theorem State.setOpal_springs (s : State) (g t : Nat) (x : OpalT) : (s.setOpal g t x).springs = s.springs := rfl
@[simp] theorem State.setOpal_waiters (s : State) (g t : Nat) (x : OpalT) : (s.setOpal g t x).waiters = s.waiters := rfl
@[simp] theorem State.setOpal_evals (s : State) (g t : Nat) (x : OpalT) : (s.setOpal g t x).evals = s.evals := rfl
@[simp] theorem State.setOpal_senders (s : State) (g t : Nat) (x : OpalT) : (s.setOpal g t x).senders = s.senders := rfl
@[simp] theorem State.setOpal_arrivals (s : State) (g t : Nat) (x : OpalT) : (s.setOpal g t x).arrivals = s.arrivals := rfl
@[simp] theorem State.setOpal_mcores (s : State) (g t : Nat) (x : OpalT) : (s.setOpal g t x).mcores = s.mcores := rfl
@[simp] theorem State.setOpal_vcores (s : State) (g t : Nat) (x : OpalT) : (s.setOpal g t x).vcores = s.vcores := rfl
@[simp] theorem State.setOpal_scores (s : State) (g t : Nat) (x : OpalT) : (s.setOpal g t x).scores = s.scores := rfl
@[simp] theorem State.setOpal_gens (s : State) (g t : Nat) (x : OpalT) : (s.setOpal g t x).gens = s.gens := rfl
@[simp] theorem State.setOpal_pmem (s : State) (g t : Nat) (x : OpalT) : (s.setOpal g t x).pmem = s.pmem := rfl
@[simp] theorem State.setOpal_latches (s : State) (g t : Nat) (x : OpalT) : (s.setOpal g t x).latches = s.latches := rfl
@[simp] theorem State.setOpal_saved (s : State) (g t : Nat) (x : OpalT) : (s.setOpal g t x).saved = s.saved := rfl
@[simp] theorem State.setOpal_events (s : State) (g t : Nat) (x : OpalT) : (s.setOpal g t x).events = s.events := rfl
@[simp] theorem State.setOpal_net (s : State) (g t : Nat) (x : OpalT) : (s.setOpal g t x).net = s.net := rfl
@[simp] theorem State.setOpal_err (s : State) (g t : Nat) (x : OpalT) : (s.setOpal g t x).err = s.err := rfl
@[simp] theorem State.setOpal_factory (s : State) (g t : Nat) (x : OpalT) : (s.setOpal g t x).factory = s.factory := rfl
@[simp] theorem State.setOpal_overlay (s : State) (g t : Nat) (x : OpalT) : (s.setOpal g t x).overlay = s.overlay := rfl
@[simp] theorem State.setOpal_parts (s : State) (g t : Nat) (x : OpalT) : (s.setOpal g t x).parts = s.parts := rfl
@[simp] theorem State.setOpal_img (s : State) (g t : Nat) (x : OpalT) : (s.setOpal g t x).img = s.img := rfl
@[simp] theorem State.setOpal_drams (s : State) (g t : Nat) (x : OpalT) : (s.setOpal g t x).drams = s.drams := rfl
@[simp] theorem State.setOpal_colls (s : State) (g t : Nat) (x : OpalT) : (s.setOpal g t x).colls = s.colls := rfl
@[simp] theorem State.setOpal_closed (s : State) (g t : Nat) (x : OpalT) : (s.setOpal g t x).closed = s.closed := rfl
@[simp] theorem State.setOpal_drainDone (s : State) (g t : Nat) (x : OpalT) : (s.setOpal g t x).drainDone = s.drainDone := rfl
@[simp] theorem State.setOpal_tests (s : State) (g t : Nat) (x : OpalT) : (s.setOpal g t x).tests = s.tests := rfl
@[simp] theorem State.setOpal_time (s : State) (g t : Nat) (x : OpalT) : (s.setOpal g t x).time = s.time := rfl
@[simp] theorem State.setOpal_clk (s : State) (g t : Nat) (x : OpalT) : (s.setOpal g t x).clk = s.clk := rfl
@[simp] theorem State.setOpal_hub (s : State) (g t : Nat) (x : OpalT) : (s.setOpal g t x).hub = s.hub := rfl
@[simp] theorem State.setOpal_trust (s : State) (g t : Nat) (x : OpalT) : (s.setOpal g t x).trust = s.trust := rfl
@[simp] theorem State.setOpal_ports (s : State) (g t : Nat) (x : OpalT) : (s.setOpal g t x).ports = s.ports := rfl
@[simp] theorem State.setOpal_ring (s : State) (g t : Nat) (x : OpalT) : (s.setOpal g t x).ring = s.ring := rfl
@[simp] theorem State.setOpal_ref (s : State) (g t : Nat) (x : OpalT) : (s.setOpal g t x).ref = s.ref := rfl
@[simp] theorem State.setOpal_lakes (s : State) (g t : Nat) (x : OpalT) : (s.setOpal g t x).lakes = s.lakes := rfl
@[simp] theorem State.setOpal_pwr (s : State) (g t : Nat) (x : OpalT) : (s.setOpal g t x).pwr = s.pwr := rfl
@[simp] theorem State.setOpal_telem (s : State) (g t : Nat) (x : OpalT) : (s.setOpal g t x).telem = s.telem := rfl
@[simp] theorem State.setOpal_free (s : State) (g t : Nat) (x : OpalT) : (s.setOpal g t x).free = s.free := rfl
@[simp] theorem State.setOpal_pending (s : State) (g t : Nat) (x : OpalT) : (s.setOpal g t x).pending = s.pending := rfl

/-! `recTile` writes err. -/

@[simp] theorem State.recTile_regs (s : State) (g t i k o d : Nat) : (s.recTile g t i k o d).regs = s.regs := rfl
@[simp] theorem State.recTile_mem (s : State) (g t i k o d : Nat) : (s.recTile g t i k o d).mem = s.mem := rfl
@[simp] theorem State.recTile_bad (s : State) (g t i k o d : Nat) : (s.recTile g t i k o d).bad = s.bad := rfl
@[simp] theorem State.recTile_hostMem (s : State) (g t i k o d : Nat) : (s.recTile g t i k o d).hostMem = s.hostMem := rfl
@[simp] theorem State.recTile_queues (s : State) (g t i k o d : Nat) : (s.recTile g t i k o d).queues = s.queues := rfl
@[simp] theorem State.recTile_steers (s : State) (g t i k o d : Nat) : (s.recTile g t i k o d).steers = s.steers := rfl
@[simp] theorem State.recTile_springs (s : State) (g t i k o d : Nat) : (s.recTile g t i k o d).springs = s.springs := rfl
@[simp] theorem State.recTile_waiters (s : State) (g t i k o d : Nat) : (s.recTile g t i k o d).waiters = s.waiters := rfl
@[simp] theorem State.recTile_evals (s : State) (g t i k o d : Nat) : (s.recTile g t i k o d).evals = s.evals := rfl
@[simp] theorem State.recTile_senders (s : State) (g t i k o d : Nat) : (s.recTile g t i k o d).senders = s.senders := rfl
@[simp] theorem State.recTile_arrivals (s : State) (g t i k o d : Nat) : (s.recTile g t i k o d).arrivals = s.arrivals := rfl
@[simp] theorem State.recTile_mcores (s : State) (g t i k o d : Nat) : (s.recTile g t i k o d).mcores = s.mcores := rfl
@[simp] theorem State.recTile_vcores (s : State) (g t i k o d : Nat) : (s.recTile g t i k o d).vcores = s.vcores := rfl
@[simp] theorem State.recTile_scores (s : State) (g t i k o d : Nat) : (s.recTile g t i k o d).scores = s.scores := rfl
@[simp] theorem State.recTile_gens (s : State) (g t i k o d : Nat) : (s.recTile g t i k o d).gens = s.gens := rfl
@[simp] theorem State.recTile_pmem (s : State) (g t i k o d : Nat) : (s.recTile g t i k o d).pmem = s.pmem := rfl
@[simp] theorem State.recTile_opal (s : State) (g t i k o d : Nat) : (s.recTile g t i k o d).opal = s.opal := rfl
@[simp] theorem State.recTile_latches (s : State) (g t i k o d : Nat) : (s.recTile g t i k o d).latches = s.latches := rfl
@[simp] theorem State.recTile_saved (s : State) (g t i k o d : Nat) : (s.recTile g t i k o d).saved = s.saved := rfl
@[simp] theorem State.recTile_events (s : State) (g t i k o d : Nat) : (s.recTile g t i k o d).events = s.events := rfl
@[simp] theorem State.recTile_net (s : State) (g t i k o d : Nat) : (s.recTile g t i k o d).net = s.net := rfl
@[simp] theorem State.recTile_factory (s : State) (g t i k o d : Nat) : (s.recTile g t i k o d).factory = s.factory := rfl
@[simp] theorem State.recTile_overlay (s : State) (g t i k o d : Nat) : (s.recTile g t i k o d).overlay = s.overlay := rfl
@[simp] theorem State.recTile_parts (s : State) (g t i k o d : Nat) : (s.recTile g t i k o d).parts = s.parts := rfl
@[simp] theorem State.recTile_img (s : State) (g t i k o d : Nat) : (s.recTile g t i k o d).img = s.img := rfl
@[simp] theorem State.recTile_drams (s : State) (g t i k o d : Nat) : (s.recTile g t i k o d).drams = s.drams := rfl
@[simp] theorem State.recTile_colls (s : State) (g t i k o d : Nat) : (s.recTile g t i k o d).colls = s.colls := rfl
@[simp] theorem State.recTile_closed (s : State) (g t i k o d : Nat) : (s.recTile g t i k o d).closed = s.closed := rfl
@[simp] theorem State.recTile_drainDone (s : State) (g t i k o d : Nat) : (s.recTile g t i k o d).drainDone = s.drainDone := rfl
@[simp] theorem State.recTile_tests (s : State) (g t i k o d : Nat) : (s.recTile g t i k o d).tests = s.tests := rfl
@[simp] theorem State.recTile_time (s : State) (g t i k o d : Nat) : (s.recTile g t i k o d).time = s.time := rfl
@[simp] theorem State.recTile_clk (s : State) (g t i k o d : Nat) : (s.recTile g t i k o d).clk = s.clk := rfl
@[simp] theorem State.recTile_hub (s : State) (g t i k o d : Nat) : (s.recTile g t i k o d).hub = s.hub := rfl
@[simp] theorem State.recTile_trust (s : State) (g t i k o d : Nat) : (s.recTile g t i k o d).trust = s.trust := rfl
@[simp] theorem State.recTile_ports (s : State) (g t i k o d : Nat) : (s.recTile g t i k o d).ports = s.ports := rfl
@[simp] theorem State.recTile_ring (s : State) (g t i k o d : Nat) : (s.recTile g t i k o d).ring = s.ring := rfl
@[simp] theorem State.recTile_ref (s : State) (g t i k o d : Nat) : (s.recTile g t i k o d).ref = s.ref := rfl
@[simp] theorem State.recTile_lakes (s : State) (g t i k o d : Nat) : (s.recTile g t i k o d).lakes = s.lakes := rfl
@[simp] theorem State.recTile_pwr (s : State) (g t i k o d : Nat) : (s.recTile g t i k o d).pwr = s.pwr := rfl
@[simp] theorem State.recTile_telem (s : State) (g t i k o d : Nat) : (s.recTile g t i k o d).telem = s.telem := rfl
@[simp] theorem State.recTile_free (s : State) (g t i k o d : Nat) : (s.recTile g t i k o d).free = s.free := rfl
@[simp] theorem State.recTile_pending (s : State) (g t i k o d : Nat) : (s.recTile g t i k o d).pending = s.pending := rfl

end Sys2Proof.Machine
end

