-- ==== Sys2Proof/Laws/Regs.lean ====
section
/-! SUPPORT. Reading a register field after writing one (R6), counters, and the accessors under register writes. -/

namespace Sys2Proof.Machine

/-! Keys. -/

/-- The place of a field inside its unit. -/
def Fld.slot (f : Fld) (i : Nat) : Nat := (f.off + i * f.stride) * 64 + f.lo

theorem Fld.key_eq (u : UnitId) (f : Fld) (i : Nat) : f.key u i = u.idx * 2 ^ 29 + f.slot i := by
  unfold Fld.key Fld.slot; omega

/-- Two fields of one unit differ in their keys as in their places. -/
theorem Fld.key_ne (u : UnitId) {f f' : Fld} {i i' : Nat} (h : f.slot i ≠ f'.slot i') : f.key u i ≠ f'.key u i' := by
  rw [Fld.key_eq, Fld.key_eq]; omega

/-- Fields of different units, when their places lie inside the unit. -/
theorem Fld.key_ne_unit {u u' : UnitId} {f f' : Fld} {i i' : Nat} (hu : u.idx ≠ u'.idx) (h : f.slot i < 2 ^ 29)
    (h' : f'.slot i' < 2 ^ 29) : f.key u i ≠ f'.key u' i' := by
  rw [Fld.key_eq, Fld.key_eq]; omega

/-! Reading after writing. -/

@[simp] theorem State.rdi_wri_self (s : State) (u : UnitId) (f : Fld) (i v : Nat) :
    (s.wri u f i v).rdi u f i = v % 2 ^ f.width := by simp [State.rdi, State.wri]

theorem State.rdi_wri_ne (s : State) {u u' : UnitId} {f f' : Fld} {i i' : Nat} (v : Nat)
    (h : f'.key u' i' ≠ f.key u i) : (s.wri u f i v).rdi u' f' i' = s.rdi u' f' i' := by
  simp only [State.rdi, State.wri]; exact Tab.get_set_ne _ _ _ _ _ _ h

@[simp] theorem State.rd_wr_self (s : State) (u : UnitId) (f : Fld) (v : Nat) : (s.wr u f v).rd u f = v % 2 ^ f.width :=
  State.rdi_wri_self s u f 0 v

theorem State.rd_wr_ne (s : State) {u u' : UnitId} {f f' : Fld} (v : Nat) (h : f'.key u' 0 ≠ f.key u 0) :
    (s.wr u f v).rd u' f' = s.rd u' f' := State.rdi_wri_ne s v h

/-- Another field of the same unit. -/
theorem State.rd_wr_slot (s : State) (u : UnitId) {f f' : Fld} (v : Nat) (h : f'.slot 0 ≠ f.slot 0) :
    (s.wr u f v).rd u f' = s.rd u f' := State.rd_wr_ne s v (Fld.key_ne u h)

theorem State.rdi_wri_slot (s : State) (u : UnitId) {f f' : Fld} {i i' : Nat} (v : Nat) (h : f'.slot i' ≠ f.slot i) :
    (s.wri u f i v).rdi u f' i' = s.rdi u f' i' := State.rdi_wri_ne s v (Fld.key_ne u h)

/-! Counters (R457). -/

/-- The counter itself. -/
theorem State.rdi_counti_self (s : State) (u : UnitId) (f : Fld) (i : Nat) (w : Fld) (j b n : Nat) (hw : f.width = 48)
    (h : f.key u i ≠ w.key u j) : (s.counti u f i w j b n).rdi u f i = (s.rdi u f i + n) % 2 ^ 48 := by
  unfold State.counti
  dsimp only
  split
  · simp [hw]
  · unfold State.setBiti
    split
    · simp [hw]
    · rw [State.rdi_wri_ne _ _ h, State.rdi_wri_self, hw]; simp

/-- Any other register but the wrap register. -/
theorem State.rdi_counti_ne (s : State) {u u' : UnitId} {f f' : Fld} {i i' : Nat} {w : Fld} {j : Nat} (b n : Nat)
    (h : f'.key u' i' ≠ f.key u i) (h' : f'.key u' i' ≠ w.key u j) :
    (s.counti u f i w j b n).rdi u' f' i' = s.rdi u' f' i' := by
  unfold State.counti
  dsimp only
  split
  · exact State.rdi_wri_ne _ _ h
  · unfold State.setBiti
    split
    · exact State.rdi_wri_ne _ _ h
    · rw [State.rdi_wri_ne _ _ h', State.rdi_wri_ne _ _ h]

theorem State.rd_count_ne (s : State) {u u' : UnitId} {f f' w : Fld} (b n : Nat) (h : f'.key u' 0 ≠ f.key u 0)
    (h' : f'.key u' 0 ≠ w.key u 0) : (s.count u f w b n).rd u' f' = s.rd u' f' := State.rdi_counti_ne s b n h h'

theorem State.rd_count_slot (s : State) (u : UnitId) {f f' w : Fld} (b n : Nat) (h : f'.slot 0 ≠ f.slot 0)
    (h' : f'.slot 0 ≠ w.slot 0) : (s.count u f w b n).rd u f' = s.rd u f' :=
  State.rd_count_ne s b n (Fld.key_ne u h) (Fld.key_ne u h')

/-- A saturating counter. -/
theorem State.rdi_sati_self (s : State) (u : UnitId) (f : Fld) (i n : Nat) (hw : f.width = 32) :
    (s.sati u f i n).rdi u f i = min (s.rdi u f i + n) 0xFFFFFFFF := by
  unfold State.sati
  rw [State.rdi_wri_self, hw]
  exact Nat.mod_eq_of_lt (by have := Nat.min_le_right (s.rdi u f i + n) 0xFFFFFFFF; omega)

/-! Accessors that read no register. -/

@[simp] theorem State.score_wr (s : State) (u : UnitId) (f : Fld) (v g : Nat) : (s.wr u f v).score g = s.score g := rfl
@[simp] theorem State.greg_wr (s : State) (u : UnitId) (f : Fld) (v g n : Nat) : (s.wr u f v).greg g n = s.greg g n := rfl
@[simp] theorem State.spring_wr (s : State) (u : UnitId) (f : Fld) (v g n : Nat) : (s.wr u f v).spring g n = s.spring g n := rfl
@[simp] theorem State.queue_wr (s : State) (u : UnitId) (f : Fld) (v k : Nat) : (s.wr u f v).queue k = s.queue k := rfl
@[simp] theorem State.opalOf_wr (s : State) (u : UnitId) (f : Fld) (v g t : Nat) : (s.wr u f v).opalOf g t = s.opalOf g t := rfl
@[simp] theorem State.tileW_wr (s : State) (u : UnitId) (f : Fld) (v g t : Nat) : (s.wr u f v).tileW g t = s.tileW g t := rfl
@[simp] theorem State.score_count (s : State) (u : UnitId) (f w : Fld) (b n g : Nat) :
    (s.count u f w b n).score g = s.score g := by rw [State.count_eq]; rfl
@[simp] theorem State.score_setScore (s : State) (g : Nat) (c : SCore) : (s.setScore g c).score g = c := by
  simp [State.score, State.setScore]
theorem State.score_setScore_ne (s : State) {g g' : Nat} (c : SCore) (h : g' ≠ g) : (s.setScore g c).score g' = s.score g' :=
  Tab.get_set_ne _ _ _ _ _ _ h
@[simp] theorem State.spring_setSpring (s : State) (g n : Nat) (x : Spring) : (s.setSpring g n x).spring g n = x := by
  simp [State.spring, State.setSpring]
@[simp] theorem State.queue_setQueue (s : State) (k : Nat) (q : TQueue) : (s.setQueue k q).queue k = q := by
  simp [State.queue, State.setQueue]
@[simp] theorem State.mcore_setMcore (s : State) (g t : Nat) (x : MCore) : (s.setMcore g t x).mcore g t = x := by
  simp [State.mcore, State.setMcore]
@[simp] theorem State.vcore_setVcore (s : State) (g t : Nat) (x : VCore) : (s.setVcore g t x).vcore g t = x := by
  simp [State.vcore, State.setVcore]
@[simp] theorem State.gen_setGen (s : State) (g t n : Nat) (x : Gen) : (s.setGen g t n x).gen g t n = x := by
  simp [State.gen, State.setGen]

/-! What every command leaves (Machine/Exec.lean). -/

theorem State.ends_next (s t r : State) (h : s.ends t = .next r) : r.pending = s.pending ∧ r.factory = s.factory := by
  simp only [State.ends, Host.Outcome.next.injEq] at h; subst h; exact ⟨rfl, rfl⟩

theorem State.endsOutside_next (s t r : State) (h : s.endsOutside t = .next r) :
    r.pending = s.pending ∧ r.factory = s.factory ∧ r.trust = s.trust := by
  simp only [State.endsOutside, State.ends, Host.Outcome.next.injEq] at h; subst h; exact ⟨rfl, rfl, rfl⟩

theorem State.endsQuiet_next (s t r : State) (h : s.endsQuiet t = .next r) :
    r.pending = s.pending ∧ r.factory = s.factory ∧ r.trust = s.trust ∧ r.mem = s.mem := by
  simp only [State.endsQuiet, State.endsOutside, State.ends, Host.Outcome.next.injEq] at h; subst h; exact ⟨rfl, rfl, rfl, rfl⟩

/-- A state that keeps the queue of commands, the factory map and chapter 18's state is what the command answers. -/
theorem State.endsOutside_of {s t : State} (hp : t.pending = s.pending) (hf : t.factory = s.factory) (ht : t.trust = s.trust) :
    s.endsOutside t = .next t := by
  unfold State.endsOutside State.ends; rw [← hp, ← hf, ← ht]

theorem State.ends_of {s t : State} (hp : t.pending = s.pending) (hf : t.factory = s.factory) : s.ends t = .next t := by
  unfold State.ends; rw [← hp, ← hf]

/-! Where a command acts. -/

theorem State.atCore_of {s : State} {g t : Nat} {f : State → State} (hc : s.clocked g = true) (hw : s.withheld g t = false)
    (ht : (s.tileW g t).testBit 0 = false) (ho : s.tileOff g t = false) : s.atCore g t f = f s := by
  simp [State.atCore, hc, hw, ht, ho]
theorem State.atPond_of {s : State} {g : Nat} {f : State → State} (hc : s.clocked g = true) : s.atPond g f = f s := by
  simp [State.atPond, hc]
theorem State.atUnit_of {s : State} {u : UnitId} {f : State → State} (h : s.ctrAbsent u = false) : s.atUnit u f = f s := by
  simp [State.atUnit, h]
theorem State.atHub_of {s : State} {f : State → State} (h : s.hubOn = true) : s.atHub f = f s := by simp [State.atHub, h]

end Sys2Proof.Machine
end

