-- ==== Sys2Proof/Laws/Shared.lean ====
section
/-! SUPPORT. What the shared operations can touch: each equals the state with only those fields changed, and every other field
is as before. -/

namespace Sys2Proof.Machine

theorem State.sendMsix_eq (s : State) (v : Nat) :
    s.sendMsix v = { s with
      hub := (s.sendMsix v).hub } := rfl

@[simp] theorem State.sendMsix_regs (s : State) (v : Nat) : (s.sendMsix v).regs = s.regs := by rw [State.sendMsix_eq]
@[simp] theorem State.sendMsix_mem (s : State) (v : Nat) : (s.sendMsix v).mem = s.mem := by rw [State.sendMsix_eq]
@[simp] theorem State.sendMsix_bad (s : State) (v : Nat) : (s.sendMsix v).bad = s.bad := by rw [State.sendMsix_eq]
@[simp] theorem State.sendMsix_hostMem (s : State) (v : Nat) : (s.sendMsix v).hostMem = s.hostMem := by rw [State.sendMsix_eq]
@[simp] theorem State.sendMsix_queues (s : State) (v : Nat) : (s.sendMsix v).queues = s.queues := by rw [State.sendMsix_eq]
@[simp] theorem State.sendMsix_steers (s : State) (v : Nat) : (s.sendMsix v).steers = s.steers := by rw [State.sendMsix_eq]
@[simp] theorem State.sendMsix_springs (s : State) (v : Nat) : (s.sendMsix v).springs = s.springs := by rw [State.sendMsix_eq]
@[simp] theorem State.sendMsix_waiters (s : State) (v : Nat) : (s.sendMsix v).waiters = s.waiters := by rw [State.sendMsix_eq]
@[simp] theorem State.sendMsix_evals (s : State) (v : Nat) : (s.sendMsix v).evals = s.evals := by rw [State.sendMsix_eq]
@[simp] theorem State.sendMsix_senders (s : State) (v : Nat) : (s.sendMsix v).senders = s.senders := by rw [State.sendMsix_eq]
@[simp] theorem State.sendMsix_arrivals (s : State) (v : Nat) : (s.sendMsix v).arrivals = s.arrivals := by rw [State.sendMsix_eq]
@[simp] theorem State.sendMsix_mcores (s : State) (v : Nat) : (s.sendMsix v).mcores = s.mcores := by rw [State.sendMsix_eq]
@[simp] theorem State.sendMsix_vcores (s : State) (v : Nat) : (s.sendMsix v).vcores = s.vcores := by rw [State.sendMsix_eq]
@[simp] theorem State.sendMsix_scores (s : State) (v : Nat) : (s.sendMsix v).scores = s.scores := by rw [State.sendMsix_eq]
@[simp] theorem State.sendMsix_gens (s : State) (v : Nat) : (s.sendMsix v).gens = s.gens := by rw [State.sendMsix_eq]
@[simp] theorem State.sendMsix_pmem (s : State) (v : Nat) : (s.sendMsix v).pmem = s.pmem := by rw [State.sendMsix_eq]
@[simp] theorem State.sendMsix_opal (s : State) (v : Nat) : (s.sendMsix v).opal = s.opal := by rw [State.sendMsix_eq]
@[simp] theorem State.sendMsix_latches (s : State) (v : Nat) : (s.sendMsix v).latches = s.latches := by rw [State.sendMsix_eq]
@[simp] theorem State.sendMsix_saved (s : State) (v : Nat) : (s.sendMsix v).saved = s.saved := by rw [State.sendMsix_eq]
@[simp] theorem State.sendMsix_events (s : State) (v : Nat) : (s.sendMsix v).events = s.events := by rw [State.sendMsix_eq]
@[simp] theorem State.sendMsix_net (s : State) (v : Nat) : (s.sendMsix v).net = s.net := by rw [State.sendMsix_eq]
@[simp] theorem State.sendMsix_err (s : State) (v : Nat) : (s.sendMsix v).err = s.err := by rw [State.sendMsix_eq]
@[simp] theorem State.sendMsix_factory (s : State) (v : Nat) : (s.sendMsix v).factory = s.factory := by rw [State.sendMsix_eq]
@[simp] theorem State.sendMsix_overlay (s : State) (v : Nat) : (s.sendMsix v).overlay = s.overlay := by rw [State.sendMsix_eq]
@[simp] theorem State.sendMsix_parts (s : State) (v : Nat) : (s.sendMsix v).parts = s.parts := by rw [State.sendMsix_eq]
@[simp] theorem State.sendMsix_img (s : State) (v : Nat) : (s.sendMsix v).img = s.img := by rw [State.sendMsix_eq]
@[simp] theorem State.sendMsix_drams (s : State) (v : Nat) : (s.sendMsix v).drams = s.drams := by rw [State.sendMsix_eq]
@[simp] theorem State.sendMsix_colls (s : State) (v : Nat) : (s.sendMsix v).colls = s.colls := by rw [State.sendMsix_eq]
@[simp] theorem State.sendMsix_closed (s : State) (v : Nat) : (s.sendMsix v).closed = s.closed := by rw [State.sendMsix_eq]
@[simp] theorem State.sendMsix_drainDone (s : State) (v : Nat) : (s.sendMsix v).drainDone = s.drainDone := by rw [State.sendMsix_eq]
@[simp] theorem State.sendMsix_tests (s : State) (v : Nat) : (s.sendMsix v).tests = s.tests := by rw [State.sendMsix_eq]
@[simp] theorem State.sendMsix_time (s : State) (v : Nat) : (s.sendMsix v).time = s.time := by rw [State.sendMsix_eq]
@[simp] theorem State.sendMsix_clk (s : State) (v : Nat) : (s.sendMsix v).clk = s.clk := by rw [State.sendMsix_eq]
@[simp] theorem State.sendMsix_trust (s : State) (v : Nat) : (s.sendMsix v).trust = s.trust := by rw [State.sendMsix_eq]
@[simp] theorem State.sendMsix_ports (s : State) (v : Nat) : (s.sendMsix v).ports = s.ports := by rw [State.sendMsix_eq]
@[simp] theorem State.sendMsix_ring (s : State) (v : Nat) : (s.sendMsix v).ring = s.ring := by rw [State.sendMsix_eq]
@[simp] theorem State.sendMsix_ref (s : State) (v : Nat) : (s.sendMsix v).ref = s.ref := by rw [State.sendMsix_eq]
@[simp] theorem State.sendMsix_lakes (s : State) (v : Nat) : (s.sendMsix v).lakes = s.lakes := by rw [State.sendMsix_eq]
@[simp] theorem State.sendMsix_pwr (s : State) (v : Nat) : (s.sendMsix v).pwr = s.pwr := by rw [State.sendMsix_eq]
@[simp] theorem State.sendMsix_telem (s : State) (v : Nat) : (s.sendMsix v).telem = s.telem := by rw [State.sendMsix_eq]
@[simp] theorem State.sendMsix_free (s : State) (v : Nat) : (s.sendMsix v).free = s.free := by rw [State.sendMsix_eq]
@[simp] theorem State.sendMsix_pending (s : State) (v : Nat) : (s.sendMsix v).pending = s.pending := by rw [State.sendMsix_eq]

theorem State.freeSlot_eq (s : State) (n : Nat) :
    s.freeSlot n = { s with
      hub := (s.freeSlot n).hub } := rfl

@[simp] theorem State.freeSlot_regs (s : State) (n : Nat) : (s.freeSlot n).regs = s.regs := by rw [State.freeSlot_eq]
@[simp] theorem State.freeSlot_mem (s : State) (n : Nat) : (s.freeSlot n).mem = s.mem := by rw [State.freeSlot_eq]
@[simp] theorem State.freeSlot_bad (s : State) (n : Nat) : (s.freeSlot n).bad = s.bad := by rw [State.freeSlot_eq]
@[simp] theorem State.freeSlot_hostMem (s : State) (n : Nat) : (s.freeSlot n).hostMem = s.hostMem := by rw [State.freeSlot_eq]
@[simp] theorem State.freeSlot_queues (s : State) (n : Nat) : (s.freeSlot n).queues = s.queues := by rw [State.freeSlot_eq]
@[simp] theorem State.freeSlot_steers (s : State) (n : Nat) : (s.freeSlot n).steers = s.steers := by rw [State.freeSlot_eq]
@[simp] theorem State.freeSlot_springs (s : State) (n : Nat) : (s.freeSlot n).springs = s.springs := by rw [State.freeSlot_eq]
@[simp] theorem State.freeSlot_waiters (s : State) (n : Nat) : (s.freeSlot n).waiters = s.waiters := by rw [State.freeSlot_eq]
@[simp] theorem State.freeSlot_evals (s : State) (n : Nat) : (s.freeSlot n).evals = s.evals := by rw [State.freeSlot_eq]
@[simp] theorem State.freeSlot_senders (s : State) (n : Nat) : (s.freeSlot n).senders = s.senders := by rw [State.freeSlot_eq]
@[simp] theorem State.freeSlot_arrivals (s : State) (n : Nat) : (s.freeSlot n).arrivals = s.arrivals := by rw [State.freeSlot_eq]
@[simp] theorem State.freeSlot_mcores (s : State) (n : Nat) : (s.freeSlot n).mcores = s.mcores := by rw [State.freeSlot_eq]
@[simp] theorem State.freeSlot_vcores (s : State) (n : Nat) : (s.freeSlot n).vcores = s.vcores := by rw [State.freeSlot_eq]
@[simp] theorem State.freeSlot_scores (s : State) (n : Nat) : (s.freeSlot n).scores = s.scores := by rw [State.freeSlot_eq]
@[simp] theorem State.freeSlot_gens (s : State) (n : Nat) : (s.freeSlot n).gens = s.gens := by rw [State.freeSlot_eq]
@[simp] theorem State.freeSlot_pmem (s : State) (n : Nat) : (s.freeSlot n).pmem = s.pmem := by rw [State.freeSlot_eq]
@[simp] theorem State.freeSlot_opal (s : State) (n : Nat) : (s.freeSlot n).opal = s.opal := by rw [State.freeSlot_eq]
@[simp] theorem State.freeSlot_latches (s : State) (n : Nat) : (s.freeSlot n).latches = s.latches := by rw [State.freeSlot_eq]
@[simp] theorem State.freeSlot_saved (s : State) (n : Nat) : (s.freeSlot n).saved = s.saved := by rw [State.freeSlot_eq]
@[simp] theorem State.freeSlot_events (s : State) (n : Nat) : (s.freeSlot n).events = s.events := by rw [State.freeSlot_eq]
@[simp] theorem State.freeSlot_net (s : State) (n : Nat) : (s.freeSlot n).net = s.net := by rw [State.freeSlot_eq]
@[simp] theorem State.freeSlot_err (s : State) (n : Nat) : (s.freeSlot n).err = s.err := by rw [State.freeSlot_eq]
@[simp] theorem State.freeSlot_factory (s : State) (n : Nat) : (s.freeSlot n).factory = s.factory := by rw [State.freeSlot_eq]
@[simp] theorem State.freeSlot_overlay (s : State) (n : Nat) : (s.freeSlot n).overlay = s.overlay := by rw [State.freeSlot_eq]
@[simp] theorem State.freeSlot_parts (s : State) (n : Nat) : (s.freeSlot n).parts = s.parts := by rw [State.freeSlot_eq]
@[simp] theorem State.freeSlot_img (s : State) (n : Nat) : (s.freeSlot n).img = s.img := by rw [State.freeSlot_eq]
@[simp] theorem State.freeSlot_drams (s : State) (n : Nat) : (s.freeSlot n).drams = s.drams := by rw [State.freeSlot_eq]
@[simp] theorem State.freeSlot_colls (s : State) (n : Nat) : (s.freeSlot n).colls = s.colls := by rw [State.freeSlot_eq]
@[simp] theorem State.freeSlot_closed (s : State) (n : Nat) : (s.freeSlot n).closed = s.closed := by rw [State.freeSlot_eq]
@[simp] theorem State.freeSlot_drainDone (s : State) (n : Nat) : (s.freeSlot n).drainDone = s.drainDone := by rw [State.freeSlot_eq]
@[simp] theorem State.freeSlot_tests (s : State) (n : Nat) : (s.freeSlot n).tests = s.tests := by rw [State.freeSlot_eq]
@[simp] theorem State.freeSlot_time (s : State) (n : Nat) : (s.freeSlot n).time = s.time := by rw [State.freeSlot_eq]
@[simp] theorem State.freeSlot_clk (s : State) (n : Nat) : (s.freeSlot n).clk = s.clk := by rw [State.freeSlot_eq]
@[simp] theorem State.freeSlot_trust (s : State) (n : Nat) : (s.freeSlot n).trust = s.trust := by rw [State.freeSlot_eq]
@[simp] theorem State.freeSlot_ports (s : State) (n : Nat) : (s.freeSlot n).ports = s.ports := by rw [State.freeSlot_eq]
@[simp] theorem State.freeSlot_ring (s : State) (n : Nat) : (s.freeSlot n).ring = s.ring := by rw [State.freeSlot_eq]
@[simp] theorem State.freeSlot_ref (s : State) (n : Nat) : (s.freeSlot n).ref = s.ref := by rw [State.freeSlot_eq]
@[simp] theorem State.freeSlot_lakes (s : State) (n : Nat) : (s.freeSlot n).lakes = s.lakes := by rw [State.freeSlot_eq]
@[simp] theorem State.freeSlot_pwr (s : State) (n : Nat) : (s.freeSlot n).pwr = s.pwr := by rw [State.freeSlot_eq]
@[simp] theorem State.freeSlot_telem (s : State) (n : Nat) : (s.freeSlot n).telem = s.telem := by rw [State.freeSlot_eq]
@[simp] theorem State.freeSlot_free (s : State) (n : Nat) : (s.freeSlot n).free = s.free := by rw [State.freeSlot_eq]
@[simp] theorem State.freeSlot_pending (s : State) (n : Nat) : (s.freeSlot n).pending = s.pending := by rw [State.freeSlot_eq]

theorem State.writeRec_eq (s : State) (r : CRec) :
    s.writeRec r = { s with
      regs := (s.writeRec r).regs
      hub := (s.writeRec r).hub
      hostMem := (s.writeRec r).hostMem } := by
  unfold State.writeRec; dsimp only; (repeat' split) <;> rfl

@[simp] theorem State.writeRec_mem (s : State) (r : CRec) : (s.writeRec r).mem = s.mem := by rw [State.writeRec_eq]
@[simp] theorem State.writeRec_bad (s : State) (r : CRec) : (s.writeRec r).bad = s.bad := by rw [State.writeRec_eq]
@[simp] theorem State.writeRec_queues (s : State) (r : CRec) : (s.writeRec r).queues = s.queues := by rw [State.writeRec_eq]
@[simp] theorem State.writeRec_steers (s : State) (r : CRec) : (s.writeRec r).steers = s.steers := by rw [State.writeRec_eq]
@[simp] theorem State.writeRec_springs (s : State) (r : CRec) : (s.writeRec r).springs = s.springs := by rw [State.writeRec_eq]
@[simp] theorem State.writeRec_waiters (s : State) (r : CRec) : (s.writeRec r).waiters = s.waiters := by rw [State.writeRec_eq]
@[simp] theorem State.writeRec_evals (s : State) (r : CRec) : (s.writeRec r).evals = s.evals := by rw [State.writeRec_eq]
@[simp] theorem State.writeRec_senders (s : State) (r : CRec) : (s.writeRec r).senders = s.senders := by rw [State.writeRec_eq]
@[simp] theorem State.writeRec_arrivals (s : State) (r : CRec) : (s.writeRec r).arrivals = s.arrivals := by rw [State.writeRec_eq]
@[simp] theorem State.writeRec_mcores (s : State) (r : CRec) : (s.writeRec r).mcores = s.mcores := by rw [State.writeRec_eq]
@[simp] theorem State.writeRec_vcores (s : State) (r : CRec) : (s.writeRec r).vcores = s.vcores := by rw [State.writeRec_eq]
@[simp] theorem State.writeRec_scores (s : State) (r : CRec) : (s.writeRec r).scores = s.scores := by rw [State.writeRec_eq]
@[simp] theorem State.writeRec_gens (s : State) (r : CRec) : (s.writeRec r).gens = s.gens := by rw [State.writeRec_eq]
@[simp] theorem State.writeRec_pmem (s : State) (r : CRec) : (s.writeRec r).pmem = s.pmem := by rw [State.writeRec_eq]
@[simp] theorem State.writeRec_opal (s : State) (r : CRec) : (s.writeRec r).opal = s.opal := by rw [State.writeRec_eq]
@[simp] theorem State.writeRec_latches (s : State) (r : CRec) : (s.writeRec r).latches = s.latches := by rw [State.writeRec_eq]
@[simp] theorem State.writeRec_saved (s : State) (r : CRec) : (s.writeRec r).saved = s.saved := by rw [State.writeRec_eq]
@[simp] theorem State.writeRec_events (s : State) (r : CRec) : (s.writeRec r).events = s.events := by rw [State.writeRec_eq]
@[simp] theorem State.writeRec_net (s : State) (r : CRec) : (s.writeRec r).net = s.net := by rw [State.writeRec_eq]
@[simp] theorem State.writeRec_err (s : State) (r : CRec) : (s.writeRec r).err = s.err := by rw [State.writeRec_eq]
@[simp] theorem State.writeRec_factory (s : State) (r : CRec) : (s.writeRec r).factory = s.factory := by rw [State.writeRec_eq]
@[simp] theorem State.writeRec_overlay (s : State) (r : CRec) : (s.writeRec r).overlay = s.overlay := by rw [State.writeRec_eq]
@[simp] theorem State.writeRec_parts (s : State) (r : CRec) : (s.writeRec r).parts = s.parts := by rw [State.writeRec_eq]
@[simp] theorem State.writeRec_img (s : State) (r : CRec) : (s.writeRec r).img = s.img := by rw [State.writeRec_eq]
@[simp] theorem State.writeRec_drams (s : State) (r : CRec) : (s.writeRec r).drams = s.drams := by rw [State.writeRec_eq]
@[simp] theorem State.writeRec_colls (s : State) (r : CRec) : (s.writeRec r).colls = s.colls := by rw [State.writeRec_eq]
@[simp] theorem State.writeRec_closed (s : State) (r : CRec) : (s.writeRec r).closed = s.closed := by rw [State.writeRec_eq]
@[simp] theorem State.writeRec_drainDone (s : State) (r : CRec) : (s.writeRec r).drainDone = s.drainDone := by rw [State.writeRec_eq]
@[simp] theorem State.writeRec_tests (s : State) (r : CRec) : (s.writeRec r).tests = s.tests := by rw [State.writeRec_eq]
@[simp] theorem State.writeRec_time (s : State) (r : CRec) : (s.writeRec r).time = s.time := by rw [State.writeRec_eq]
@[simp] theorem State.writeRec_clk (s : State) (r : CRec) : (s.writeRec r).clk = s.clk := by rw [State.writeRec_eq]
@[simp] theorem State.writeRec_trust (s : State) (r : CRec) : (s.writeRec r).trust = s.trust := by rw [State.writeRec_eq]
@[simp] theorem State.writeRec_ports (s : State) (r : CRec) : (s.writeRec r).ports = s.ports := by rw [State.writeRec_eq]
@[simp] theorem State.writeRec_ring (s : State) (r : CRec) : (s.writeRec r).ring = s.ring := by rw [State.writeRec_eq]
@[simp] theorem State.writeRec_ref (s : State) (r : CRec) : (s.writeRec r).ref = s.ref := by rw [State.writeRec_eq]
@[simp] theorem State.writeRec_lakes (s : State) (r : CRec) : (s.writeRec r).lakes = s.lakes := by rw [State.writeRec_eq]
@[simp] theorem State.writeRec_pwr (s : State) (r : CRec) : (s.writeRec r).pwr = s.pwr := by rw [State.writeRec_eq]
@[simp] theorem State.writeRec_telem (s : State) (r : CRec) : (s.writeRec r).telem = s.telem := by rw [State.writeRec_eq]
@[simp] theorem State.writeRec_free (s : State) (r : CRec) : (s.writeRec r).free = s.free := by rw [State.writeRec_eq]
@[simp] theorem State.writeRec_pending (s : State) (r : CRec) : (s.writeRec r).pending = s.pending := by rw [State.writeRec_eq]

/-- Only registers, the hub and host memory differ. -/
def State.LogOnly (s t : State) : Prop := ∃ a b c, t = { s with
  regs := a
  hub := b
  hostMem := c }

theorem State.LogOnly.refl (s : State) : s.LogOnly s := ⟨_, _, _, rfl⟩
theorem State.LogOnly.trans {s t r : State} : s.LogOnly t → t.LogOnly r → s.LogOnly r := by
  rintro ⟨a, b, c, rfl⟩ ⟨a', b', c', rfl⟩; exact ⟨a', b', c', rfl⟩
theorem State.LogOnly.eq {s t : State} (h : s.LogOnly t) : t = { s with
    regs := t.regs
    hub := t.hub
    hostMem := t.hostMem } := by obtain ⟨a, b, c, rfl⟩ := h; rfl
theorem State.LogOnly.wr (s : State) (u : UnitId) (f : Fld) (v : Nat) : s.LogOnly (s.wr u f v) := ⟨_, _, _, rfl⟩
theorem State.LogOnly.hub (s : State) (h : HubSt) : s.LogOnly { s with hub := h } := ⟨_, _, _, rfl⟩
theorem State.LogOnly.setBiti (s : State) (u : UnitId) (f : Fld) (i b : Nat) : s.LogOnly (s.setBiti u f i b) :=
  ⟨_, _, _, State.setBiti_eq s u f i b⟩

/-- Writing held records touches registers, the hub and host memory. -/
theorem State.LogOnly.flushLog (n : Nat) (s : State) : s.LogOnly (State.flushLog n s) := by
  induction n generalizing s with
  | zero => exact .refl s
  | succ n ih =>
    unfold State.flushLog
    split
    · exact .refl s
    · split
      · exact (State.LogOnly.hub s _).trans (State.LogOnly.trans ⟨_, _, _, State.writeRec_eq _ _⟩ (ih _))
      · exact .refl s

theorem State.LogOnly.settleLog (s : State) : s.LogOnly s.settleLog := by
  unfold State.settleLog
  dsimp only
  split
  · exact (State.LogOnly.flushLog _ s).trans
      ((State.LogOnly.hub _ _).trans ((State.LogOnly.flushLog _ _).trans (State.LogOnly.wr _ _ _ _)))
  · exact (State.LogOnly.flushLog _ s).trans (State.LogOnly.wr _ _ _ _)

theorem State.settleLog_eq (s : State) : s.settleLog = { s with
    regs := s.settleLog.regs
    hub := s.settleLog.hub
    hostMem := s.settleLog.hostMem } := (State.LogOnly.settleLog s).eq

@[simp] theorem State.settleLog_mem (s : State) : (s.settleLog).mem = s.mem := by rw [State.settleLog_eq]
@[simp] theorem State.settleLog_bad (s : State) : (s.settleLog).bad = s.bad := by rw [State.settleLog_eq]
@[simp] theorem State.settleLog_queues (s : State) : (s.settleLog).queues = s.queues := by rw [State.settleLog_eq]
@[simp] theorem State.settleLog_steers (s : State) : (s.settleLog).steers = s.steers := by rw [State.settleLog_eq]
@[simp] theorem State.settleLog_springs (s : State) : (s.settleLog).springs = s.springs := by rw [State.settleLog_eq]
@[simp] theorem State.settleLog_waiters (s : State) : (s.settleLog).waiters = s.waiters := by rw [State.settleLog_eq]
@[simp] theorem State.settleLog_evals (s : State) : (s.settleLog).evals = s.evals := by rw [State.settleLog_eq]
@[simp] theorem State.settleLog_senders (s : State) : (s.settleLog).senders = s.senders := by rw [State.settleLog_eq]
@[simp] theorem State.settleLog_arrivals (s : State) : (s.settleLog).arrivals = s.arrivals := by rw [State.settleLog_eq]
@[simp] theorem State.settleLog_mcores (s : State) : (s.settleLog).mcores = s.mcores := by rw [State.settleLog_eq]
@[simp] theorem State.settleLog_vcores (s : State) : (s.settleLog).vcores = s.vcores := by rw [State.settleLog_eq]
@[simp] theorem State.settleLog_scores (s : State) : (s.settleLog).scores = s.scores := by rw [State.settleLog_eq]
@[simp] theorem State.settleLog_gens (s : State) : (s.settleLog).gens = s.gens := by rw [State.settleLog_eq]
@[simp] theorem State.settleLog_pmem (s : State) : (s.settleLog).pmem = s.pmem := by rw [State.settleLog_eq]
@[simp] theorem State.settleLog_opal (s : State) : (s.settleLog).opal = s.opal := by rw [State.settleLog_eq]
@[simp] theorem State.settleLog_latches (s : State) : (s.settleLog).latches = s.latches := by rw [State.settleLog_eq]
@[simp] theorem State.settleLog_saved (s : State) : (s.settleLog).saved = s.saved := by rw [State.settleLog_eq]
@[simp] theorem State.settleLog_events (s : State) : (s.settleLog).events = s.events := by rw [State.settleLog_eq]
@[simp] theorem State.settleLog_net (s : State) : (s.settleLog).net = s.net := by rw [State.settleLog_eq]
@[simp] theorem State.settleLog_err (s : State) : (s.settleLog).err = s.err := by rw [State.settleLog_eq]
@[simp] theorem State.settleLog_factory (s : State) : (s.settleLog).factory = s.factory := by rw [State.settleLog_eq]
@[simp] theorem State.settleLog_overlay (s : State) : (s.settleLog).overlay = s.overlay := by rw [State.settleLog_eq]
@[simp] theorem State.settleLog_parts (s : State) : (s.settleLog).parts = s.parts := by rw [State.settleLog_eq]
@[simp] theorem State.settleLog_img (s : State) : (s.settleLog).img = s.img := by rw [State.settleLog_eq]
@[simp] theorem State.settleLog_drams (s : State) : (s.settleLog).drams = s.drams := by rw [State.settleLog_eq]
@[simp] theorem State.settleLog_colls (s : State) : (s.settleLog).colls = s.colls := by rw [State.settleLog_eq]
@[simp] theorem State.settleLog_closed (s : State) : (s.settleLog).closed = s.closed := by rw [State.settleLog_eq]
@[simp] theorem State.settleLog_drainDone (s : State) : (s.settleLog).drainDone = s.drainDone := by rw [State.settleLog_eq]
@[simp] theorem State.settleLog_tests (s : State) : (s.settleLog).tests = s.tests := by rw [State.settleLog_eq]
@[simp] theorem State.settleLog_time (s : State) : (s.settleLog).time = s.time := by rw [State.settleLog_eq]
@[simp] theorem State.settleLog_clk (s : State) : (s.settleLog).clk = s.clk := by rw [State.settleLog_eq]
@[simp] theorem State.settleLog_trust (s : State) : (s.settleLog).trust = s.trust := by rw [State.settleLog_eq]
@[simp] theorem State.settleLog_ports (s : State) : (s.settleLog).ports = s.ports := by rw [State.settleLog_eq]
@[simp] theorem State.settleLog_ring (s : State) : (s.settleLog).ring = s.ring := by rw [State.settleLog_eq]
@[simp] theorem State.settleLog_ref (s : State) : (s.settleLog).ref = s.ref := by rw [State.settleLog_eq]
@[simp] theorem State.settleLog_lakes (s : State) : (s.settleLog).lakes = s.lakes := by rw [State.settleLog_eq]
@[simp] theorem State.settleLog_pwr (s : State) : (s.settleLog).pwr = s.pwr := by rw [State.settleLog_eq]
@[simp] theorem State.settleLog_telem (s : State) : (s.settleLog).telem = s.telem := by rw [State.settleLog_eq]
@[simp] theorem State.settleLog_free (s : State) : (s.settleLog).free = s.free := by rw [State.settleLog_eq]
@[simp] theorem State.settleLog_pending (s : State) : (s.settleLog).pending = s.pending := by rw [State.settleLog_eq]

theorem State.postCompletion_eq (s : State) (h c k o p a d v : Nat) (b : Bool) :
    s.postCompletion h c k o p a d v b = { s with
      regs := (s.postCompletion h c k o p a d v b).regs
      hub := (s.postCompletion h c k o p a d v b).hub
      hostMem := (s.postCompletion h c k o p a d v b).hostMem } := by
  unfold State.postCompletion; rw [State.settleLog_eq]

@[simp] theorem State.postCompletion_mem (s : State) (h c k o p a d v : Nat) (b : Bool) : (s.postCompletion h c k o p a d v b).mem = s.mem := by rw [State.postCompletion_eq]
@[simp] theorem State.postCompletion_bad (s : State) (h c k o p a d v : Nat) (b : Bool) : (s.postCompletion h c k o p a d v b).bad = s.bad := by rw [State.postCompletion_eq]
@[simp] theorem State.postCompletion_queues (s : State) (h c k o p a d v : Nat) (b : Bool) : (s.postCompletion h c k o p a d v b).queues = s.queues := by rw [State.postCompletion_eq]
@[simp] theorem State.postCompletion_steers (s : State) (h c k o p a d v : Nat) (b : Bool) : (s.postCompletion h c k o p a d v b).steers = s.steers := by rw [State.postCompletion_eq]
@[simp] theorem State.postCompletion_springs (s : State) (h c k o p a d v : Nat) (b : Bool) : (s.postCompletion h c k o p a d v b).springs = s.springs := by rw [State.postCompletion_eq]
@[simp] theorem State.postCompletion_waiters (s : State) (h c k o p a d v : Nat) (b : Bool) : (s.postCompletion h c k o p a d v b).waiters = s.waiters := by rw [State.postCompletion_eq]
@[simp] theorem State.postCompletion_evals (s : State) (h c k o p a d v : Nat) (b : Bool) : (s.postCompletion h c k o p a d v b).evals = s.evals := by rw [State.postCompletion_eq]
@[simp] theorem State.postCompletion_senders (s : State) (h c k o p a d v : Nat) (b : Bool) : (s.postCompletion h c k o p a d v b).senders = s.senders := by rw [State.postCompletion_eq]
@[simp] theorem State.postCompletion_arrivals (s : State) (h c k o p a d v : Nat) (b : Bool) : (s.postCompletion h c k o p a d v b).arrivals = s.arrivals := by rw [State.postCompletion_eq]
@[simp] theorem State.postCompletion_mcores (s : State) (h c k o p a d v : Nat) (b : Bool) : (s.postCompletion h c k o p a d v b).mcores = s.mcores := by rw [State.postCompletion_eq]
@[simp] theorem State.postCompletion_vcores (s : State) (h c k o p a d v : Nat) (b : Bool) : (s.postCompletion h c k o p a d v b).vcores = s.vcores := by rw [State.postCompletion_eq]
@[simp] theorem State.postCompletion_scores (s : State) (h c k o p a d v : Nat) (b : Bool) : (s.postCompletion h c k o p a d v b).scores = s.scores := by rw [State.postCompletion_eq]
@[simp] theorem State.postCompletion_gens (s : State) (h c k o p a d v : Nat) (b : Bool) : (s.postCompletion h c k o p a d v b).gens = s.gens := by rw [State.postCompletion_eq]
@[simp] theorem State.postCompletion_pmem (s : State) (h c k o p a d v : Nat) (b : Bool) : (s.postCompletion h c k o p a d v b).pmem = s.pmem := by rw [State.postCompletion_eq]
@[simp] theorem State.postCompletion_opal (s : State) (h c k o p a d v : Nat) (b : Bool) : (s.postCompletion h c k o p a d v b).opal = s.opal := by rw [State.postCompletion_eq]
@[simp] theorem State.postCompletion_latches (s : State) (h c k o p a d v : Nat) (b : Bool) : (s.postCompletion h c k o p a d v b).latches = s.latches := by rw [State.postCompletion_eq]
@[simp] theorem State.postCompletion_saved (s : State) (h c k o p a d v : Nat) (b : Bool) : (s.postCompletion h c k o p a d v b).saved = s.saved := by rw [State.postCompletion_eq]
@[simp] theorem State.postCompletion_events (s : State) (h c k o p a d v : Nat) (b : Bool) : (s.postCompletion h c k o p a d v b).events = s.events := by rw [State.postCompletion_eq]
@[simp] theorem State.postCompletion_net (s : State) (h c k o p a d v : Nat) (b : Bool) : (s.postCompletion h c k o p a d v b).net = s.net := by rw [State.postCompletion_eq]
@[simp] theorem State.postCompletion_err (s : State) (h c k o p a d v : Nat) (b : Bool) : (s.postCompletion h c k o p a d v b).err = s.err := by rw [State.postCompletion_eq]
@[simp] theorem State.postCompletion_factory (s : State) (h c k o p a d v : Nat) (b : Bool) : (s.postCompletion h c k o p a d v b).factory = s.factory := by rw [State.postCompletion_eq]
@[simp] theorem State.postCompletion_overlay (s : State) (h c k o p a d v : Nat) (b : Bool) : (s.postCompletion h c k o p a d v b).overlay = s.overlay := by rw [State.postCompletion_eq]
@[simp] theorem State.postCompletion_parts (s : State) (h c k o p a d v : Nat) (b : Bool) : (s.postCompletion h c k o p a d v b).parts = s.parts := by rw [State.postCompletion_eq]
@[simp] theorem State.postCompletion_img (s : State) (h c k o p a d v : Nat) (b : Bool) : (s.postCompletion h c k o p a d v b).img = s.img := by rw [State.postCompletion_eq]
@[simp] theorem State.postCompletion_drams (s : State) (h c k o p a d v : Nat) (b : Bool) : (s.postCompletion h c k o p a d v b).drams = s.drams := by rw [State.postCompletion_eq]
@[simp] theorem State.postCompletion_colls (s : State) (h c k o p a d v : Nat) (b : Bool) : (s.postCompletion h c k o p a d v b).colls = s.colls := by rw [State.postCompletion_eq]
@[simp] theorem State.postCompletion_closed (s : State) (h c k o p a d v : Nat) (b : Bool) : (s.postCompletion h c k o p a d v b).closed = s.closed := by rw [State.postCompletion_eq]
@[simp] theorem State.postCompletion_drainDone (s : State) (h c k o p a d v : Nat) (b : Bool) : (s.postCompletion h c k o p a d v b).drainDone = s.drainDone := by rw [State.postCompletion_eq]
@[simp] theorem State.postCompletion_tests (s : State) (h c k o p a d v : Nat) (b : Bool) : (s.postCompletion h c k o p a d v b).tests = s.tests := by rw [State.postCompletion_eq]
@[simp] theorem State.postCompletion_time (s : State) (h c k o p a d v : Nat) (b : Bool) : (s.postCompletion h c k o p a d v b).time = s.time := by rw [State.postCompletion_eq]
@[simp] theorem State.postCompletion_clk (s : State) (h c k o p a d v : Nat) (b : Bool) : (s.postCompletion h c k o p a d v b).clk = s.clk := by rw [State.postCompletion_eq]
@[simp] theorem State.postCompletion_trust (s : State) (h c k o p a d v : Nat) (b : Bool) : (s.postCompletion h c k o p a d v b).trust = s.trust := by rw [State.postCompletion_eq]
@[simp] theorem State.postCompletion_ports (s : State) (h c k o p a d v : Nat) (b : Bool) : (s.postCompletion h c k o p a d v b).ports = s.ports := by rw [State.postCompletion_eq]
@[simp] theorem State.postCompletion_ring (s : State) (h c k o p a d v : Nat) (b : Bool) : (s.postCompletion h c k o p a d v b).ring = s.ring := by rw [State.postCompletion_eq]
@[simp] theorem State.postCompletion_ref (s : State) (h c k o p a d v : Nat) (b : Bool) : (s.postCompletion h c k o p a d v b).ref = s.ref := by rw [State.postCompletion_eq]
@[simp] theorem State.postCompletion_lakes (s : State) (h c k o p a d v : Nat) (b : Bool) : (s.postCompletion h c k o p a d v b).lakes = s.lakes := by rw [State.postCompletion_eq]
@[simp] theorem State.postCompletion_pwr (s : State) (h c k o p a d v : Nat) (b : Bool) : (s.postCompletion h c k o p a d v b).pwr = s.pwr := by rw [State.postCompletion_eq]
@[simp] theorem State.postCompletion_telem (s : State) (h c k o p a d v : Nat) (b : Bool) : (s.postCompletion h c k o p a d v b).telem = s.telem := by rw [State.postCompletion_eq]
@[simp] theorem State.postCompletion_free (s : State) (h c k o p a d v : Nat) (b : Bool) : (s.postCompletion h c k o p a d v b).free = s.free := by rw [State.postCompletion_eq]
@[simp] theorem State.postCompletion_pending (s : State) (h c k o p a d v : Nat) (b : Bool) : (s.postCompletion h c k o p a d v b).pending = s.pending := by rw [State.postCompletion_eq]

theorem State.LogOnly.postEvent (s : State) (c i a d p : Nat) : s.LogOnly (s.postEvent c i a d p) := by
  have h : s.LogOnly (if c = 1 ∨ c = 2 ∨ c = 3 then (s.setBiti .hub Reg.hubNmiStatNmi 0 (c - 1)).sendMsix 0 else s) := by
    split
    · exact (State.LogOnly.setBiti s _ _ _ _).trans (State.LogOnly.hub _ _)
    · exact .refl s
  unfold State.postEvent
  dsimp only
  revert h
  generalize (if c = 1 ∨ c = 2 ∨ c = 3 then (s.setBiti .hub Reg.hubNmiStatNmi 0 (c - 1)).sendMsix 0 else s) = r
  intro h
  refine h.trans ?_
  split
  · exact (State.LogOnly.hub _ _).trans (State.LogOnly.settleLog _)
  · exact ⟨_, _, _, rfl⟩

theorem State.postEvent_eq (s : State) (c i a d p : Nat) : s.postEvent c i a d p = { s with
    regs := (s.postEvent c i a d p).regs
    hub := (s.postEvent c i a d p).hub
    hostMem := (s.postEvent c i a d p).hostMem } := (State.LogOnly.postEvent s c i a d p).eq

@[simp] theorem State.postEvent_mem (s : State) (c i a d p : Nat) : (s.postEvent c i a d p).mem = s.mem := by rw [State.postEvent_eq]
@[simp] theorem State.postEvent_bad (s : State) (c i a d p : Nat) : (s.postEvent c i a d p).bad = s.bad := by rw [State.postEvent_eq]
@[simp] theorem State.postEvent_queues (s : State) (c i a d p : Nat) : (s.postEvent c i a d p).queues = s.queues := by rw [State.postEvent_eq]
@[simp] theorem State.postEvent_steers (s : State) (c i a d p : Nat) : (s.postEvent c i a d p).steers = s.steers := by rw [State.postEvent_eq]
@[simp] theorem State.postEvent_springs (s : State) (c i a d p : Nat) : (s.postEvent c i a d p).springs = s.springs := by rw [State.postEvent_eq]
@[simp] theorem State.postEvent_waiters (s : State) (c i a d p : Nat) : (s.postEvent c i a d p).waiters = s.waiters := by rw [State.postEvent_eq]
@[simp] theorem State.postEvent_evals (s : State) (c i a d p : Nat) : (s.postEvent c i a d p).evals = s.evals := by rw [State.postEvent_eq]
@[simp] theorem State.postEvent_senders (s : State) (c i a d p : Nat) : (s.postEvent c i a d p).senders = s.senders := by rw [State.postEvent_eq]
@[simp] theorem State.postEvent_arrivals (s : State) (c i a d p : Nat) : (s.postEvent c i a d p).arrivals = s.arrivals := by rw [State.postEvent_eq]
@[simp] theorem State.postEvent_mcores (s : State) (c i a d p : Nat) : (s.postEvent c i a d p).mcores = s.mcores := by rw [State.postEvent_eq]
@[simp] theorem State.postEvent_vcores (s : State) (c i a d p : Nat) : (s.postEvent c i a d p).vcores = s.vcores := by rw [State.postEvent_eq]
@[simp] theorem State.postEvent_scores (s : State) (c i a d p : Nat) : (s.postEvent c i a d p).scores = s.scores := by rw [State.postEvent_eq]
@[simp] theorem State.postEvent_gens (s : State) (c i a d p : Nat) : (s.postEvent c i a d p).gens = s.gens := by rw [State.postEvent_eq]
@[simp] theorem State.postEvent_pmem (s : State) (c i a d p : Nat) : (s.postEvent c i a d p).pmem = s.pmem := by rw [State.postEvent_eq]
@[simp] theorem State.postEvent_opal (s : State) (c i a d p : Nat) : (s.postEvent c i a d p).opal = s.opal := by rw [State.postEvent_eq]
@[simp] theorem State.postEvent_latches (s : State) (c i a d p : Nat) : (s.postEvent c i a d p).latches = s.latches := by rw [State.postEvent_eq]
@[simp] theorem State.postEvent_saved (s : State) (c i a d p : Nat) : (s.postEvent c i a d p).saved = s.saved := by rw [State.postEvent_eq]
@[simp] theorem State.postEvent_events (s : State) (c i a d p : Nat) : (s.postEvent c i a d p).events = s.events := by rw [State.postEvent_eq]
@[simp] theorem State.postEvent_net (s : State) (c i a d p : Nat) : (s.postEvent c i a d p).net = s.net := by rw [State.postEvent_eq]
@[simp] theorem State.postEvent_err (s : State) (c i a d p : Nat) : (s.postEvent c i a d p).err = s.err := by rw [State.postEvent_eq]
@[simp] theorem State.postEvent_factory (s : State) (c i a d p : Nat) : (s.postEvent c i a d p).factory = s.factory := by rw [State.postEvent_eq]
@[simp] theorem State.postEvent_overlay (s : State) (c i a d p : Nat) : (s.postEvent c i a d p).overlay = s.overlay := by rw [State.postEvent_eq]
@[simp] theorem State.postEvent_parts (s : State) (c i a d p : Nat) : (s.postEvent c i a d p).parts = s.parts := by rw [State.postEvent_eq]
@[simp] theorem State.postEvent_img (s : State) (c i a d p : Nat) : (s.postEvent c i a d p).img = s.img := by rw [State.postEvent_eq]
@[simp] theorem State.postEvent_drams (s : State) (c i a d p : Nat) : (s.postEvent c i a d p).drams = s.drams := by rw [State.postEvent_eq]
@[simp] theorem State.postEvent_colls (s : State) (c i a d p : Nat) : (s.postEvent c i a d p).colls = s.colls := by rw [State.postEvent_eq]
@[simp] theorem State.postEvent_closed (s : State) (c i a d p : Nat) : (s.postEvent c i a d p).closed = s.closed := by rw [State.postEvent_eq]
@[simp] theorem State.postEvent_drainDone (s : State) (c i a d p : Nat) : (s.postEvent c i a d p).drainDone = s.drainDone := by rw [State.postEvent_eq]
@[simp] theorem State.postEvent_tests (s : State) (c i a d p : Nat) : (s.postEvent c i a d p).tests = s.tests := by rw [State.postEvent_eq]
@[simp] theorem State.postEvent_time (s : State) (c i a d p : Nat) : (s.postEvent c i a d p).time = s.time := by rw [State.postEvent_eq]
@[simp] theorem State.postEvent_clk (s : State) (c i a d p : Nat) : (s.postEvent c i a d p).clk = s.clk := by rw [State.postEvent_eq]
@[simp] theorem State.postEvent_trust (s : State) (c i a d p : Nat) : (s.postEvent c i a d p).trust = s.trust := by rw [State.postEvent_eq]
@[simp] theorem State.postEvent_ports (s : State) (c i a d p : Nat) : (s.postEvent c i a d p).ports = s.ports := by rw [State.postEvent_eq]
@[simp] theorem State.postEvent_ring (s : State) (c i a d p : Nat) : (s.postEvent c i a d p).ring = s.ring := by rw [State.postEvent_eq]
@[simp] theorem State.postEvent_ref (s : State) (c i a d p : Nat) : (s.postEvent c i a d p).ref = s.ref := by rw [State.postEvent_eq]
@[simp] theorem State.postEvent_lakes (s : State) (c i a d p : Nat) : (s.postEvent c i a d p).lakes = s.lakes := by rw [State.postEvent_eq]
@[simp] theorem State.postEvent_pwr (s : State) (c i a d p : Nat) : (s.postEvent c i a d p).pwr = s.pwr := by rw [State.postEvent_eq]
@[simp] theorem State.postEvent_telem (s : State) (c i a d p : Nat) : (s.postEvent c i a d p).telem = s.telem := by rw [State.postEvent_eq]
@[simp] theorem State.postEvent_free (s : State) (c i a d p : Nat) : (s.postEvent c i a d p).free = s.free := by rw [State.postEvent_eq]
@[simp] theorem State.postEvent_pending (s : State) (c i a d p : Nat) : (s.postEvent c i a d p).pending = s.pending := by rw [State.postEvent_eq]

theorem State.gradeCheck_eq (s : State) (o : Nat × Nat × Nat) :
    s.gradeCheck o = { s with
      regs := (s.gradeCheck o).regs
      hub := (s.gradeCheck o).hub
      hostMem := (s.gradeCheck o).hostMem } := by
  unfold State.gradeCheck; dsimp only; split
  · exact State.postEvent_eq s _ _ _ _ _
  · rfl

@[simp] theorem State.gradeCheck_mem (s : State) (o : Nat × Nat × Nat) : (s.gradeCheck o).mem = s.mem := by rw [State.gradeCheck_eq]
@[simp] theorem State.gradeCheck_bad (s : State) (o : Nat × Nat × Nat) : (s.gradeCheck o).bad = s.bad := by rw [State.gradeCheck_eq]
@[simp] theorem State.gradeCheck_queues (s : State) (o : Nat × Nat × Nat) : (s.gradeCheck o).queues = s.queues := by rw [State.gradeCheck_eq]
@[simp] theorem State.gradeCheck_steers (s : State) (o : Nat × Nat × Nat) : (s.gradeCheck o).steers = s.steers := by rw [State.gradeCheck_eq]
@[simp] theorem State.gradeCheck_springs (s : State) (o : Nat × Nat × Nat) : (s.gradeCheck o).springs = s.springs := by rw [State.gradeCheck_eq]
@[simp] theorem State.gradeCheck_waiters (s : State) (o : Nat × Nat × Nat) : (s.gradeCheck o).waiters = s.waiters := by rw [State.gradeCheck_eq]
@[simp] theorem State.gradeCheck_evals (s : State) (o : Nat × Nat × Nat) : (s.gradeCheck o).evals = s.evals := by rw [State.gradeCheck_eq]
@[simp] theorem State.gradeCheck_senders (s : State) (o : Nat × Nat × Nat) : (s.gradeCheck o).senders = s.senders := by rw [State.gradeCheck_eq]
@[simp] theorem State.gradeCheck_arrivals (s : State) (o : Nat × Nat × Nat) : (s.gradeCheck o).arrivals = s.arrivals := by rw [State.gradeCheck_eq]
@[simp] theorem State.gradeCheck_mcores (s : State) (o : Nat × Nat × Nat) : (s.gradeCheck o).mcores = s.mcores := by rw [State.gradeCheck_eq]
@[simp] theorem State.gradeCheck_vcores (s : State) (o : Nat × Nat × Nat) : (s.gradeCheck o).vcores = s.vcores := by rw [State.gradeCheck_eq]
@[simp] theorem State.gradeCheck_scores (s : State) (o : Nat × Nat × Nat) : (s.gradeCheck o).scores = s.scores := by rw [State.gradeCheck_eq]
@[simp] theorem State.gradeCheck_gens (s : State) (o : Nat × Nat × Nat) : (s.gradeCheck o).gens = s.gens := by rw [State.gradeCheck_eq]
@[simp] theorem State.gradeCheck_pmem (s : State) (o : Nat × Nat × Nat) : (s.gradeCheck o).pmem = s.pmem := by rw [State.gradeCheck_eq]
@[simp] theorem State.gradeCheck_opal (s : State) (o : Nat × Nat × Nat) : (s.gradeCheck o).opal = s.opal := by rw [State.gradeCheck_eq]
@[simp] theorem State.gradeCheck_latches (s : State) (o : Nat × Nat × Nat) : (s.gradeCheck o).latches = s.latches := by rw [State.gradeCheck_eq]
@[simp] theorem State.gradeCheck_saved (s : State) (o : Nat × Nat × Nat) : (s.gradeCheck o).saved = s.saved := by rw [State.gradeCheck_eq]
@[simp] theorem State.gradeCheck_events (s : State) (o : Nat × Nat × Nat) : (s.gradeCheck o).events = s.events := by rw [State.gradeCheck_eq]
@[simp] theorem State.gradeCheck_net (s : State) (o : Nat × Nat × Nat) : (s.gradeCheck o).net = s.net := by rw [State.gradeCheck_eq]
@[simp] theorem State.gradeCheck_err (s : State) (o : Nat × Nat × Nat) : (s.gradeCheck o).err = s.err := by rw [State.gradeCheck_eq]
@[simp] theorem State.gradeCheck_factory (s : State) (o : Nat × Nat × Nat) : (s.gradeCheck o).factory = s.factory := by rw [State.gradeCheck_eq]
@[simp] theorem State.gradeCheck_overlay (s : State) (o : Nat × Nat × Nat) : (s.gradeCheck o).overlay = s.overlay := by rw [State.gradeCheck_eq]
@[simp] theorem State.gradeCheck_parts (s : State) (o : Nat × Nat × Nat) : (s.gradeCheck o).parts = s.parts := by rw [State.gradeCheck_eq]
@[simp] theorem State.gradeCheck_img (s : State) (o : Nat × Nat × Nat) : (s.gradeCheck o).img = s.img := by rw [State.gradeCheck_eq]
@[simp] theorem State.gradeCheck_drams (s : State) (o : Nat × Nat × Nat) : (s.gradeCheck o).drams = s.drams := by rw [State.gradeCheck_eq]
@[simp] theorem State.gradeCheck_colls (s : State) (o : Nat × Nat × Nat) : (s.gradeCheck o).colls = s.colls := by rw [State.gradeCheck_eq]
@[simp] theorem State.gradeCheck_closed (s : State) (o : Nat × Nat × Nat) : (s.gradeCheck o).closed = s.closed := by rw [State.gradeCheck_eq]
@[simp] theorem State.gradeCheck_drainDone (s : State) (o : Nat × Nat × Nat) : (s.gradeCheck o).drainDone = s.drainDone := by rw [State.gradeCheck_eq]
@[simp] theorem State.gradeCheck_tests (s : State) (o : Nat × Nat × Nat) : (s.gradeCheck o).tests = s.tests := by rw [State.gradeCheck_eq]
@[simp] theorem State.gradeCheck_time (s : State) (o : Nat × Nat × Nat) : (s.gradeCheck o).time = s.time := by rw [State.gradeCheck_eq]
@[simp] theorem State.gradeCheck_clk (s : State) (o : Nat × Nat × Nat) : (s.gradeCheck o).clk = s.clk := by rw [State.gradeCheck_eq]
@[simp] theorem State.gradeCheck_trust (s : State) (o : Nat × Nat × Nat) : (s.gradeCheck o).trust = s.trust := by rw [State.gradeCheck_eq]
@[simp] theorem State.gradeCheck_ports (s : State) (o : Nat × Nat × Nat) : (s.gradeCheck o).ports = s.ports := by rw [State.gradeCheck_eq]
@[simp] theorem State.gradeCheck_ring (s : State) (o : Nat × Nat × Nat) : (s.gradeCheck o).ring = s.ring := by rw [State.gradeCheck_eq]
@[simp] theorem State.gradeCheck_ref (s : State) (o : Nat × Nat × Nat) : (s.gradeCheck o).ref = s.ref := by rw [State.gradeCheck_eq]
@[simp] theorem State.gradeCheck_lakes (s : State) (o : Nat × Nat × Nat) : (s.gradeCheck o).lakes = s.lakes := by rw [State.gradeCheck_eq]
@[simp] theorem State.gradeCheck_pwr (s : State) (o : Nat × Nat × Nat) : (s.gradeCheck o).pwr = s.pwr := by rw [State.gradeCheck_eq]
@[simp] theorem State.gradeCheck_telem (s : State) (o : Nat × Nat × Nat) : (s.gradeCheck o).telem = s.telem := by rw [State.gradeCheck_eq]
@[simp] theorem State.gradeCheck_free (s : State) (o : Nat × Nat × Nat) : (s.gradeCheck o).free = s.free := by rw [State.gradeCheck_eq]
@[simp] theorem State.gradeCheck_pending (s : State) (o : Nat × Nat × Nat) : (s.gradeCheck o).pending = s.pending := by rw [State.gradeCheck_eq]

theorem State.overlayWrite_eq (s : State) (m : DMap) :
    s.overlayWrite m = { s with
      regs := (s.overlayWrite m).regs
      hub := (s.overlayWrite m).hub
      hostMem := (s.overlayWrite m).hostMem
      overlay := (s.overlayWrite m).overlay } := by
  unfold State.overlayWrite; rw [State.gradeCheck_eq]; rfl

@[simp] theorem State.overlayWrite_mem (s : State) (m : DMap) : (s.overlayWrite m).mem = s.mem := by rw [State.overlayWrite_eq]
@[simp] theorem State.overlayWrite_bad (s : State) (m : DMap) : (s.overlayWrite m).bad = s.bad := by rw [State.overlayWrite_eq]
@[simp] theorem State.overlayWrite_queues (s : State) (m : DMap) : (s.overlayWrite m).queues = s.queues := by rw [State.overlayWrite_eq]
@[simp] theorem State.overlayWrite_steers (s : State) (m : DMap) : (s.overlayWrite m).steers = s.steers := by rw [State.overlayWrite_eq]
@[simp] theorem State.overlayWrite_springs (s : State) (m : DMap) : (s.overlayWrite m).springs = s.springs := by rw [State.overlayWrite_eq]
@[simp] theorem State.overlayWrite_waiters (s : State) (m : DMap) : (s.overlayWrite m).waiters = s.waiters := by rw [State.overlayWrite_eq]
@[simp] theorem State.overlayWrite_evals (s : State) (m : DMap) : (s.overlayWrite m).evals = s.evals := by rw [State.overlayWrite_eq]
@[simp] theorem State.overlayWrite_senders (s : State) (m : DMap) : (s.overlayWrite m).senders = s.senders := by rw [State.overlayWrite_eq]
@[simp] theorem State.overlayWrite_arrivals (s : State) (m : DMap) : (s.overlayWrite m).arrivals = s.arrivals := by rw [State.overlayWrite_eq]
@[simp] theorem State.overlayWrite_mcores (s : State) (m : DMap) : (s.overlayWrite m).mcores = s.mcores := by rw [State.overlayWrite_eq]
@[simp] theorem State.overlayWrite_vcores (s : State) (m : DMap) : (s.overlayWrite m).vcores = s.vcores := by rw [State.overlayWrite_eq]
@[simp] theorem State.overlayWrite_scores (s : State) (m : DMap) : (s.overlayWrite m).scores = s.scores := by rw [State.overlayWrite_eq]
@[simp] theorem State.overlayWrite_gens (s : State) (m : DMap) : (s.overlayWrite m).gens = s.gens := by rw [State.overlayWrite_eq]
@[simp] theorem State.overlayWrite_pmem (s : State) (m : DMap) : (s.overlayWrite m).pmem = s.pmem := by rw [State.overlayWrite_eq]
@[simp] theorem State.overlayWrite_opal (s : State) (m : DMap) : (s.overlayWrite m).opal = s.opal := by rw [State.overlayWrite_eq]
@[simp] theorem State.overlayWrite_latches (s : State) (m : DMap) : (s.overlayWrite m).latches = s.latches := by rw [State.overlayWrite_eq]
@[simp] theorem State.overlayWrite_saved (s : State) (m : DMap) : (s.overlayWrite m).saved = s.saved := by rw [State.overlayWrite_eq]
@[simp] theorem State.overlayWrite_events (s : State) (m : DMap) : (s.overlayWrite m).events = s.events := by rw [State.overlayWrite_eq]
@[simp] theorem State.overlayWrite_net (s : State) (m : DMap) : (s.overlayWrite m).net = s.net := by rw [State.overlayWrite_eq]
@[simp] theorem State.overlayWrite_err (s : State) (m : DMap) : (s.overlayWrite m).err = s.err := by rw [State.overlayWrite_eq]
@[simp] theorem State.overlayWrite_factory (s : State) (m : DMap) : (s.overlayWrite m).factory = s.factory := by rw [State.overlayWrite_eq]
@[simp] theorem State.overlayWrite_parts (s : State) (m : DMap) : (s.overlayWrite m).parts = s.parts := by rw [State.overlayWrite_eq]
@[simp] theorem State.overlayWrite_img (s : State) (m : DMap) : (s.overlayWrite m).img = s.img := by rw [State.overlayWrite_eq]
@[simp] theorem State.overlayWrite_drams (s : State) (m : DMap) : (s.overlayWrite m).drams = s.drams := by rw [State.overlayWrite_eq]
@[simp] theorem State.overlayWrite_colls (s : State) (m : DMap) : (s.overlayWrite m).colls = s.colls := by rw [State.overlayWrite_eq]
@[simp] theorem State.overlayWrite_closed (s : State) (m : DMap) : (s.overlayWrite m).closed = s.closed := by rw [State.overlayWrite_eq]
@[simp] theorem State.overlayWrite_drainDone (s : State) (m : DMap) : (s.overlayWrite m).drainDone = s.drainDone := by rw [State.overlayWrite_eq]
@[simp] theorem State.overlayWrite_tests (s : State) (m : DMap) : (s.overlayWrite m).tests = s.tests := by rw [State.overlayWrite_eq]
@[simp] theorem State.overlayWrite_time (s : State) (m : DMap) : (s.overlayWrite m).time = s.time := by rw [State.overlayWrite_eq]
@[simp] theorem State.overlayWrite_clk (s : State) (m : DMap) : (s.overlayWrite m).clk = s.clk := by rw [State.overlayWrite_eq]
@[simp] theorem State.overlayWrite_trust (s : State) (m : DMap) : (s.overlayWrite m).trust = s.trust := by rw [State.overlayWrite_eq]
@[simp] theorem State.overlayWrite_ports (s : State) (m : DMap) : (s.overlayWrite m).ports = s.ports := by rw [State.overlayWrite_eq]
@[simp] theorem State.overlayWrite_ring (s : State) (m : DMap) : (s.overlayWrite m).ring = s.ring := by rw [State.overlayWrite_eq]
@[simp] theorem State.overlayWrite_ref (s : State) (m : DMap) : (s.overlayWrite m).ref = s.ref := by rw [State.overlayWrite_eq]
@[simp] theorem State.overlayWrite_lakes (s : State) (m : DMap) : (s.overlayWrite m).lakes = s.lakes := by rw [State.overlayWrite_eq]
@[simp] theorem State.overlayWrite_pwr (s : State) (m : DMap) : (s.overlayWrite m).pwr = s.pwr := by rw [State.overlayWrite_eq]
@[simp] theorem State.overlayWrite_telem (s : State) (m : DMap) : (s.overlayWrite m).telem = s.telem := by rw [State.overlayWrite_eq]
@[simp] theorem State.overlayWrite_free (s : State) (m : DMap) : (s.overlayWrite m).free = s.free := by rw [State.overlayWrite_eq]
@[simp] theorem State.overlayWrite_pending (s : State) (m : DMap) : (s.overlayWrite m).pending = s.pending := by rw [State.overlayWrite_eq]

theorem State.overTile_eq (s : State) (g t b : Nat) :
    s.overTile g t b = { s with
      regs := (s.overTile g t b).regs
      hub := (s.overTile g t b).hub
      hostMem := (s.overTile g t b).hostMem
      net := (s.overTile g t b).net
      overlay := (s.overTile g t b).overlay
      tests := (s.overTile g t b).tests } := by
  unfold State.overTile State.attribute; dsimp only; rw [State.overlayWrite_eq]; split <;> rfl

@[simp] theorem State.overTile_mem (s : State) (g t b : Nat) : (s.overTile g t b).mem = s.mem := by rw [State.overTile_eq]
@[simp] theorem State.overTile_bad (s : State) (g t b : Nat) : (s.overTile g t b).bad = s.bad := by rw [State.overTile_eq]
@[simp] theorem State.overTile_queues (s : State) (g t b : Nat) : (s.overTile g t b).queues = s.queues := by rw [State.overTile_eq]
@[simp] theorem State.overTile_steers (s : State) (g t b : Nat) : (s.overTile g t b).steers = s.steers := by rw [State.overTile_eq]
@[simp] theorem State.overTile_springs (s : State) (g t b : Nat) : (s.overTile g t b).springs = s.springs := by rw [State.overTile_eq]
@[simp] theorem State.overTile_waiters (s : State) (g t b : Nat) : (s.overTile g t b).waiters = s.waiters := by rw [State.overTile_eq]
@[simp] theorem State.overTile_evals (s : State) (g t b : Nat) : (s.overTile g t b).evals = s.evals := by rw [State.overTile_eq]
@[simp] theorem State.overTile_senders (s : State) (g t b : Nat) : (s.overTile g t b).senders = s.senders := by rw [State.overTile_eq]
@[simp] theorem State.overTile_arrivals (s : State) (g t b : Nat) : (s.overTile g t b).arrivals = s.arrivals := by rw [State.overTile_eq]
@[simp] theorem State.overTile_mcores (s : State) (g t b : Nat) : (s.overTile g t b).mcores = s.mcores := by rw [State.overTile_eq]
@[simp] theorem State.overTile_vcores (s : State) (g t b : Nat) : (s.overTile g t b).vcores = s.vcores := by rw [State.overTile_eq]
@[simp] theorem State.overTile_scores (s : State) (g t b : Nat) : (s.overTile g t b).scores = s.scores := by rw [State.overTile_eq]
@[simp] theorem State.overTile_gens (s : State) (g t b : Nat) : (s.overTile g t b).gens = s.gens := by rw [State.overTile_eq]
@[simp] theorem State.overTile_pmem (s : State) (g t b : Nat) : (s.overTile g t b).pmem = s.pmem := by rw [State.overTile_eq]
@[simp] theorem State.overTile_opal (s : State) (g t b : Nat) : (s.overTile g t b).opal = s.opal := by rw [State.overTile_eq]
@[simp] theorem State.overTile_latches (s : State) (g t b : Nat) : (s.overTile g t b).latches = s.latches := by rw [State.overTile_eq]
@[simp] theorem State.overTile_saved (s : State) (g t b : Nat) : (s.overTile g t b).saved = s.saved := by rw [State.overTile_eq]
@[simp] theorem State.overTile_events (s : State) (g t b : Nat) : (s.overTile g t b).events = s.events := by rw [State.overTile_eq]
@[simp] theorem State.overTile_err (s : State) (g t b : Nat) : (s.overTile g t b).err = s.err := by rw [State.overTile_eq]
@[simp] theorem State.overTile_factory (s : State) (g t b : Nat) : (s.overTile g t b).factory = s.factory := by rw [State.overTile_eq]
@[simp] theorem State.overTile_parts (s : State) (g t b : Nat) : (s.overTile g t b).parts = s.parts := by rw [State.overTile_eq]
@[simp] theorem State.overTile_img (s : State) (g t b : Nat) : (s.overTile g t b).img = s.img := by rw [State.overTile_eq]
@[simp] theorem State.overTile_drams (s : State) (g t b : Nat) : (s.overTile g t b).drams = s.drams := by rw [State.overTile_eq]
@[simp] theorem State.overTile_colls (s : State) (g t b : Nat) : (s.overTile g t b).colls = s.colls := by rw [State.overTile_eq]
@[simp] theorem State.overTile_closed (s : State) (g t b : Nat) : (s.overTile g t b).closed = s.closed := by rw [State.overTile_eq]
@[simp] theorem State.overTile_drainDone (s : State) (g t b : Nat) : (s.overTile g t b).drainDone = s.drainDone := by rw [State.overTile_eq]
@[simp] theorem State.overTile_time (s : State) (g t b : Nat) : (s.overTile g t b).time = s.time := by rw [State.overTile_eq]
@[simp] theorem State.overTile_clk (s : State) (g t b : Nat) : (s.overTile g t b).clk = s.clk := by rw [State.overTile_eq]
@[simp] theorem State.overTile_trust (s : State) (g t b : Nat) : (s.overTile g t b).trust = s.trust := by rw [State.overTile_eq]
@[simp] theorem State.overTile_ports (s : State) (g t b : Nat) : (s.overTile g t b).ports = s.ports := by rw [State.overTile_eq]
@[simp] theorem State.overTile_ring (s : State) (g t b : Nat) : (s.overTile g t b).ring = s.ring := by rw [State.overTile_eq]
@[simp] theorem State.overTile_ref (s : State) (g t b : Nat) : (s.overTile g t b).ref = s.ref := by rw [State.overTile_eq]
@[simp] theorem State.overTile_lakes (s : State) (g t b : Nat) : (s.overTile g t b).lakes = s.lakes := by rw [State.overTile_eq]
@[simp] theorem State.overTile_pwr (s : State) (g t b : Nat) : (s.overTile g t b).pwr = s.pwr := by rw [State.overTile_eq]
@[simp] theorem State.overTile_telem (s : State) (g t b : Nat) : (s.overTile g t b).telem = s.telem := by rw [State.overTile_eq]
@[simp] theorem State.overTile_free (s : State) (g t b : Nat) : (s.overTile g t b).free = s.free := by rw [State.overTile_eq]
@[simp] theorem State.overTile_pending (s : State) (g t b : Nat) : (s.overTile g t b).pending = s.pending := by rw [State.overTile_eq]

theorem State.overPond_eq (s : State) (g b : Nat) :
    s.overPond g b = { s with
      regs := (s.overPond g b).regs
      hub := (s.overPond g b).hub
      hostMem := (s.overPond g b).hostMem
      overlay := (s.overPond g b).overlay
      tests := (s.overPond g b).tests } := by
  unfold State.overPond State.attribute; rw [State.overlayWrite_eq]

@[simp] theorem State.overPond_mem (s : State) (g b : Nat) : (s.overPond g b).mem = s.mem := by rw [State.overPond_eq]
@[simp] theorem State.overPond_bad (s : State) (g b : Nat) : (s.overPond g b).bad = s.bad := by rw [State.overPond_eq]
@[simp] theorem State.overPond_queues (s : State) (g b : Nat) : (s.overPond g b).queues = s.queues := by rw [State.overPond_eq]
@[simp] theorem State.overPond_steers (s : State) (g b : Nat) : (s.overPond g b).steers = s.steers := by rw [State.overPond_eq]
@[simp] theorem State.overPond_springs (s : State) (g b : Nat) : (s.overPond g b).springs = s.springs := by rw [State.overPond_eq]
@[simp] theorem State.overPond_waiters (s : State) (g b : Nat) : (s.overPond g b).waiters = s.waiters := by rw [State.overPond_eq]
@[simp] theorem State.overPond_evals (s : State) (g b : Nat) : (s.overPond g b).evals = s.evals := by rw [State.overPond_eq]
@[simp] theorem State.overPond_senders (s : State) (g b : Nat) : (s.overPond g b).senders = s.senders := by rw [State.overPond_eq]
@[simp] theorem State.overPond_arrivals (s : State) (g b : Nat) : (s.overPond g b).arrivals = s.arrivals := by rw [State.overPond_eq]
@[simp] theorem State.overPond_mcores (s : State) (g b : Nat) : (s.overPond g b).mcores = s.mcores := by rw [State.overPond_eq]
@[simp] theorem State.overPond_vcores (s : State) (g b : Nat) : (s.overPond g b).vcores = s.vcores := by rw [State.overPond_eq]
@[simp] theorem State.overPond_scores (s : State) (g b : Nat) : (s.overPond g b).scores = s.scores := by rw [State.overPond_eq]
@[simp] theorem State.overPond_gens (s : State) (g b : Nat) : (s.overPond g b).gens = s.gens := by rw [State.overPond_eq]
@[simp] theorem State.overPond_pmem (s : State) (g b : Nat) : (s.overPond g b).pmem = s.pmem := by rw [State.overPond_eq]
@[simp] theorem State.overPond_opal (s : State) (g b : Nat) : (s.overPond g b).opal = s.opal := by rw [State.overPond_eq]
@[simp] theorem State.overPond_latches (s : State) (g b : Nat) : (s.overPond g b).latches = s.latches := by rw [State.overPond_eq]
@[simp] theorem State.overPond_saved (s : State) (g b : Nat) : (s.overPond g b).saved = s.saved := by rw [State.overPond_eq]
@[simp] theorem State.overPond_events (s : State) (g b : Nat) : (s.overPond g b).events = s.events := by rw [State.overPond_eq]
@[simp] theorem State.overPond_net (s : State) (g b : Nat) : (s.overPond g b).net = s.net := by rw [State.overPond_eq]
@[simp] theorem State.overPond_err (s : State) (g b : Nat) : (s.overPond g b).err = s.err := by rw [State.overPond_eq]
@[simp] theorem State.overPond_factory (s : State) (g b : Nat) : (s.overPond g b).factory = s.factory := by rw [State.overPond_eq]
@[simp] theorem State.overPond_parts (s : State) (g b : Nat) : (s.overPond g b).parts = s.parts := by rw [State.overPond_eq]
@[simp] theorem State.overPond_img (s : State) (g b : Nat) : (s.overPond g b).img = s.img := by rw [State.overPond_eq]
@[simp] theorem State.overPond_drams (s : State) (g b : Nat) : (s.overPond g b).drams = s.drams := by rw [State.overPond_eq]
@[simp] theorem State.overPond_colls (s : State) (g b : Nat) : (s.overPond g b).colls = s.colls := by rw [State.overPond_eq]
@[simp] theorem State.overPond_closed (s : State) (g b : Nat) : (s.overPond g b).closed = s.closed := by rw [State.overPond_eq]
@[simp] theorem State.overPond_drainDone (s : State) (g b : Nat) : (s.overPond g b).drainDone = s.drainDone := by rw [State.overPond_eq]
@[simp] theorem State.overPond_time (s : State) (g b : Nat) : (s.overPond g b).time = s.time := by rw [State.overPond_eq]
@[simp] theorem State.overPond_clk (s : State) (g b : Nat) : (s.overPond g b).clk = s.clk := by rw [State.overPond_eq]
@[simp] theorem State.overPond_trust (s : State) (g b : Nat) : (s.overPond g b).trust = s.trust := by rw [State.overPond_eq]
@[simp] theorem State.overPond_ports (s : State) (g b : Nat) : (s.overPond g b).ports = s.ports := by rw [State.overPond_eq]
@[simp] theorem State.overPond_ring (s : State) (g b : Nat) : (s.overPond g b).ring = s.ring := by rw [State.overPond_eq]
@[simp] theorem State.overPond_ref (s : State) (g b : Nat) : (s.overPond g b).ref = s.ref := by rw [State.overPond_eq]
@[simp] theorem State.overPond_lakes (s : State) (g b : Nat) : (s.overPond g b).lakes = s.lakes := by rw [State.overPond_eq]
@[simp] theorem State.overPond_pwr (s : State) (g b : Nat) : (s.overPond g b).pwr = s.pwr := by rw [State.overPond_eq]
@[simp] theorem State.overPond_telem (s : State) (g b : Nat) : (s.overPond g b).telem = s.telem := by rw [State.overPond_eq]
@[simp] theorem State.overPond_free (s : State) (g b : Nat) : (s.overPond g b).free = s.free := by rw [State.overPond_eq]
@[simp] theorem State.overPond_pending (s : State) (g b : Nat) : (s.overPond g b).pending = s.pending := by rw [State.overPond_eq]

theorem State.overLake_eq (s : State) (w b : Nat) :
    s.overLake w b = { s with
      regs := (s.overLake w b).regs
      hub := (s.overLake w b).hub
      hostMem := (s.overLake w b).hostMem
      overlay := (s.overLake w b).overlay } := by
  unfold State.overLake; rw [State.overlayWrite_eq]

@[simp] theorem State.overLake_mem (s : State) (w b : Nat) : (s.overLake w b).mem = s.mem := by rw [State.overLake_eq]
@[simp] theorem State.overLake_bad (s : State) (w b : Nat) : (s.overLake w b).bad = s.bad := by rw [State.overLake_eq]
@[simp] theorem State.overLake_queues (s : State) (w b : Nat) : (s.overLake w b).queues = s.queues := by rw [State.overLake_eq]
@[simp] theorem State.overLake_steers (s : State) (w b : Nat) : (s.overLake w b).steers = s.steers := by rw [State.overLake_eq]
@[simp] theorem State.overLake_springs (s : State) (w b : Nat) : (s.overLake w b).springs = s.springs := by rw [State.overLake_eq]
@[simp] theorem State.overLake_waiters (s : State) (w b : Nat) : (s.overLake w b).waiters = s.waiters := by rw [State.overLake_eq]
@[simp] theorem State.overLake_evals (s : State) (w b : Nat) : (s.overLake w b).evals = s.evals := by rw [State.overLake_eq]
@[simp] theorem State.overLake_senders (s : State) (w b : Nat) : (s.overLake w b).senders = s.senders := by rw [State.overLake_eq]
@[simp] theorem State.overLake_arrivals (s : State) (w b : Nat) : (s.overLake w b).arrivals = s.arrivals := by rw [State.overLake_eq]
@[simp] theorem State.overLake_mcores (s : State) (w b : Nat) : (s.overLake w b).mcores = s.mcores := by rw [State.overLake_eq]
@[simp] theorem State.overLake_vcores (s : State) (w b : Nat) : (s.overLake w b).vcores = s.vcores := by rw [State.overLake_eq]
@[simp] theorem State.overLake_scores (s : State) (w b : Nat) : (s.overLake w b).scores = s.scores := by rw [State.overLake_eq]
@[simp] theorem State.overLake_gens (s : State) (w b : Nat) : (s.overLake w b).gens = s.gens := by rw [State.overLake_eq]
@[simp] theorem State.overLake_pmem (s : State) (w b : Nat) : (s.overLake w b).pmem = s.pmem := by rw [State.overLake_eq]
@[simp] theorem State.overLake_opal (s : State) (w b : Nat) : (s.overLake w b).opal = s.opal := by rw [State.overLake_eq]
@[simp] theorem State.overLake_latches (s : State) (w b : Nat) : (s.overLake w b).latches = s.latches := by rw [State.overLake_eq]
@[simp] theorem State.overLake_saved (s : State) (w b : Nat) : (s.overLake w b).saved = s.saved := by rw [State.overLake_eq]
@[simp] theorem State.overLake_events (s : State) (w b : Nat) : (s.overLake w b).events = s.events := by rw [State.overLake_eq]
@[simp] theorem State.overLake_net (s : State) (w b : Nat) : (s.overLake w b).net = s.net := by rw [State.overLake_eq]
@[simp] theorem State.overLake_err (s : State) (w b : Nat) : (s.overLake w b).err = s.err := by rw [State.overLake_eq]
@[simp] theorem State.overLake_factory (s : State) (w b : Nat) : (s.overLake w b).factory = s.factory := by rw [State.overLake_eq]
@[simp] theorem State.overLake_parts (s : State) (w b : Nat) : (s.overLake w b).parts = s.parts := by rw [State.overLake_eq]
@[simp] theorem State.overLake_img (s : State) (w b : Nat) : (s.overLake w b).img = s.img := by rw [State.overLake_eq]
@[simp] theorem State.overLake_drams (s : State) (w b : Nat) : (s.overLake w b).drams = s.drams := by rw [State.overLake_eq]
@[simp] theorem State.overLake_colls (s : State) (w b : Nat) : (s.overLake w b).colls = s.colls := by rw [State.overLake_eq]
@[simp] theorem State.overLake_closed (s : State) (w b : Nat) : (s.overLake w b).closed = s.closed := by rw [State.overLake_eq]
@[simp] theorem State.overLake_drainDone (s : State) (w b : Nat) : (s.overLake w b).drainDone = s.drainDone := by rw [State.overLake_eq]
@[simp] theorem State.overLake_tests (s : State) (w b : Nat) : (s.overLake w b).tests = s.tests := by rw [State.overLake_eq]
@[simp] theorem State.overLake_time (s : State) (w b : Nat) : (s.overLake w b).time = s.time := by rw [State.overLake_eq]
@[simp] theorem State.overLake_clk (s : State) (w b : Nat) : (s.overLake w b).clk = s.clk := by rw [State.overLake_eq]
@[simp] theorem State.overLake_trust (s : State) (w b : Nat) : (s.overLake w b).trust = s.trust := by rw [State.overLake_eq]
@[simp] theorem State.overLake_ports (s : State) (w b : Nat) : (s.overLake w b).ports = s.ports := by rw [State.overLake_eq]
@[simp] theorem State.overLake_ring (s : State) (w b : Nat) : (s.overLake w b).ring = s.ring := by rw [State.overLake_eq]
@[simp] theorem State.overLake_ref (s : State) (w b : Nat) : (s.overLake w b).ref = s.ref := by rw [State.overLake_eq]
@[simp] theorem State.overLake_lakes (s : State) (w b : Nat) : (s.overLake w b).lakes = s.lakes := by rw [State.overLake_eq]
@[simp] theorem State.overLake_pwr (s : State) (w b : Nat) : (s.overLake w b).pwr = s.pwr := by rw [State.overLake_eq]
@[simp] theorem State.overLake_telem (s : State) (w b : Nat) : (s.overLake w b).telem = s.telem := by rw [State.overLake_eq]
@[simp] theorem State.overLake_free (s : State) (w b : Nat) : (s.overLake w b).free = s.free := by rw [State.overLake_eq]
@[simp] theorem State.overLake_pending (s : State) (w b : Nat) : (s.overLake w b).pending = s.pending := by rw [State.overLake_eq]

theorem State.overField_eq (s : State) (f b : Nat) :
    s.overField f b = { s with
      regs := (s.overField f b).regs
      hub := (s.overField f b).hub
      hostMem := (s.overField f b).hostMem
      overlay := (s.overField f b).overlay } := by
  unfold State.overField; rw [State.overlayWrite_eq]

@[simp] theorem State.overField_mem (s : State) (f b : Nat) : (s.overField f b).mem = s.mem := by rw [State.overField_eq]
@[simp] theorem State.overField_bad (s : State) (f b : Nat) : (s.overField f b).bad = s.bad := by rw [State.overField_eq]
@[simp] theorem State.overField_queues (s : State) (f b : Nat) : (s.overField f b).queues = s.queues := by rw [State.overField_eq]
@[simp] theorem State.overField_steers (s : State) (f b : Nat) : (s.overField f b).steers = s.steers := by rw [State.overField_eq]
@[simp] theorem State.overField_springs (s : State) (f b : Nat) : (s.overField f b).springs = s.springs := by rw [State.overField_eq]
@[simp] theorem State.overField_waiters (s : State) (f b : Nat) : (s.overField f b).waiters = s.waiters := by rw [State.overField_eq]
@[simp] theorem State.overField_evals (s : State) (f b : Nat) : (s.overField f b).evals = s.evals := by rw [State.overField_eq]
@[simp] theorem State.overField_senders (s : State) (f b : Nat) : (s.overField f b).senders = s.senders := by rw [State.overField_eq]
@[simp] theorem State.overField_arrivals (s : State) (f b : Nat) : (s.overField f b).arrivals = s.arrivals := by rw [State.overField_eq]
@[simp] theorem State.overField_mcores (s : State) (f b : Nat) : (s.overField f b).mcores = s.mcores := by rw [State.overField_eq]
@[simp] theorem State.overField_vcores (s : State) (f b : Nat) : (s.overField f b).vcores = s.vcores := by rw [State.overField_eq]
@[simp] theorem State.overField_scores (s : State) (f b : Nat) : (s.overField f b).scores = s.scores := by rw [State.overField_eq]
@[simp] theorem State.overField_gens (s : State) (f b : Nat) : (s.overField f b).gens = s.gens := by rw [State.overField_eq]
@[simp] theorem State.overField_pmem (s : State) (f b : Nat) : (s.overField f b).pmem = s.pmem := by rw [State.overField_eq]
@[simp] theorem State.overField_opal (s : State) (f b : Nat) : (s.overField f b).opal = s.opal := by rw [State.overField_eq]
@[simp] theorem State.overField_latches (s : State) (f b : Nat) : (s.overField f b).latches = s.latches := by rw [State.overField_eq]
@[simp] theorem State.overField_saved (s : State) (f b : Nat) : (s.overField f b).saved = s.saved := by rw [State.overField_eq]
@[simp] theorem State.overField_events (s : State) (f b : Nat) : (s.overField f b).events = s.events := by rw [State.overField_eq]
@[simp] theorem State.overField_net (s : State) (f b : Nat) : (s.overField f b).net = s.net := by rw [State.overField_eq]
@[simp] theorem State.overField_err (s : State) (f b : Nat) : (s.overField f b).err = s.err := by rw [State.overField_eq]
@[simp] theorem State.overField_factory (s : State) (f b : Nat) : (s.overField f b).factory = s.factory := by rw [State.overField_eq]
@[simp] theorem State.overField_parts (s : State) (f b : Nat) : (s.overField f b).parts = s.parts := by rw [State.overField_eq]
@[simp] theorem State.overField_img (s : State) (f b : Nat) : (s.overField f b).img = s.img := by rw [State.overField_eq]
@[simp] theorem State.overField_drams (s : State) (f b : Nat) : (s.overField f b).drams = s.drams := by rw [State.overField_eq]
@[simp] theorem State.overField_colls (s : State) (f b : Nat) : (s.overField f b).colls = s.colls := by rw [State.overField_eq]
@[simp] theorem State.overField_closed (s : State) (f b : Nat) : (s.overField f b).closed = s.closed := by rw [State.overField_eq]
@[simp] theorem State.overField_drainDone (s : State) (f b : Nat) : (s.overField f b).drainDone = s.drainDone := by rw [State.overField_eq]
@[simp] theorem State.overField_tests (s : State) (f b : Nat) : (s.overField f b).tests = s.tests := by rw [State.overField_eq]
@[simp] theorem State.overField_time (s : State) (f b : Nat) : (s.overField f b).time = s.time := by rw [State.overField_eq]
@[simp] theorem State.overField_clk (s : State) (f b : Nat) : (s.overField f b).clk = s.clk := by rw [State.overField_eq]
@[simp] theorem State.overField_trust (s : State) (f b : Nat) : (s.overField f b).trust = s.trust := by rw [State.overField_eq]
@[simp] theorem State.overField_ports (s : State) (f b : Nat) : (s.overField f b).ports = s.ports := by rw [State.overField_eq]
@[simp] theorem State.overField_ring (s : State) (f b : Nat) : (s.overField f b).ring = s.ring := by rw [State.overField_eq]
@[simp] theorem State.overField_ref (s : State) (f b : Nat) : (s.overField f b).ref = s.ref := by rw [State.overField_eq]
@[simp] theorem State.overField_lakes (s : State) (f b : Nat) : (s.overField f b).lakes = s.lakes := by rw [State.overField_eq]
@[simp] theorem State.overField_pwr (s : State) (f b : Nat) : (s.overField f b).pwr = s.pwr := by rw [State.overField_eq]
@[simp] theorem State.overField_telem (s : State) (f b : Nat) : (s.overField f b).telem = s.telem := by rw [State.overField_eq]
@[simp] theorem State.overField_free (s : State) (f b : Nat) : (s.overField f b).free = s.free := by rw [State.overField_eq]
@[simp] theorem State.overField_pending (s : State) (f b : Nat) : (s.overField f b).pending = s.pending := by rw [State.overField_eq]

theorem State.sramLoss_eq (s : State) (g u o p : Nat) :
    s.sramLoss g u o p = { s with
      regs := (s.sramLoss g u o p).regs
      hub := (s.sramLoss g u o p).hub
      hostMem := (s.sramLoss g u o p).hostMem
      net := (s.sramLoss g u o p).net
      overlay := (s.sramLoss g u o p).overlay
      tests := (s.sramLoss g u o p).tests
      err := (s.sramLoss g u o p).err } := by
  unfold State.sramLoss; dsimp only; split
  · rw [State.overPond_eq]; rfl
  · rw [State.overTile_eq]; rfl

@[simp] theorem State.sramLoss_mem (s : State) (g u o p : Nat) : (s.sramLoss g u o p).mem = s.mem := by rw [State.sramLoss_eq]
@[simp] theorem State.sramLoss_bad (s : State) (g u o p : Nat) : (s.sramLoss g u o p).bad = s.bad := by rw [State.sramLoss_eq]
@[simp] theorem State.sramLoss_queues (s : State) (g u o p : Nat) : (s.sramLoss g u o p).queues = s.queues := by rw [State.sramLoss_eq]
@[simp] theorem State.sramLoss_steers (s : State) (g u o p : Nat) : (s.sramLoss g u o p).steers = s.steers := by rw [State.sramLoss_eq]
@[simp] theorem State.sramLoss_springs (s : State) (g u o p : Nat) : (s.sramLoss g u o p).springs = s.springs := by rw [State.sramLoss_eq]
@[simp] theorem State.sramLoss_waiters (s : State) (g u o p : Nat) : (s.sramLoss g u o p).waiters = s.waiters := by rw [State.sramLoss_eq]
@[simp] theorem State.sramLoss_evals (s : State) (g u o p : Nat) : (s.sramLoss g u o p).evals = s.evals := by rw [State.sramLoss_eq]
@[simp] theorem State.sramLoss_senders (s : State) (g u o p : Nat) : (s.sramLoss g u o p).senders = s.senders := by rw [State.sramLoss_eq]
@[simp] theorem State.sramLoss_arrivals (s : State) (g u o p : Nat) : (s.sramLoss g u o p).arrivals = s.arrivals := by rw [State.sramLoss_eq]
@[simp] theorem State.sramLoss_mcores (s : State) (g u o p : Nat) : (s.sramLoss g u o p).mcores = s.mcores := by rw [State.sramLoss_eq]
@[simp] theorem State.sramLoss_vcores (s : State) (g u o p : Nat) : (s.sramLoss g u o p).vcores = s.vcores := by rw [State.sramLoss_eq]
@[simp] theorem State.sramLoss_scores (s : State) (g u o p : Nat) : (s.sramLoss g u o p).scores = s.scores := by rw [State.sramLoss_eq]
@[simp] theorem State.sramLoss_gens (s : State) (g u o p : Nat) : (s.sramLoss g u o p).gens = s.gens := by rw [State.sramLoss_eq]
@[simp] theorem State.sramLoss_pmem (s : State) (g u o p : Nat) : (s.sramLoss g u o p).pmem = s.pmem := by rw [State.sramLoss_eq]
@[simp] theorem State.sramLoss_opal (s : State) (g u o p : Nat) : (s.sramLoss g u o p).opal = s.opal := by rw [State.sramLoss_eq]
@[simp] theorem State.sramLoss_latches (s : State) (g u o p : Nat) : (s.sramLoss g u o p).latches = s.latches := by rw [State.sramLoss_eq]
@[simp] theorem State.sramLoss_saved (s : State) (g u o p : Nat) : (s.sramLoss g u o p).saved = s.saved := by rw [State.sramLoss_eq]
@[simp] theorem State.sramLoss_events (s : State) (g u o p : Nat) : (s.sramLoss g u o p).events = s.events := by rw [State.sramLoss_eq]
@[simp] theorem State.sramLoss_factory (s : State) (g u o p : Nat) : (s.sramLoss g u o p).factory = s.factory := by rw [State.sramLoss_eq]
@[simp] theorem State.sramLoss_parts (s : State) (g u o p : Nat) : (s.sramLoss g u o p).parts = s.parts := by rw [State.sramLoss_eq]
@[simp] theorem State.sramLoss_img (s : State) (g u o p : Nat) : (s.sramLoss g u o p).img = s.img := by rw [State.sramLoss_eq]
@[simp] theorem State.sramLoss_drams (s : State) (g u o p : Nat) : (s.sramLoss g u o p).drams = s.drams := by rw [State.sramLoss_eq]
@[simp] theorem State.sramLoss_colls (s : State) (g u o p : Nat) : (s.sramLoss g u o p).colls = s.colls := by rw [State.sramLoss_eq]
@[simp] theorem State.sramLoss_closed (s : State) (g u o p : Nat) : (s.sramLoss g u o p).closed = s.closed := by rw [State.sramLoss_eq]
@[simp] theorem State.sramLoss_drainDone (s : State) (g u o p : Nat) : (s.sramLoss g u o p).drainDone = s.drainDone := by rw [State.sramLoss_eq]
@[simp] theorem State.sramLoss_time (s : State) (g u o p : Nat) : (s.sramLoss g u o p).time = s.time := by rw [State.sramLoss_eq]
@[simp] theorem State.sramLoss_clk (s : State) (g u o p : Nat) : (s.sramLoss g u o p).clk = s.clk := by rw [State.sramLoss_eq]
@[simp] theorem State.sramLoss_trust (s : State) (g u o p : Nat) : (s.sramLoss g u o p).trust = s.trust := by rw [State.sramLoss_eq]
@[simp] theorem State.sramLoss_ports (s : State) (g u o p : Nat) : (s.sramLoss g u o p).ports = s.ports := by rw [State.sramLoss_eq]
@[simp] theorem State.sramLoss_ring (s : State) (g u o p : Nat) : (s.sramLoss g u o p).ring = s.ring := by rw [State.sramLoss_eq]
@[simp] theorem State.sramLoss_ref (s : State) (g u o p : Nat) : (s.sramLoss g u o p).ref = s.ref := by rw [State.sramLoss_eq]
@[simp] theorem State.sramLoss_lakes (s : State) (g u o p : Nat) : (s.sramLoss g u o p).lakes = s.lakes := by rw [State.sramLoss_eq]
@[simp] theorem State.sramLoss_pwr (s : State) (g u o p : Nat) : (s.sramLoss g u o p).pwr = s.pwr := by rw [State.sramLoss_eq]
@[simp] theorem State.sramLoss_telem (s : State) (g u o p : Nat) : (s.sramLoss g u o p).telem = s.telem := by rw [State.sramLoss_eq]
@[simp] theorem State.sramLoss_free (s : State) (g u o p : Nat) : (s.sramLoss g u o p).free = s.free := by rw [State.sramLoss_eq]
@[simp] theorem State.sramLoss_pending (s : State) (g u o p : Nat) : (s.sramLoss g u o p).pending = s.pending := by rw [State.sramLoss_eq]

theorem State.sramPoison_eq (s : State) (g t u o p : Nat) :
    s.sramPoison g t u o p = { s with
      regs := (s.sramPoison g t u o p).regs
      hub := (s.sramPoison g t u o p).hub
      hostMem := (s.sramPoison g t u o p).hostMem
      net := (s.sramPoison g t u o p).net
      overlay := (s.sramPoison g t u o p).overlay
      tests := (s.sramPoison g t u o p).tests
      err := (s.sramPoison g t u o p).err
      events := (s.sramPoison g t u o p).events } := by
  unfold State.sramPoison; rw [State.sramLoss_eq]; rfl

@[simp] theorem State.sramPoison_mem (s : State) (g t u o p : Nat) : (s.sramPoison g t u o p).mem = s.mem := by rw [State.sramPoison_eq]
@[simp] theorem State.sramPoison_bad (s : State) (g t u o p : Nat) : (s.sramPoison g t u o p).bad = s.bad := by rw [State.sramPoison_eq]
@[simp] theorem State.sramPoison_queues (s : State) (g t u o p : Nat) : (s.sramPoison g t u o p).queues = s.queues := by rw [State.sramPoison_eq]
@[simp] theorem State.sramPoison_steers (s : State) (g t u o p : Nat) : (s.sramPoison g t u o p).steers = s.steers := by rw [State.sramPoison_eq]
@[simp] theorem State.sramPoison_springs (s : State) (g t u o p : Nat) : (s.sramPoison g t u o p).springs = s.springs := by rw [State.sramPoison_eq]
@[simp] theorem State.sramPoison_waiters (s : State) (g t u o p : Nat) : (s.sramPoison g t u o p).waiters = s.waiters := by rw [State.sramPoison_eq]
@[simp] theorem State.sramPoison_evals (s : State) (g t u o p : Nat) : (s.sramPoison g t u o p).evals = s.evals := by rw [State.sramPoison_eq]
@[simp] theorem State.sramPoison_senders (s : State) (g t u o p : Nat) : (s.sramPoison g t u o p).senders = s.senders := by rw [State.sramPoison_eq]
@[simp] theorem State.sramPoison_arrivals (s : State) (g t u o p : Nat) : (s.sramPoison g t u o p).arrivals = s.arrivals := by rw [State.sramPoison_eq]
@[simp] theorem State.sramPoison_mcores (s : State) (g t u o p : Nat) : (s.sramPoison g t u o p).mcores = s.mcores := by rw [State.sramPoison_eq]
@[simp] theorem State.sramPoison_vcores (s : State) (g t u o p : Nat) : (s.sramPoison g t u o p).vcores = s.vcores := by rw [State.sramPoison_eq]
@[simp] theorem State.sramPoison_scores (s : State) (g t u o p : Nat) : (s.sramPoison g t u o p).scores = s.scores := by rw [State.sramPoison_eq]
@[simp] theorem State.sramPoison_gens (s : State) (g t u o p : Nat) : (s.sramPoison g t u o p).gens = s.gens := by rw [State.sramPoison_eq]
@[simp] theorem State.sramPoison_pmem (s : State) (g t u o p : Nat) : (s.sramPoison g t u o p).pmem = s.pmem := by rw [State.sramPoison_eq]
@[simp] theorem State.sramPoison_opal (s : State) (g t u o p : Nat) : (s.sramPoison g t u o p).opal = s.opal := by rw [State.sramPoison_eq]
@[simp] theorem State.sramPoison_latches (s : State) (g t u o p : Nat) : (s.sramPoison g t u o p).latches = s.latches := by rw [State.sramPoison_eq]
@[simp] theorem State.sramPoison_saved (s : State) (g t u o p : Nat) : (s.sramPoison g t u o p).saved = s.saved := by rw [State.sramPoison_eq]
@[simp] theorem State.sramPoison_factory (s : State) (g t u o p : Nat) : (s.sramPoison g t u o p).factory = s.factory := by rw [State.sramPoison_eq]
@[simp] theorem State.sramPoison_parts (s : State) (g t u o p : Nat) : (s.sramPoison g t u o p).parts = s.parts := by rw [State.sramPoison_eq]
@[simp] theorem State.sramPoison_img (s : State) (g t u o p : Nat) : (s.sramPoison g t u o p).img = s.img := by rw [State.sramPoison_eq]
@[simp] theorem State.sramPoison_drams (s : State) (g t u o p : Nat) : (s.sramPoison g t u o p).drams = s.drams := by rw [State.sramPoison_eq]
@[simp] theorem State.sramPoison_colls (s : State) (g t u o p : Nat) : (s.sramPoison g t u o p).colls = s.colls := by rw [State.sramPoison_eq]
@[simp] theorem State.sramPoison_closed (s : State) (g t u o p : Nat) : (s.sramPoison g t u o p).closed = s.closed := by rw [State.sramPoison_eq]
@[simp] theorem State.sramPoison_drainDone (s : State) (g t u o p : Nat) : (s.sramPoison g t u o p).drainDone = s.drainDone := by rw [State.sramPoison_eq]
@[simp] theorem State.sramPoison_time (s : State) (g t u o p : Nat) : (s.sramPoison g t u o p).time = s.time := by rw [State.sramPoison_eq]
@[simp] theorem State.sramPoison_clk (s : State) (g t u o p : Nat) : (s.sramPoison g t u o p).clk = s.clk := by rw [State.sramPoison_eq]
@[simp] theorem State.sramPoison_trust (s : State) (g t u o p : Nat) : (s.sramPoison g t u o p).trust = s.trust := by rw [State.sramPoison_eq]
@[simp] theorem State.sramPoison_ports (s : State) (g t u o p : Nat) : (s.sramPoison g t u o p).ports = s.ports := by rw [State.sramPoison_eq]
@[simp] theorem State.sramPoison_ring (s : State) (g t u o p : Nat) : (s.sramPoison g t u o p).ring = s.ring := by rw [State.sramPoison_eq]
@[simp] theorem State.sramPoison_ref (s : State) (g t u o p : Nat) : (s.sramPoison g t u o p).ref = s.ref := by rw [State.sramPoison_eq]
@[simp] theorem State.sramPoison_lakes (s : State) (g t u o p : Nat) : (s.sramPoison g t u o p).lakes = s.lakes := by rw [State.sramPoison_eq]
@[simp] theorem State.sramPoison_pwr (s : State) (g t u o p : Nat) : (s.sramPoison g t u o p).pwr = s.pwr := by rw [State.sramPoison_eq]
@[simp] theorem State.sramPoison_telem (s : State) (g t u o p : Nat) : (s.sramPoison g t u o p).telem = s.telem := by rw [State.sramPoison_eq]
@[simp] theorem State.sramPoison_free (s : State) (g t u o p : Nat) : (s.sramPoison g t u o p).free = s.free := by rw [State.sramPoison_eq]
@[simp] theorem State.sramPoison_pending (s : State) (g t u o p : Nat) : (s.sramPoison g t u o p).pending = s.pending := by rw [State.sramPoison_eq]

theorem State.applySignal_eq (s : State) (g n a : Nat) :
    s.applySignal g n a = { s with
      springs := (s.applySignal g n a).springs
      regs := (s.applySignal g n a).regs
      err := (s.applySignal g n a).err } := by
  unfold State.applySignal; dsimp only; split
  · rw [State.count_eq]; rfl
  · unfold State.recTile State.sendRec; rw [State.count_eq]; rfl

@[simp] theorem State.applySignal_mem (s : State) (g n a : Nat) : (s.applySignal g n a).mem = s.mem := by rw [State.applySignal_eq]
@[simp] theorem State.applySignal_bad (s : State) (g n a : Nat) : (s.applySignal g n a).bad = s.bad := by rw [State.applySignal_eq]
@[simp] theorem State.applySignal_hostMem (s : State) (g n a : Nat) : (s.applySignal g n a).hostMem = s.hostMem := by rw [State.applySignal_eq]
@[simp] theorem State.applySignal_queues (s : State) (g n a : Nat) : (s.applySignal g n a).queues = s.queues := by rw [State.applySignal_eq]
@[simp] theorem State.applySignal_steers (s : State) (g n a : Nat) : (s.applySignal g n a).steers = s.steers := by rw [State.applySignal_eq]
@[simp] theorem State.applySignal_waiters (s : State) (g n a : Nat) : (s.applySignal g n a).waiters = s.waiters := by rw [State.applySignal_eq]
@[simp] theorem State.applySignal_evals (s : State) (g n a : Nat) : (s.applySignal g n a).evals = s.evals := by rw [State.applySignal_eq]
@[simp] theorem State.applySignal_senders (s : State) (g n a : Nat) : (s.applySignal g n a).senders = s.senders := by rw [State.applySignal_eq]
@[simp] theorem State.applySignal_arrivals (s : State) (g n a : Nat) : (s.applySignal g n a).arrivals = s.arrivals := by rw [State.applySignal_eq]
@[simp] theorem State.applySignal_mcores (s : State) (g n a : Nat) : (s.applySignal g n a).mcores = s.mcores := by rw [State.applySignal_eq]
@[simp] theorem State.applySignal_vcores (s : State) (g n a : Nat) : (s.applySignal g n a).vcores = s.vcores := by rw [State.applySignal_eq]
@[simp] theorem State.applySignal_scores (s : State) (g n a : Nat) : (s.applySignal g n a).scores = s.scores := by rw [State.applySignal_eq]
@[simp] theorem State.applySignal_gens (s : State) (g n a : Nat) : (s.applySignal g n a).gens = s.gens := by rw [State.applySignal_eq]
@[simp] theorem State.applySignal_pmem (s : State) (g n a : Nat) : (s.applySignal g n a).pmem = s.pmem := by rw [State.applySignal_eq]
@[simp] theorem State.applySignal_opal (s : State) (g n a : Nat) : (s.applySignal g n a).opal = s.opal := by rw [State.applySignal_eq]
@[simp] theorem State.applySignal_latches (s : State) (g n a : Nat) : (s.applySignal g n a).latches = s.latches := by rw [State.applySignal_eq]
@[simp] theorem State.applySignal_saved (s : State) (g n a : Nat) : (s.applySignal g n a).saved = s.saved := by rw [State.applySignal_eq]
@[simp] theorem State.applySignal_events (s : State) (g n a : Nat) : (s.applySignal g n a).events = s.events := by rw [State.applySignal_eq]
@[simp] theorem State.applySignal_net (s : State) (g n a : Nat) : (s.applySignal g n a).net = s.net := by rw [State.applySignal_eq]
@[simp] theorem State.applySignal_factory (s : State) (g n a : Nat) : (s.applySignal g n a).factory = s.factory := by rw [State.applySignal_eq]
@[simp] theorem State.applySignal_overlay (s : State) (g n a : Nat) : (s.applySignal g n a).overlay = s.overlay := by rw [State.applySignal_eq]
@[simp] theorem State.applySignal_parts (s : State) (g n a : Nat) : (s.applySignal g n a).parts = s.parts := by rw [State.applySignal_eq]
@[simp] theorem State.applySignal_img (s : State) (g n a : Nat) : (s.applySignal g n a).img = s.img := by rw [State.applySignal_eq]
@[simp] theorem State.applySignal_drams (s : State) (g n a : Nat) : (s.applySignal g n a).drams = s.drams := by rw [State.applySignal_eq]
@[simp] theorem State.applySignal_colls (s : State) (g n a : Nat) : (s.applySignal g n a).colls = s.colls := by rw [State.applySignal_eq]
@[simp] theorem State.applySignal_closed (s : State) (g n a : Nat) : (s.applySignal g n a).closed = s.closed := by rw [State.applySignal_eq]
@[simp] theorem State.applySignal_drainDone (s : State) (g n a : Nat) : (s.applySignal g n a).drainDone = s.drainDone := by rw [State.applySignal_eq]
@[simp] theorem State.applySignal_tests (s : State) (g n a : Nat) : (s.applySignal g n a).tests = s.tests := by rw [State.applySignal_eq]
@[simp] theorem State.applySignal_time (s : State) (g n a : Nat) : (s.applySignal g n a).time = s.time := by rw [State.applySignal_eq]
@[simp] theorem State.applySignal_clk (s : State) (g n a : Nat) : (s.applySignal g n a).clk = s.clk := by rw [State.applySignal_eq]
@[simp] theorem State.applySignal_hub (s : State) (g n a : Nat) : (s.applySignal g n a).hub = s.hub := by rw [State.applySignal_eq]
@[simp] theorem State.applySignal_trust (s : State) (g n a : Nat) : (s.applySignal g n a).trust = s.trust := by rw [State.applySignal_eq]
@[simp] theorem State.applySignal_ports (s : State) (g n a : Nat) : (s.applySignal g n a).ports = s.ports := by rw [State.applySignal_eq]
@[simp] theorem State.applySignal_ring (s : State) (g n a : Nat) : (s.applySignal g n a).ring = s.ring := by rw [State.applySignal_eq]
@[simp] theorem State.applySignal_ref (s : State) (g n a : Nat) : (s.applySignal g n a).ref = s.ref := by rw [State.applySignal_eq]
@[simp] theorem State.applySignal_lakes (s : State) (g n a : Nat) : (s.applySignal g n a).lakes = s.lakes := by rw [State.applySignal_eq]
@[simp] theorem State.applySignal_pwr (s : State) (g n a : Nat) : (s.applySignal g n a).pwr = s.pwr := by rw [State.applySignal_eq]
@[simp] theorem State.applySignal_telem (s : State) (g n a : Nat) : (s.applySignal g n a).telem = s.telem := by rw [State.applySignal_eq]
@[simp] theorem State.applySignal_free (s : State) (g n a : Nat) : (s.applySignal g n a).free = s.free := by rw [State.applySignal_eq]
@[simp] theorem State.applySignal_pending (s : State) (g n a : Nat) : (s.applySignal g n a).pending = s.pending := by rw [State.applySignal_eq]

theorem State.opalAbort_eq (s : State) (g t : Nat) :
    s.opalAbort g t = { s with
      opal := (s.opalAbort g t).opal
      regs := (s.opalAbort g t).regs } := by
  unfold State.opalAbort; dsimp only; split
  · rw [State.count_eq]; rfl
  · rfl

@[simp] theorem State.opalAbort_mem (s : State) (g t : Nat) : (s.opalAbort g t).mem = s.mem := by rw [State.opalAbort_eq]
@[simp] theorem State.opalAbort_bad (s : State) (g t : Nat) : (s.opalAbort g t).bad = s.bad := by rw [State.opalAbort_eq]
@[simp] theorem State.opalAbort_hostMem (s : State) (g t : Nat) : (s.opalAbort g t).hostMem = s.hostMem := by rw [State.opalAbort_eq]
@[simp] theorem State.opalAbort_queues (s : State) (g t : Nat) : (s.opalAbort g t).queues = s.queues := by rw [State.opalAbort_eq]
@[simp] theorem State.opalAbort_steers (s : State) (g t : Nat) : (s.opalAbort g t).steers = s.steers := by rw [State.opalAbort_eq]
@[simp] theorem State.opalAbort_springs (s : State) (g t : Nat) : (s.opalAbort g t).springs = s.springs := by rw [State.opalAbort_eq]
@[simp] theorem State.opalAbort_waiters (s : State) (g t : Nat) : (s.opalAbort g t).waiters = s.waiters := by rw [State.opalAbort_eq]
@[simp] theorem State.opalAbort_evals (s : State) (g t : Nat) : (s.opalAbort g t).evals = s.evals := by rw [State.opalAbort_eq]
@[simp] theorem State.opalAbort_senders (s : State) (g t : Nat) : (s.opalAbort g t).senders = s.senders := by rw [State.opalAbort_eq]
@[simp] theorem State.opalAbort_arrivals (s : State) (g t : Nat) : (s.opalAbort g t).arrivals = s.arrivals := by rw [State.opalAbort_eq]
@[simp] theorem State.opalAbort_mcores (s : State) (g t : Nat) : (s.opalAbort g t).mcores = s.mcores := by rw [State.opalAbort_eq]
@[simp] theorem State.opalAbort_vcores (s : State) (g t : Nat) : (s.opalAbort g t).vcores = s.vcores := by rw [State.opalAbort_eq]
@[simp] theorem State.opalAbort_scores (s : State) (g t : Nat) : (s.opalAbort g t).scores = s.scores := by rw [State.opalAbort_eq]
@[simp] theorem State.opalAbort_gens (s : State) (g t : Nat) : (s.opalAbort g t).gens = s.gens := by rw [State.opalAbort_eq]
@[simp] theorem State.opalAbort_pmem (s : State) (g t : Nat) : (s.opalAbort g t).pmem = s.pmem := by rw [State.opalAbort_eq]
@[simp] theorem State.opalAbort_latches (s : State) (g t : Nat) : (s.opalAbort g t).latches = s.latches := by rw [State.opalAbort_eq]
@[simp] theorem State.opalAbort_saved (s : State) (g t : Nat) : (s.opalAbort g t).saved = s.saved := by rw [State.opalAbort_eq]
@[simp] theorem State.opalAbort_events (s : State) (g t : Nat) : (s.opalAbort g t).events = s.events := by rw [State.opalAbort_eq]
@[simp] theorem State.opalAbort_net (s : State) (g t : Nat) : (s.opalAbort g t).net = s.net := by rw [State.opalAbort_eq]
@[simp] theorem State.opalAbort_err (s : State) (g t : Nat) : (s.opalAbort g t).err = s.err := by rw [State.opalAbort_eq]
@[simp] theorem State.opalAbort_factory (s : State) (g t : Nat) : (s.opalAbort g t).factory = s.factory := by rw [State.opalAbort_eq]
@[simp] theorem State.opalAbort_overlay (s : State) (g t : Nat) : (s.opalAbort g t).overlay = s.overlay := by rw [State.opalAbort_eq]
@[simp] theorem State.opalAbort_parts (s : State) (g t : Nat) : (s.opalAbort g t).parts = s.parts := by rw [State.opalAbort_eq]
@[simp] theorem State.opalAbort_img (s : State) (g t : Nat) : (s.opalAbort g t).img = s.img := by rw [State.opalAbort_eq]
@[simp] theorem State.opalAbort_drams (s : State) (g t : Nat) : (s.opalAbort g t).drams = s.drams := by rw [State.opalAbort_eq]
@[simp] theorem State.opalAbort_colls (s : State) (g t : Nat) : (s.opalAbort g t).colls = s.colls := by rw [State.opalAbort_eq]
@[simp] theorem State.opalAbort_closed (s : State) (g t : Nat) : (s.opalAbort g t).closed = s.closed := by rw [State.opalAbort_eq]
@[simp] theorem State.opalAbort_drainDone (s : State) (g t : Nat) : (s.opalAbort g t).drainDone = s.drainDone := by rw [State.opalAbort_eq]
@[simp] theorem State.opalAbort_tests (s : State) (g t : Nat) : (s.opalAbort g t).tests = s.tests := by rw [State.opalAbort_eq]
@[simp] theorem State.opalAbort_time (s : State) (g t : Nat) : (s.opalAbort g t).time = s.time := by rw [State.opalAbort_eq]
@[simp] theorem State.opalAbort_clk (s : State) (g t : Nat) : (s.opalAbort g t).clk = s.clk := by rw [State.opalAbort_eq]
@[simp] theorem State.opalAbort_hub (s : State) (g t : Nat) : (s.opalAbort g t).hub = s.hub := by rw [State.opalAbort_eq]
@[simp] theorem State.opalAbort_trust (s : State) (g t : Nat) : (s.opalAbort g t).trust = s.trust := by rw [State.opalAbort_eq]
@[simp] theorem State.opalAbort_ports (s : State) (g t : Nat) : (s.opalAbort g t).ports = s.ports := by rw [State.opalAbort_eq]
@[simp] theorem State.opalAbort_ring (s : State) (g t : Nat) : (s.opalAbort g t).ring = s.ring := by rw [State.opalAbort_eq]
@[simp] theorem State.opalAbort_ref (s : State) (g t : Nat) : (s.opalAbort g t).ref = s.ref := by rw [State.opalAbort_eq]
@[simp] theorem State.opalAbort_lakes (s : State) (g t : Nat) : (s.opalAbort g t).lakes = s.lakes := by rw [State.opalAbort_eq]
@[simp] theorem State.opalAbort_pwr (s : State) (g t : Nat) : (s.opalAbort g t).pwr = s.pwr := by rw [State.opalAbort_eq]
@[simp] theorem State.opalAbort_telem (s : State) (g t : Nat) : (s.opalAbort g t).telem = s.telem := by rw [State.opalAbort_eq]
@[simp] theorem State.opalAbort_free (s : State) (g t : Nat) : (s.opalAbort g t).free = s.free := by rw [State.opalAbort_eq]
@[simp] theorem State.opalAbort_pending (s : State) (g t : Nat) : (s.opalAbort g t).pending = s.pending := by rw [State.opalAbort_eq]

theorem State.queueStall_eq (s : State) (g t : Nat) (o : Bool) (q n : Nat) :
    s.queueStall g t o q n = { s with
      regs := (s.queueStall g t o q n).regs } := by
  unfold State.queueStall; split <;> exact State.counti_eq _ _ _ _ _ _ _ _

@[simp] theorem State.queueStall_mem (s : State) (g t : Nat) (o : Bool) (q n : Nat) : (s.queueStall g t o q n).mem = s.mem := by rw [State.queueStall_eq]
@[simp] theorem State.queueStall_bad (s : State) (g t : Nat) (o : Bool) (q n : Nat) : (s.queueStall g t o q n).bad = s.bad := by rw [State.queueStall_eq]
@[simp] theorem State.queueStall_hostMem (s : State) (g t : Nat) (o : Bool) (q n : Nat) : (s.queueStall g t o q n).hostMem = s.hostMem := by rw [State.queueStall_eq]
@[simp] theorem State.queueStall_queues (s : State) (g t : Nat) (o : Bool) (q n : Nat) : (s.queueStall g t o q n).queues = s.queues := by rw [State.queueStall_eq]
@[simp] theorem State.queueStall_steers (s : State) (g t : Nat) (o : Bool) (q n : Nat) : (s.queueStall g t o q n).steers = s.steers := by rw [State.queueStall_eq]
@[simp] theorem State.queueStall_springs (s : State) (g t : Nat) (o : Bool) (q n : Nat) : (s.queueStall g t o q n).springs = s.springs := by rw [State.queueStall_eq]
@[simp] theorem State.queueStall_waiters (s : State) (g t : Nat) (o : Bool) (q n : Nat) : (s.queueStall g t o q n).waiters = s.waiters := by rw [State.queueStall_eq]
@[simp] theorem State.queueStall_evals (s : State) (g t : Nat) (o : Bool) (q n : Nat) : (s.queueStall g t o q n).evals = s.evals := by rw [State.queueStall_eq]
@[simp] theorem State.queueStall_senders (s : State) (g t : Nat) (o : Bool) (q n : Nat) : (s.queueStall g t o q n).senders = s.senders := by rw [State.queueStall_eq]
@[simp] theorem State.queueStall_arrivals (s : State) (g t : Nat) (o : Bool) (q n : Nat) : (s.queueStall g t o q n).arrivals = s.arrivals := by rw [State.queueStall_eq]
@[simp] theorem State.queueStall_mcores (s : State) (g t : Nat) (o : Bool) (q n : Nat) : (s.queueStall g t o q n).mcores = s.mcores := by rw [State.queueStall_eq]
@[simp] theorem State.queueStall_vcores (s : State) (g t : Nat) (o : Bool) (q n : Nat) : (s.queueStall g t o q n).vcores = s.vcores := by rw [State.queueStall_eq]
@[simp] theorem State.queueStall_scores (s : State) (g t : Nat) (o : Bool) (q n : Nat) : (s.queueStall g t o q n).scores = s.scores := by rw [State.queueStall_eq]
@[simp] theorem State.queueStall_gens (s : State) (g t : Nat) (o : Bool) (q n : Nat) : (s.queueStall g t o q n).gens = s.gens := by rw [State.queueStall_eq]
@[simp] theorem State.queueStall_pmem (s : State) (g t : Nat) (o : Bool) (q n : Nat) : (s.queueStall g t o q n).pmem = s.pmem := by rw [State.queueStall_eq]
@[simp] theorem State.queueStall_opal (s : State) (g t : Nat) (o : Bool) (q n : Nat) : (s.queueStall g t o q n).opal = s.opal := by rw [State.queueStall_eq]
@[simp] theorem State.queueStall_latches (s : State) (g t : Nat) (o : Bool) (q n : Nat) : (s.queueStall g t o q n).latches = s.latches := by rw [State.queueStall_eq]
@[simp] theorem State.queueStall_saved (s : State) (g t : Nat) (o : Bool) (q n : Nat) : (s.queueStall g t o q n).saved = s.saved := by rw [State.queueStall_eq]
@[simp] theorem State.queueStall_events (s : State) (g t : Nat) (o : Bool) (q n : Nat) : (s.queueStall g t o q n).events = s.events := by rw [State.queueStall_eq]
@[simp] theorem State.queueStall_net (s : State) (g t : Nat) (o : Bool) (q n : Nat) : (s.queueStall g t o q n).net = s.net := by rw [State.queueStall_eq]
@[simp] theorem State.queueStall_err (s : State) (g t : Nat) (o : Bool) (q n : Nat) : (s.queueStall g t o q n).err = s.err := by rw [State.queueStall_eq]
@[simp] theorem State.queueStall_factory (s : State) (g t : Nat) (o : Bool) (q n : Nat) : (s.queueStall g t o q n).factory = s.factory := by rw [State.queueStall_eq]
@[simp] theorem State.queueStall_overlay (s : State) (g t : Nat) (o : Bool) (q n : Nat) : (s.queueStall g t o q n).overlay = s.overlay := by rw [State.queueStall_eq]
@[simp] theorem State.queueStall_parts (s : State) (g t : Nat) (o : Bool) (q n : Nat) : (s.queueStall g t o q n).parts = s.parts := by rw [State.queueStall_eq]
@[simp] theorem State.queueStall_img (s : State) (g t : Nat) (o : Bool) (q n : Nat) : (s.queueStall g t o q n).img = s.img := by rw [State.queueStall_eq]
@[simp] theorem State.queueStall_drams (s : State) (g t : Nat) (o : Bool) (q n : Nat) : (s.queueStall g t o q n).drams = s.drams := by rw [State.queueStall_eq]
@[simp] theorem State.queueStall_colls (s : State) (g t : Nat) (o : Bool) (q n : Nat) : (s.queueStall g t o q n).colls = s.colls := by rw [State.queueStall_eq]
@[simp] theorem State.queueStall_closed (s : State) (g t : Nat) (o : Bool) (q n : Nat) : (s.queueStall g t o q n).closed = s.closed := by rw [State.queueStall_eq]
@[simp] theorem State.queueStall_drainDone (s : State) (g t : Nat) (o : Bool) (q n : Nat) : (s.queueStall g t o q n).drainDone = s.drainDone := by rw [State.queueStall_eq]
@[simp] theorem State.queueStall_tests (s : State) (g t : Nat) (o : Bool) (q n : Nat) : (s.queueStall g t o q n).tests = s.tests := by rw [State.queueStall_eq]
@[simp] theorem State.queueStall_time (s : State) (g t : Nat) (o : Bool) (q n : Nat) : (s.queueStall g t o q n).time = s.time := by rw [State.queueStall_eq]
@[simp] theorem State.queueStall_clk (s : State) (g t : Nat) (o : Bool) (q n : Nat) : (s.queueStall g t o q n).clk = s.clk := by rw [State.queueStall_eq]
@[simp] theorem State.queueStall_hub (s : State) (g t : Nat) (o : Bool) (q n : Nat) : (s.queueStall g t o q n).hub = s.hub := by rw [State.queueStall_eq]
@[simp] theorem State.queueStall_trust (s : State) (g t : Nat) (o : Bool) (q n : Nat) : (s.queueStall g t o q n).trust = s.trust := by rw [State.queueStall_eq]
@[simp] theorem State.queueStall_ports (s : State) (g t : Nat) (o : Bool) (q n : Nat) : (s.queueStall g t o q n).ports = s.ports := by rw [State.queueStall_eq]
@[simp] theorem State.queueStall_ring (s : State) (g t : Nat) (o : Bool) (q n : Nat) : (s.queueStall g t o q n).ring = s.ring := by rw [State.queueStall_eq]
@[simp] theorem State.queueStall_ref (s : State) (g t : Nat) (o : Bool) (q n : Nat) : (s.queueStall g t o q n).ref = s.ref := by rw [State.queueStall_eq]
@[simp] theorem State.queueStall_lakes (s : State) (g t : Nat) (o : Bool) (q n : Nat) : (s.queueStall g t o q n).lakes = s.lakes := by rw [State.queueStall_eq]
@[simp] theorem State.queueStall_pwr (s : State) (g t : Nat) (o : Bool) (q n : Nat) : (s.queueStall g t o q n).pwr = s.pwr := by rw [State.queueStall_eq]
@[simp] theorem State.queueStall_telem (s : State) (g t : Nat) (o : Bool) (q n : Nat) : (s.queueStall g t o q n).telem = s.telem := by rw [State.queueStall_eq]
@[simp] theorem State.queueStall_free (s : State) (g t : Nat) (o : Bool) (q n : Nat) : (s.queueStall g t o q n).free = s.free := by rw [State.queueStall_eq]
@[simp] theorem State.queueStall_pending (s : State) (g t : Nat) (o : Bool) (q n : Nat) : (s.queueStall g t o q n).pending = s.pending := by rw [State.queueStall_eq]

theorem State.pop_eq (s : State) (g t : Nat) (o : Bool) (q : Nat) :
    s.pop g t o q = { s with
      queues := (s.pop g t o q).queues } := rfl

@[simp] theorem State.pop_regs (s : State) (g t : Nat) (o : Bool) (q : Nat) : (s.pop g t o q).regs = s.regs := by rw [State.pop_eq]
@[simp] theorem State.pop_mem (s : State) (g t : Nat) (o : Bool) (q : Nat) : (s.pop g t o q).mem = s.mem := by rw [State.pop_eq]
@[simp] theorem State.pop_bad (s : State) (g t : Nat) (o : Bool) (q : Nat) : (s.pop g t o q).bad = s.bad := by rw [State.pop_eq]
@[simp] theorem State.pop_hostMem (s : State) (g t : Nat) (o : Bool) (q : Nat) : (s.pop g t o q).hostMem = s.hostMem := by rw [State.pop_eq]
@[simp] theorem State.pop_steers (s : State) (g t : Nat) (o : Bool) (q : Nat) : (s.pop g t o q).steers = s.steers := by rw [State.pop_eq]
@[simp] theorem State.pop_springs (s : State) (g t : Nat) (o : Bool) (q : Nat) : (s.pop g t o q).springs = s.springs := by rw [State.pop_eq]
@[simp] theorem State.pop_waiters (s : State) (g t : Nat) (o : Bool) (q : Nat) : (s.pop g t o q).waiters = s.waiters := by rw [State.pop_eq]
@[simp] theorem State.pop_evals (s : State) (g t : Nat) (o : Bool) (q : Nat) : (s.pop g t o q).evals = s.evals := by rw [State.pop_eq]
@[simp] theorem State.pop_senders (s : State) (g t : Nat) (o : Bool) (q : Nat) : (s.pop g t o q).senders = s.senders := by rw [State.pop_eq]
@[simp] theorem State.pop_arrivals (s : State) (g t : Nat) (o : Bool) (q : Nat) : (s.pop g t o q).arrivals = s.arrivals := by rw [State.pop_eq]
@[simp] theorem State.pop_mcores (s : State) (g t : Nat) (o : Bool) (q : Nat) : (s.pop g t o q).mcores = s.mcores := by rw [State.pop_eq]
@[simp] theorem State.pop_vcores (s : State) (g t : Nat) (o : Bool) (q : Nat) : (s.pop g t o q).vcores = s.vcores := by rw [State.pop_eq]
@[simp] theorem State.pop_scores (s : State) (g t : Nat) (o : Bool) (q : Nat) : (s.pop g t o q).scores = s.scores := by rw [State.pop_eq]
@[simp] theorem State.pop_gens (s : State) (g t : Nat) (o : Bool) (q : Nat) : (s.pop g t o q).gens = s.gens := by rw [State.pop_eq]
@[simp] theorem State.pop_pmem (s : State) (g t : Nat) (o : Bool) (q : Nat) : (s.pop g t o q).pmem = s.pmem := by rw [State.pop_eq]
@[simp] theorem State.pop_opal (s : State) (g t : Nat) (o : Bool) (q : Nat) : (s.pop g t o q).opal = s.opal := by rw [State.pop_eq]
@[simp] theorem State.pop_latches (s : State) (g t : Nat) (o : Bool) (q : Nat) : (s.pop g t o q).latches = s.latches := by rw [State.pop_eq]
@[simp] theorem State.pop_saved (s : State) (g t : Nat) (o : Bool) (q : Nat) : (s.pop g t o q).saved = s.saved := by rw [State.pop_eq]
@[simp] theorem State.pop_events (s : State) (g t : Nat) (o : Bool) (q : Nat) : (s.pop g t o q).events = s.events := by rw [State.pop_eq]
@[simp] theorem State.pop_net (s : State) (g t : Nat) (o : Bool) (q : Nat) : (s.pop g t o q).net = s.net := by rw [State.pop_eq]
@[simp] theorem State.pop_err (s : State) (g t : Nat) (o : Bool) (q : Nat) : (s.pop g t o q).err = s.err := by rw [State.pop_eq]
@[simp] theorem State.pop_factory (s : State) (g t : Nat) (o : Bool) (q : Nat) : (s.pop g t o q).factory = s.factory := by rw [State.pop_eq]
@[simp] theorem State.pop_overlay (s : State) (g t : Nat) (o : Bool) (q : Nat) : (s.pop g t o q).overlay = s.overlay := by rw [State.pop_eq]
@[simp] theorem State.pop_parts (s : State) (g t : Nat) (o : Bool) (q : Nat) : (s.pop g t o q).parts = s.parts := by rw [State.pop_eq]
@[simp] theorem State.pop_img (s : State) (g t : Nat) (o : Bool) (q : Nat) : (s.pop g t o q).img = s.img := by rw [State.pop_eq]
@[simp] theorem State.pop_drams (s : State) (g t : Nat) (o : Bool) (q : Nat) : (s.pop g t o q).drams = s.drams := by rw [State.pop_eq]
@[simp] theorem State.pop_colls (s : State) (g t : Nat) (o : Bool) (q : Nat) : (s.pop g t o q).colls = s.colls := by rw [State.pop_eq]
@[simp] theorem State.pop_closed (s : State) (g t : Nat) (o : Bool) (q : Nat) : (s.pop g t o q).closed = s.closed := by rw [State.pop_eq]
@[simp] theorem State.pop_drainDone (s : State) (g t : Nat) (o : Bool) (q : Nat) : (s.pop g t o q).drainDone = s.drainDone := by rw [State.pop_eq]
@[simp] theorem State.pop_tests (s : State) (g t : Nat) (o : Bool) (q : Nat) : (s.pop g t o q).tests = s.tests := by rw [State.pop_eq]
@[simp] theorem State.pop_time (s : State) (g t : Nat) (o : Bool) (q : Nat) : (s.pop g t o q).time = s.time := by rw [State.pop_eq]
@[simp] theorem State.pop_clk (s : State) (g t : Nat) (o : Bool) (q : Nat) : (s.pop g t o q).clk = s.clk := by rw [State.pop_eq]
@[simp] theorem State.pop_hub (s : State) (g t : Nat) (o : Bool) (q : Nat) : (s.pop g t o q).hub = s.hub := by rw [State.pop_eq]
@[simp] theorem State.pop_trust (s : State) (g t : Nat) (o : Bool) (q : Nat) : (s.pop g t o q).trust = s.trust := by rw [State.pop_eq]
@[simp] theorem State.pop_ports (s : State) (g t : Nat) (o : Bool) (q : Nat) : (s.pop g t o q).ports = s.ports := by rw [State.pop_eq]
@[simp] theorem State.pop_ring (s : State) (g t : Nat) (o : Bool) (q : Nat) : (s.pop g t o q).ring = s.ring := by rw [State.pop_eq]
@[simp] theorem State.pop_ref (s : State) (g t : Nat) (o : Bool) (q : Nat) : (s.pop g t o q).ref = s.ref := by rw [State.pop_eq]
@[simp] theorem State.pop_lakes (s : State) (g t : Nat) (o : Bool) (q : Nat) : (s.pop g t o q).lakes = s.lakes := by rw [State.pop_eq]
@[simp] theorem State.pop_pwr (s : State) (g t : Nat) (o : Bool) (q : Nat) : (s.pop g t o q).pwr = s.pwr := by rw [State.pop_eq]
@[simp] theorem State.pop_telem (s : State) (g t : Nat) (o : Bool) (q : Nat) : (s.pop g t o q).telem = s.telem := by rw [State.pop_eq]
@[simp] theorem State.pop_free (s : State) (g t : Nat) (o : Bool) (q : Nat) : (s.pop g t o q).free = s.free := by rw [State.pop_eq]
@[simp] theorem State.pop_pending (s : State) (g t : Nat) (o : Bool) (q : Nat) : (s.pop g t o q).pending = s.pending := by rw [State.pop_eq]

theorem State.noteHigh_eq (s : State) (g t : Nat) (o : Bool) (q : Nat) :
    s.noteHigh g t o q = { s with
      regs := (s.noteHigh g t o q).regs } := by
  unfold State.noteHigh; dsimp only; (repeat' split) <;> rfl

@[simp] theorem State.noteHigh_mem (s : State) (g t : Nat) (o : Bool) (q : Nat) : (s.noteHigh g t o q).mem = s.mem := by rw [State.noteHigh_eq]
@[simp] theorem State.noteHigh_bad (s : State) (g t : Nat) (o : Bool) (q : Nat) : (s.noteHigh g t o q).bad = s.bad := by rw [State.noteHigh_eq]
@[simp] theorem State.noteHigh_hostMem (s : State) (g t : Nat) (o : Bool) (q : Nat) : (s.noteHigh g t o q).hostMem = s.hostMem := by rw [State.noteHigh_eq]
@[simp] theorem State.noteHigh_queues (s : State) (g t : Nat) (o : Bool) (q : Nat) : (s.noteHigh g t o q).queues = s.queues := by rw [State.noteHigh_eq]
@[simp] theorem State.noteHigh_steers (s : State) (g t : Nat) (o : Bool) (q : Nat) : (s.noteHigh g t o q).steers = s.steers := by rw [State.noteHigh_eq]
@[simp] theorem State.noteHigh_springs (s : State) (g t : Nat) (o : Bool) (q : Nat) : (s.noteHigh g t o q).springs = s.springs := by rw [State.noteHigh_eq]
@[simp] theorem State.noteHigh_waiters (s : State) (g t : Nat) (o : Bool) (q : Nat) : (s.noteHigh g t o q).waiters = s.waiters := by rw [State.noteHigh_eq]
@[simp] theorem State.noteHigh_evals (s : State) (g t : Nat) (o : Bool) (q : Nat) : (s.noteHigh g t o q).evals = s.evals := by rw [State.noteHigh_eq]
@[simp] theorem State.noteHigh_senders (s : State) (g t : Nat) (o : Bool) (q : Nat) : (s.noteHigh g t o q).senders = s.senders := by rw [State.noteHigh_eq]
@[simp] theorem State.noteHigh_arrivals (s : State) (g t : Nat) (o : Bool) (q : Nat) : (s.noteHigh g t o q).arrivals = s.arrivals := by rw [State.noteHigh_eq]
@[simp] theorem State.noteHigh_mcores (s : State) (g t : Nat) (o : Bool) (q : Nat) : (s.noteHigh g t o q).mcores = s.mcores := by rw [State.noteHigh_eq]
@[simp] theorem State.noteHigh_vcores (s : State) (g t : Nat) (o : Bool) (q : Nat) : (s.noteHigh g t o q).vcores = s.vcores := by rw [State.noteHigh_eq]
@[simp] theorem State.noteHigh_scores (s : State) (g t : Nat) (o : Bool) (q : Nat) : (s.noteHigh g t o q).scores = s.scores := by rw [State.noteHigh_eq]
@[simp] theorem State.noteHigh_gens (s : State) (g t : Nat) (o : Bool) (q : Nat) : (s.noteHigh g t o q).gens = s.gens := by rw [State.noteHigh_eq]
@[simp] theorem State.noteHigh_pmem (s : State) (g t : Nat) (o : Bool) (q : Nat) : (s.noteHigh g t o q).pmem = s.pmem := by rw [State.noteHigh_eq]
@[simp] theorem State.noteHigh_opal (s : State) (g t : Nat) (o : Bool) (q : Nat) : (s.noteHigh g t o q).opal = s.opal := by rw [State.noteHigh_eq]
@[simp] theorem State.noteHigh_latches (s : State) (g t : Nat) (o : Bool) (q : Nat) : (s.noteHigh g t o q).latches = s.latches := by rw [State.noteHigh_eq]
@[simp] theorem State.noteHigh_saved (s : State) (g t : Nat) (o : Bool) (q : Nat) : (s.noteHigh g t o q).saved = s.saved := by rw [State.noteHigh_eq]
@[simp] theorem State.noteHigh_events (s : State) (g t : Nat) (o : Bool) (q : Nat) : (s.noteHigh g t o q).events = s.events := by rw [State.noteHigh_eq]
@[simp] theorem State.noteHigh_net (s : State) (g t : Nat) (o : Bool) (q : Nat) : (s.noteHigh g t o q).net = s.net := by rw [State.noteHigh_eq]
@[simp] theorem State.noteHigh_err (s : State) (g t : Nat) (o : Bool) (q : Nat) : (s.noteHigh g t o q).err = s.err := by rw [State.noteHigh_eq]
@[simp] theorem State.noteHigh_factory (s : State) (g t : Nat) (o : Bool) (q : Nat) : (s.noteHigh g t o q).factory = s.factory := by rw [State.noteHigh_eq]
@[simp] theorem State.noteHigh_overlay (s : State) (g t : Nat) (o : Bool) (q : Nat) : (s.noteHigh g t o q).overlay = s.overlay := by rw [State.noteHigh_eq]
@[simp] theorem State.noteHigh_parts (s : State) (g t : Nat) (o : Bool) (q : Nat) : (s.noteHigh g t o q).parts = s.parts := by rw [State.noteHigh_eq]
@[simp] theorem State.noteHigh_img (s : State) (g t : Nat) (o : Bool) (q : Nat) : (s.noteHigh g t o q).img = s.img := by rw [State.noteHigh_eq]
@[simp] theorem State.noteHigh_drams (s : State) (g t : Nat) (o : Bool) (q : Nat) : (s.noteHigh g t o q).drams = s.drams := by rw [State.noteHigh_eq]
@[simp] theorem State.noteHigh_colls (s : State) (g t : Nat) (o : Bool) (q : Nat) : (s.noteHigh g t o q).colls = s.colls := by rw [State.noteHigh_eq]
@[simp] theorem State.noteHigh_closed (s : State) (g t : Nat) (o : Bool) (q : Nat) : (s.noteHigh g t o q).closed = s.closed := by rw [State.noteHigh_eq]
@[simp] theorem State.noteHigh_drainDone (s : State) (g t : Nat) (o : Bool) (q : Nat) : (s.noteHigh g t o q).drainDone = s.drainDone := by rw [State.noteHigh_eq]
@[simp] theorem State.noteHigh_tests (s : State) (g t : Nat) (o : Bool) (q : Nat) : (s.noteHigh g t o q).tests = s.tests := by rw [State.noteHigh_eq]
@[simp] theorem State.noteHigh_time (s : State) (g t : Nat) (o : Bool) (q : Nat) : (s.noteHigh g t o q).time = s.time := by rw [State.noteHigh_eq]
@[simp] theorem State.noteHigh_clk (s : State) (g t : Nat) (o : Bool) (q : Nat) : (s.noteHigh g t o q).clk = s.clk := by rw [State.noteHigh_eq]
@[simp] theorem State.noteHigh_hub (s : State) (g t : Nat) (o : Bool) (q : Nat) : (s.noteHigh g t o q).hub = s.hub := by rw [State.noteHigh_eq]
@[simp] theorem State.noteHigh_trust (s : State) (g t : Nat) (o : Bool) (q : Nat) : (s.noteHigh g t o q).trust = s.trust := by rw [State.noteHigh_eq]
@[simp] theorem State.noteHigh_ports (s : State) (g t : Nat) (o : Bool) (q : Nat) : (s.noteHigh g t o q).ports = s.ports := by rw [State.noteHigh_eq]
@[simp] theorem State.noteHigh_ring (s : State) (g t : Nat) (o : Bool) (q : Nat) : (s.noteHigh g t o q).ring = s.ring := by rw [State.noteHigh_eq]
@[simp] theorem State.noteHigh_ref (s : State) (g t : Nat) (o : Bool) (q : Nat) : (s.noteHigh g t o q).ref = s.ref := by rw [State.noteHigh_eq]
@[simp] theorem State.noteHigh_lakes (s : State) (g t : Nat) (o : Bool) (q : Nat) : (s.noteHigh g t o q).lakes = s.lakes := by rw [State.noteHigh_eq]
@[simp] theorem State.noteHigh_pwr (s : State) (g t : Nat) (o : Bool) (q : Nat) : (s.noteHigh g t o q).pwr = s.pwr := by rw [State.noteHigh_eq]
@[simp] theorem State.noteHigh_telem (s : State) (g t : Nat) (o : Bool) (q : Nat) : (s.noteHigh g t o q).telem = s.telem := by rw [State.noteHigh_eq]
@[simp] theorem State.noteHigh_free (s : State) (g t : Nat) (o : Bool) (q : Nat) : (s.noteHigh g t o q).free = s.free := by rw [State.noteHigh_eq]
@[simp] theorem State.noteHigh_pending (s : State) (g t : Nat) (o : Bool) (q : Nat) : (s.noteHigh g t o q).pending = s.pending := by rw [State.noteHigh_eq]

theorem State.gateRelease_eq (s : State) (g t : Nat) :
    s.gateRelease g t = { s with
      mcores := (s.gateRelease g t).mcores
      regs := (s.gateRelease g t).regs } := by
  unfold State.gateRelease; dsimp only; split
  · rfl
  · rw [State.count_eq]; rfl

@[simp] theorem State.gateRelease_mem (s : State) (g t : Nat) : (s.gateRelease g t).mem = s.mem := by rw [State.gateRelease_eq]
@[simp] theorem State.gateRelease_bad (s : State) (g t : Nat) : (s.gateRelease g t).bad = s.bad := by rw [State.gateRelease_eq]
@[simp] theorem State.gateRelease_hostMem (s : State) (g t : Nat) : (s.gateRelease g t).hostMem = s.hostMem := by rw [State.gateRelease_eq]
@[simp] theorem State.gateRelease_queues (s : State) (g t : Nat) : (s.gateRelease g t).queues = s.queues := by rw [State.gateRelease_eq]
@[simp] theorem State.gateRelease_steers (s : State) (g t : Nat) : (s.gateRelease g t).steers = s.steers := by rw [State.gateRelease_eq]
@[simp] theorem State.gateRelease_springs (s : State) (g t : Nat) : (s.gateRelease g t).springs = s.springs := by rw [State.gateRelease_eq]
@[simp] theorem State.gateRelease_waiters (s : State) (g t : Nat) : (s.gateRelease g t).waiters = s.waiters := by rw [State.gateRelease_eq]
@[simp] theorem State.gateRelease_evals (s : State) (g t : Nat) : (s.gateRelease g t).evals = s.evals := by rw [State.gateRelease_eq]
@[simp] theorem State.gateRelease_senders (s : State) (g t : Nat) : (s.gateRelease g t).senders = s.senders := by rw [State.gateRelease_eq]
@[simp] theorem State.gateRelease_arrivals (s : State) (g t : Nat) : (s.gateRelease g t).arrivals = s.arrivals := by rw [State.gateRelease_eq]
@[simp] theorem State.gateRelease_vcores (s : State) (g t : Nat) : (s.gateRelease g t).vcores = s.vcores := by rw [State.gateRelease_eq]
@[simp] theorem State.gateRelease_scores (s : State) (g t : Nat) : (s.gateRelease g t).scores = s.scores := by rw [State.gateRelease_eq]
@[simp] theorem State.gateRelease_gens (s : State) (g t : Nat) : (s.gateRelease g t).gens = s.gens := by rw [State.gateRelease_eq]
@[simp] theorem State.gateRelease_pmem (s : State) (g t : Nat) : (s.gateRelease g t).pmem = s.pmem := by rw [State.gateRelease_eq]
@[simp] theorem State.gateRelease_opal (s : State) (g t : Nat) : (s.gateRelease g t).opal = s.opal := by rw [State.gateRelease_eq]
@[simp] theorem State.gateRelease_latches (s : State) (g t : Nat) : (s.gateRelease g t).latches = s.latches := by rw [State.gateRelease_eq]
@[simp] theorem State.gateRelease_saved (s : State) (g t : Nat) : (s.gateRelease g t).saved = s.saved := by rw [State.gateRelease_eq]
@[simp] theorem State.gateRelease_events (s : State) (g t : Nat) : (s.gateRelease g t).events = s.events := by rw [State.gateRelease_eq]
@[simp] theorem State.gateRelease_net (s : State) (g t : Nat) : (s.gateRelease g t).net = s.net := by rw [State.gateRelease_eq]
@[simp] theorem State.gateRelease_err (s : State) (g t : Nat) : (s.gateRelease g t).err = s.err := by rw [State.gateRelease_eq]
@[simp] theorem State.gateRelease_factory (s : State) (g t : Nat) : (s.gateRelease g t).factory = s.factory := by rw [State.gateRelease_eq]
@[simp] theorem State.gateRelease_overlay (s : State) (g t : Nat) : (s.gateRelease g t).overlay = s.overlay := by rw [State.gateRelease_eq]
@[simp] theorem State.gateRelease_parts (s : State) (g t : Nat) : (s.gateRelease g t).parts = s.parts := by rw [State.gateRelease_eq]
@[simp] theorem State.gateRelease_img (s : State) (g t : Nat) : (s.gateRelease g t).img = s.img := by rw [State.gateRelease_eq]
@[simp] theorem State.gateRelease_drams (s : State) (g t : Nat) : (s.gateRelease g t).drams = s.drams := by rw [State.gateRelease_eq]
@[simp] theorem State.gateRelease_colls (s : State) (g t : Nat) : (s.gateRelease g t).colls = s.colls := by rw [State.gateRelease_eq]
@[simp] theorem State.gateRelease_closed (s : State) (g t : Nat) : (s.gateRelease g t).closed = s.closed := by rw [State.gateRelease_eq]
@[simp] theorem State.gateRelease_drainDone (s : State) (g t : Nat) : (s.gateRelease g t).drainDone = s.drainDone := by rw [State.gateRelease_eq]
@[simp] theorem State.gateRelease_tests (s : State) (g t : Nat) : (s.gateRelease g t).tests = s.tests := by rw [State.gateRelease_eq]
@[simp] theorem State.gateRelease_time (s : State) (g t : Nat) : (s.gateRelease g t).time = s.time := by rw [State.gateRelease_eq]
@[simp] theorem State.gateRelease_clk (s : State) (g t : Nat) : (s.gateRelease g t).clk = s.clk := by rw [State.gateRelease_eq]
@[simp] theorem State.gateRelease_hub (s : State) (g t : Nat) : (s.gateRelease g t).hub = s.hub := by rw [State.gateRelease_eq]
@[simp] theorem State.gateRelease_trust (s : State) (g t : Nat) : (s.gateRelease g t).trust = s.trust := by rw [State.gateRelease_eq]
@[simp] theorem State.gateRelease_ports (s : State) (g t : Nat) : (s.gateRelease g t).ports = s.ports := by rw [State.gateRelease_eq]
@[simp] theorem State.gateRelease_ring (s : State) (g t : Nat) : (s.gateRelease g t).ring = s.ring := by rw [State.gateRelease_eq]
@[simp] theorem State.gateRelease_ref (s : State) (g t : Nat) : (s.gateRelease g t).ref = s.ref := by rw [State.gateRelease_eq]
@[simp] theorem State.gateRelease_lakes (s : State) (g t : Nat) : (s.gateRelease g t).lakes = s.lakes := by rw [State.gateRelease_eq]
@[simp] theorem State.gateRelease_pwr (s : State) (g t : Nat) : (s.gateRelease g t).pwr = s.pwr := by rw [State.gateRelease_eq]
@[simp] theorem State.gateRelease_telem (s : State) (g t : Nat) : (s.gateRelease g t).telem = s.telem := by rw [State.gateRelease_eq]
@[simp] theorem State.gateRelease_free (s : State) (g t : Nat) : (s.gateRelease g t).free = s.free := by rw [State.gateRelease_eq]
@[simp] theorem State.gateRelease_pending (s : State) (g t : Nat) : (s.gateRelease g t).pending = s.pending := by rw [State.gateRelease_eq]

theorem State.gateJudge_eq (s : State) (g t : Nat) :
    s.gateJudge g t = { s with
      mcores := (s.gateJudge g t).mcores
      regs := (s.gateJudge g t).regs } := by
  unfold State.gateJudge; dsimp only; split
  · exact State.gateRelease_eq s g t
  · rfl

@[simp] theorem State.gateJudge_mem (s : State) (g t : Nat) : (s.gateJudge g t).mem = s.mem := by rw [State.gateJudge_eq]
@[simp] theorem State.gateJudge_bad (s : State) (g t : Nat) : (s.gateJudge g t).bad = s.bad := by rw [State.gateJudge_eq]
@[simp] theorem State.gateJudge_hostMem (s : State) (g t : Nat) : (s.gateJudge g t).hostMem = s.hostMem := by rw [State.gateJudge_eq]
@[simp] theorem State.gateJudge_queues (s : State) (g t : Nat) : (s.gateJudge g t).queues = s.queues := by rw [State.gateJudge_eq]
@[simp] theorem State.gateJudge_steers (s : State) (g t : Nat) : (s.gateJudge g t).steers = s.steers := by rw [State.gateJudge_eq]
@[simp] theorem State.gateJudge_springs (s : State) (g t : Nat) : (s.gateJudge g t).springs = s.springs := by rw [State.gateJudge_eq]
@[simp] theorem State.gateJudge_waiters (s : State) (g t : Nat) : (s.gateJudge g t).waiters = s.waiters := by rw [State.gateJudge_eq]
@[simp] theorem State.gateJudge_evals (s : State) (g t : Nat) : (s.gateJudge g t).evals = s.evals := by rw [State.gateJudge_eq]
@[simp] theorem State.gateJudge_senders (s : State) (g t : Nat) : (s.gateJudge g t).senders = s.senders := by rw [State.gateJudge_eq]
@[simp] theorem State.gateJudge_arrivals (s : State) (g t : Nat) : (s.gateJudge g t).arrivals = s.arrivals := by rw [State.gateJudge_eq]
@[simp] theorem State.gateJudge_vcores (s : State) (g t : Nat) : (s.gateJudge g t).vcores = s.vcores := by rw [State.gateJudge_eq]
@[simp] theorem State.gateJudge_scores (s : State) (g t : Nat) : (s.gateJudge g t).scores = s.scores := by rw [State.gateJudge_eq]
@[simp] theorem State.gateJudge_gens (s : State) (g t : Nat) : (s.gateJudge g t).gens = s.gens := by rw [State.gateJudge_eq]
@[simp] theorem State.gateJudge_pmem (s : State) (g t : Nat) : (s.gateJudge g t).pmem = s.pmem := by rw [State.gateJudge_eq]
@[simp] theorem State.gateJudge_opal (s : State) (g t : Nat) : (s.gateJudge g t).opal = s.opal := by rw [State.gateJudge_eq]
@[simp] theorem State.gateJudge_latches (s : State) (g t : Nat) : (s.gateJudge g t).latches = s.latches := by rw [State.gateJudge_eq]
@[simp] theorem State.gateJudge_saved (s : State) (g t : Nat) : (s.gateJudge g t).saved = s.saved := by rw [State.gateJudge_eq]
@[simp] theorem State.gateJudge_events (s : State) (g t : Nat) : (s.gateJudge g t).events = s.events := by rw [State.gateJudge_eq]
@[simp] theorem State.gateJudge_net (s : State) (g t : Nat) : (s.gateJudge g t).net = s.net := by rw [State.gateJudge_eq]
@[simp] theorem State.gateJudge_err (s : State) (g t : Nat) : (s.gateJudge g t).err = s.err := by rw [State.gateJudge_eq]
@[simp] theorem State.gateJudge_factory (s : State) (g t : Nat) : (s.gateJudge g t).factory = s.factory := by rw [State.gateJudge_eq]
@[simp] theorem State.gateJudge_overlay (s : State) (g t : Nat) : (s.gateJudge g t).overlay = s.overlay := by rw [State.gateJudge_eq]
@[simp] theorem State.gateJudge_parts (s : State) (g t : Nat) : (s.gateJudge g t).parts = s.parts := by rw [State.gateJudge_eq]
@[simp] theorem State.gateJudge_img (s : State) (g t : Nat) : (s.gateJudge g t).img = s.img := by rw [State.gateJudge_eq]
@[simp] theorem State.gateJudge_drams (s : State) (g t : Nat) : (s.gateJudge g t).drams = s.drams := by rw [State.gateJudge_eq]
@[simp] theorem State.gateJudge_colls (s : State) (g t : Nat) : (s.gateJudge g t).colls = s.colls := by rw [State.gateJudge_eq]
@[simp] theorem State.gateJudge_closed (s : State) (g t : Nat) : (s.gateJudge g t).closed = s.closed := by rw [State.gateJudge_eq]
@[simp] theorem State.gateJudge_drainDone (s : State) (g t : Nat) : (s.gateJudge g t).drainDone = s.drainDone := by rw [State.gateJudge_eq]
@[simp] theorem State.gateJudge_tests (s : State) (g t : Nat) : (s.gateJudge g t).tests = s.tests := by rw [State.gateJudge_eq]
@[simp] theorem State.gateJudge_time (s : State) (g t : Nat) : (s.gateJudge g t).time = s.time := by rw [State.gateJudge_eq]
@[simp] theorem State.gateJudge_clk (s : State) (g t : Nat) : (s.gateJudge g t).clk = s.clk := by rw [State.gateJudge_eq]
@[simp] theorem State.gateJudge_hub (s : State) (g t : Nat) : (s.gateJudge g t).hub = s.hub := by rw [State.gateJudge_eq]
@[simp] theorem State.gateJudge_trust (s : State) (g t : Nat) : (s.gateJudge g t).trust = s.trust := by rw [State.gateJudge_eq]
@[simp] theorem State.gateJudge_ports (s : State) (g t : Nat) : (s.gateJudge g t).ports = s.ports := by rw [State.gateJudge_eq]
@[simp] theorem State.gateJudge_ring (s : State) (g t : Nat) : (s.gateJudge g t).ring = s.ring := by rw [State.gateJudge_eq]
@[simp] theorem State.gateJudge_ref (s : State) (g t : Nat) : (s.gateJudge g t).ref = s.ref := by rw [State.gateJudge_eq]
@[simp] theorem State.gateJudge_lakes (s : State) (g t : Nat) : (s.gateJudge g t).lakes = s.lakes := by rw [State.gateJudge_eq]
@[simp] theorem State.gateJudge_pwr (s : State) (g t : Nat) : (s.gateJudge g t).pwr = s.pwr := by rw [State.gateJudge_eq]
@[simp] theorem State.gateJudge_telem (s : State) (g t : Nat) : (s.gateJudge g t).telem = s.telem := by rw [State.gateJudge_eq]
@[simp] theorem State.gateJudge_free (s : State) (g t : Nat) : (s.gateJudge g t).free = s.free := by rw [State.gateJudge_eq]
@[simp] theorem State.gateJudge_pending (s : State) (g t : Nat) : (s.gateJudge g t).pending = s.pending := by rw [State.gateJudge_eq]

theorem State.gateTime_eq (s : State) (g t n : Nat) :
    s.gateTime g t n = { s with
      mcores := (s.gateTime g t n).mcores
      regs := (s.gateTime g t n).regs } := by
  unfold State.gateTime; dsimp only; split
  · rfl
  · rw [State.count_eq]; rfl

@[simp] theorem State.gateTime_mem (s : State) (g t n : Nat) : (s.gateTime g t n).mem = s.mem := by rw [State.gateTime_eq]
@[simp] theorem State.gateTime_bad (s : State) (g t n : Nat) : (s.gateTime g t n).bad = s.bad := by rw [State.gateTime_eq]
@[simp] theorem State.gateTime_hostMem (s : State) (g t n : Nat) : (s.gateTime g t n).hostMem = s.hostMem := by rw [State.gateTime_eq]
@[simp] theorem State.gateTime_queues (s : State) (g t n : Nat) : (s.gateTime g t n).queues = s.queues := by rw [State.gateTime_eq]
@[simp] theorem State.gateTime_steers (s : State) (g t n : Nat) : (s.gateTime g t n).steers = s.steers := by rw [State.gateTime_eq]
@[simp] theorem State.gateTime_springs (s : State) (g t n : Nat) : (s.gateTime g t n).springs = s.springs := by rw [State.gateTime_eq]
@[simp] theorem State.gateTime_waiters (s : State) (g t n : Nat) : (s.gateTime g t n).waiters = s.waiters := by rw [State.gateTime_eq]
@[simp] theorem State.gateTime_evals (s : State) (g t n : Nat) : (s.gateTime g t n).evals = s.evals := by rw [State.gateTime_eq]
@[simp] theorem State.gateTime_senders (s : State) (g t n : Nat) : (s.gateTime g t n).senders = s.senders := by rw [State.gateTime_eq]
@[simp] theorem State.gateTime_arrivals (s : State) (g t n : Nat) : (s.gateTime g t n).arrivals = s.arrivals := by rw [State.gateTime_eq]
@[simp] theorem State.gateTime_vcores (s : State) (g t n : Nat) : (s.gateTime g t n).vcores = s.vcores := by rw [State.gateTime_eq]
@[simp] theorem State.gateTime_scores (s : State) (g t n : Nat) : (s.gateTime g t n).scores = s.scores := by rw [State.gateTime_eq]
@[simp] theorem State.gateTime_gens (s : State) (g t n : Nat) : (s.gateTime g t n).gens = s.gens := by rw [State.gateTime_eq]
@[simp] theorem State.gateTime_pmem (s : State) (g t n : Nat) : (s.gateTime g t n).pmem = s.pmem := by rw [State.gateTime_eq]
@[simp] theorem State.gateTime_opal (s : State) (g t n : Nat) : (s.gateTime g t n).opal = s.opal := by rw [State.gateTime_eq]
@[simp] theorem State.gateTime_latches (s : State) (g t n : Nat) : (s.gateTime g t n).latches = s.latches := by rw [State.gateTime_eq]
@[simp] theorem State.gateTime_saved (s : State) (g t n : Nat) : (s.gateTime g t n).saved = s.saved := by rw [State.gateTime_eq]
@[simp] theorem State.gateTime_events (s : State) (g t n : Nat) : (s.gateTime g t n).events = s.events := by rw [State.gateTime_eq]
@[simp] theorem State.gateTime_net (s : State) (g t n : Nat) : (s.gateTime g t n).net = s.net := by rw [State.gateTime_eq]
@[simp] theorem State.gateTime_err (s : State) (g t n : Nat) : (s.gateTime g t n).err = s.err := by rw [State.gateTime_eq]
@[simp] theorem State.gateTime_factory (s : State) (g t n : Nat) : (s.gateTime g t n).factory = s.factory := by rw [State.gateTime_eq]
@[simp] theorem State.gateTime_overlay (s : State) (g t n : Nat) : (s.gateTime g t n).overlay = s.overlay := by rw [State.gateTime_eq]
@[simp] theorem State.gateTime_parts (s : State) (g t n : Nat) : (s.gateTime g t n).parts = s.parts := by rw [State.gateTime_eq]
@[simp] theorem State.gateTime_img (s : State) (g t n : Nat) : (s.gateTime g t n).img = s.img := by rw [State.gateTime_eq]
@[simp] theorem State.gateTime_drams (s : State) (g t n : Nat) : (s.gateTime g t n).drams = s.drams := by rw [State.gateTime_eq]
@[simp] theorem State.gateTime_colls (s : State) (g t n : Nat) : (s.gateTime g t n).colls = s.colls := by rw [State.gateTime_eq]
@[simp] theorem State.gateTime_closed (s : State) (g t n : Nat) : (s.gateTime g t n).closed = s.closed := by rw [State.gateTime_eq]
@[simp] theorem State.gateTime_drainDone (s : State) (g t n : Nat) : (s.gateTime g t n).drainDone = s.drainDone := by rw [State.gateTime_eq]
@[simp] theorem State.gateTime_tests (s : State) (g t n : Nat) : (s.gateTime g t n).tests = s.tests := by rw [State.gateTime_eq]
@[simp] theorem State.gateTime_time (s : State) (g t n : Nat) : (s.gateTime g t n).time = s.time := by rw [State.gateTime_eq]
@[simp] theorem State.gateTime_clk (s : State) (g t n : Nat) : (s.gateTime g t n).clk = s.clk := by rw [State.gateTime_eq]
@[simp] theorem State.gateTime_hub (s : State) (g t n : Nat) : (s.gateTime g t n).hub = s.hub := by rw [State.gateTime_eq]
@[simp] theorem State.gateTime_trust (s : State) (g t n : Nat) : (s.gateTime g t n).trust = s.trust := by rw [State.gateTime_eq]
@[simp] theorem State.gateTime_ports (s : State) (g t n : Nat) : (s.gateTime g t n).ports = s.ports := by rw [State.gateTime_eq]
@[simp] theorem State.gateTime_ring (s : State) (g t n : Nat) : (s.gateTime g t n).ring = s.ring := by rw [State.gateTime_eq]
@[simp] theorem State.gateTime_ref (s : State) (g t n : Nat) : (s.gateTime g t n).ref = s.ref := by rw [State.gateTime_eq]
@[simp] theorem State.gateTime_lakes (s : State) (g t n : Nat) : (s.gateTime g t n).lakes = s.lakes := by rw [State.gateTime_eq]
@[simp] theorem State.gateTime_pwr (s : State) (g t n : Nat) : (s.gateTime g t n).pwr = s.pwr := by rw [State.gateTime_eq]
@[simp] theorem State.gateTime_telem (s : State) (g t n : Nat) : (s.gateTime g t n).telem = s.telem := by rw [State.gateTime_eq]
@[simp] theorem State.gateTime_free (s : State) (g t n : Nat) : (s.gateTime g t n).free = s.free := by rw [State.gateTime_eq]
@[simp] theorem State.gateTime_pending (s : State) (g t n : Nat) : (s.gateTime g t n).pending = s.pending := by rw [State.gateTime_eq]

/-! What the network's shared operations touch (Machine/Net.lean). -/

theorem State.noteDepth_eq (s : State) (m q : Nat) (p : Packet) :
    s.noteDepth m q p = { s with
      regs := (s.noteDepth m q p).regs } := by
  unfold State.noteDepth; dsimp only; (repeat' split) <;> rfl

@[simp] theorem State.noteDepth_mem (s : State) (m q : Nat) (p : Packet) : (s.noteDepth m q p).mem = s.mem := by rw [State.noteDepth_eq]
@[simp] theorem State.noteDepth_bad (s : State) (m q : Nat) (p : Packet) : (s.noteDepth m q p).bad = s.bad := by rw [State.noteDepth_eq]
@[simp] theorem State.noteDepth_hostMem (s : State) (m q : Nat) (p : Packet) : (s.noteDepth m q p).hostMem = s.hostMem := by rw [State.noteDepth_eq]
@[simp] theorem State.noteDepth_queues (s : State) (m q : Nat) (p : Packet) : (s.noteDepth m q p).queues = s.queues := by rw [State.noteDepth_eq]
@[simp] theorem State.noteDepth_steers (s : State) (m q : Nat) (p : Packet) : (s.noteDepth m q p).steers = s.steers := by rw [State.noteDepth_eq]
@[simp] theorem State.noteDepth_springs (s : State) (m q : Nat) (p : Packet) : (s.noteDepth m q p).springs = s.springs := by rw [State.noteDepth_eq]
@[simp] theorem State.noteDepth_waiters (s : State) (m q : Nat) (p : Packet) : (s.noteDepth m q p).waiters = s.waiters := by rw [State.noteDepth_eq]
@[simp] theorem State.noteDepth_evals (s : State) (m q : Nat) (p : Packet) : (s.noteDepth m q p).evals = s.evals := by rw [State.noteDepth_eq]
@[simp] theorem State.noteDepth_senders (s : State) (m q : Nat) (p : Packet) : (s.noteDepth m q p).senders = s.senders := by rw [State.noteDepth_eq]
@[simp] theorem State.noteDepth_arrivals (s : State) (m q : Nat) (p : Packet) : (s.noteDepth m q p).arrivals = s.arrivals := by rw [State.noteDepth_eq]
@[simp] theorem State.noteDepth_mcores (s : State) (m q : Nat) (p : Packet) : (s.noteDepth m q p).mcores = s.mcores := by rw [State.noteDepth_eq]
@[simp] theorem State.noteDepth_vcores (s : State) (m q : Nat) (p : Packet) : (s.noteDepth m q p).vcores = s.vcores := by rw [State.noteDepth_eq]
@[simp] theorem State.noteDepth_scores (s : State) (m q : Nat) (p : Packet) : (s.noteDepth m q p).scores = s.scores := by rw [State.noteDepth_eq]
@[simp] theorem State.noteDepth_gens (s : State) (m q : Nat) (p : Packet) : (s.noteDepth m q p).gens = s.gens := by rw [State.noteDepth_eq]
@[simp] theorem State.noteDepth_pmem (s : State) (m q : Nat) (p : Packet) : (s.noteDepth m q p).pmem = s.pmem := by rw [State.noteDepth_eq]
@[simp] theorem State.noteDepth_opal (s : State) (m q : Nat) (p : Packet) : (s.noteDepth m q p).opal = s.opal := by rw [State.noteDepth_eq]
@[simp] theorem State.noteDepth_latches (s : State) (m q : Nat) (p : Packet) : (s.noteDepth m q p).latches = s.latches := by rw [State.noteDepth_eq]
@[simp] theorem State.noteDepth_saved (s : State) (m q : Nat) (p : Packet) : (s.noteDepth m q p).saved = s.saved := by rw [State.noteDepth_eq]
@[simp] theorem State.noteDepth_events (s : State) (m q : Nat) (p : Packet) : (s.noteDepth m q p).events = s.events := by rw [State.noteDepth_eq]
@[simp] theorem State.noteDepth_net (s : State) (m q : Nat) (p : Packet) : (s.noteDepth m q p).net = s.net := by rw [State.noteDepth_eq]
@[simp] theorem State.noteDepth_err (s : State) (m q : Nat) (p : Packet) : (s.noteDepth m q p).err = s.err := by rw [State.noteDepth_eq]
@[simp] theorem State.noteDepth_factory (s : State) (m q : Nat) (p : Packet) : (s.noteDepth m q p).factory = s.factory := by rw [State.noteDepth_eq]
@[simp] theorem State.noteDepth_overlay (s : State) (m q : Nat) (p : Packet) : (s.noteDepth m q p).overlay = s.overlay := by rw [State.noteDepth_eq]
@[simp] theorem State.noteDepth_parts (s : State) (m q : Nat) (p : Packet) : (s.noteDepth m q p).parts = s.parts := by rw [State.noteDepth_eq]
@[simp] theorem State.noteDepth_img (s : State) (m q : Nat) (p : Packet) : (s.noteDepth m q p).img = s.img := by rw [State.noteDepth_eq]
@[simp] theorem State.noteDepth_drams (s : State) (m q : Nat) (p : Packet) : (s.noteDepth m q p).drams = s.drams := by rw [State.noteDepth_eq]
@[simp] theorem State.noteDepth_colls (s : State) (m q : Nat) (p : Packet) : (s.noteDepth m q p).colls = s.colls := by rw [State.noteDepth_eq]
@[simp] theorem State.noteDepth_closed (s : State) (m q : Nat) (p : Packet) : (s.noteDepth m q p).closed = s.closed := by rw [State.noteDepth_eq]
@[simp] theorem State.noteDepth_drainDone (s : State) (m q : Nat) (p : Packet) : (s.noteDepth m q p).drainDone = s.drainDone := by rw [State.noteDepth_eq]
@[simp] theorem State.noteDepth_tests (s : State) (m q : Nat) (p : Packet) : (s.noteDepth m q p).tests = s.tests := by rw [State.noteDepth_eq]
@[simp] theorem State.noteDepth_time (s : State) (m q : Nat) (p : Packet) : (s.noteDepth m q p).time = s.time := by rw [State.noteDepth_eq]
@[simp] theorem State.noteDepth_clk (s : State) (m q : Nat) (p : Packet) : (s.noteDepth m q p).clk = s.clk := by rw [State.noteDepth_eq]
@[simp] theorem State.noteDepth_hub (s : State) (m q : Nat) (p : Packet) : (s.noteDepth m q p).hub = s.hub := by rw [State.noteDepth_eq]
@[simp] theorem State.noteDepth_trust (s : State) (m q : Nat) (p : Packet) : (s.noteDepth m q p).trust = s.trust := by rw [State.noteDepth_eq]
@[simp] theorem State.noteDepth_ports (s : State) (m q : Nat) (p : Packet) : (s.noteDepth m q p).ports = s.ports := by rw [State.noteDepth_eq]
@[simp] theorem State.noteDepth_ring (s : State) (m q : Nat) (p : Packet) : (s.noteDepth m q p).ring = s.ring := by rw [State.noteDepth_eq]
@[simp] theorem State.noteDepth_ref (s : State) (m q : Nat) (p : Packet) : (s.noteDepth m q p).ref = s.ref := by rw [State.noteDepth_eq]
@[simp] theorem State.noteDepth_lakes (s : State) (m q : Nat) (p : Packet) : (s.noteDepth m q p).lakes = s.lakes := by rw [State.noteDepth_eq]
@[simp] theorem State.noteDepth_pwr (s : State) (m q : Nat) (p : Packet) : (s.noteDepth m q p).pwr = s.pwr := by rw [State.noteDepth_eq]
@[simp] theorem State.noteDepth_telem (s : State) (m q : Nat) (p : Packet) : (s.noteDepth m q p).telem = s.telem := by rw [State.noteDepth_eq]
@[simp] theorem State.noteDepth_free (s : State) (m q : Nat) (p : Packet) : (s.noteDepth m q p).free = s.free := by rw [State.noteDepth_eq]
@[simp] theorem State.noteDepth_pending (s : State) (m q : Nat) (p : Packet) : (s.noteDepth m q p).pending = s.pending := by rw [State.noteDepth_eq]

theorem State.arrive_eq (s : State) (m q : Nat) (p : Packet) :
    s.arrive m q p = { s with
      regs := (s.arrive m q p).regs
      net := (s.arrive m q p).net } := by
  unfold State.arrive; dsimp only; rw [State.noteDepth_eq, State.counti_eq]

@[simp] theorem State.arrive_mem (s : State) (m q : Nat) (p : Packet) : (s.arrive m q p).mem = s.mem := by rw [State.arrive_eq]
@[simp] theorem State.arrive_bad (s : State) (m q : Nat) (p : Packet) : (s.arrive m q p).bad = s.bad := by rw [State.arrive_eq]
@[simp] theorem State.arrive_hostMem (s : State) (m q : Nat) (p : Packet) : (s.arrive m q p).hostMem = s.hostMem := by rw [State.arrive_eq]
@[simp] theorem State.arrive_queues (s : State) (m q : Nat) (p : Packet) : (s.arrive m q p).queues = s.queues := by rw [State.arrive_eq]
@[simp] theorem State.arrive_steers (s : State) (m q : Nat) (p : Packet) : (s.arrive m q p).steers = s.steers := by rw [State.arrive_eq]
@[simp] theorem State.arrive_springs (s : State) (m q : Nat) (p : Packet) : (s.arrive m q p).springs = s.springs := by rw [State.arrive_eq]
@[simp] theorem State.arrive_waiters (s : State) (m q : Nat) (p : Packet) : (s.arrive m q p).waiters = s.waiters := by rw [State.arrive_eq]
@[simp] theorem State.arrive_evals (s : State) (m q : Nat) (p : Packet) : (s.arrive m q p).evals = s.evals := by rw [State.arrive_eq]
@[simp] theorem State.arrive_senders (s : State) (m q : Nat) (p : Packet) : (s.arrive m q p).senders = s.senders := by rw [State.arrive_eq]
@[simp] theorem State.arrive_arrivals (s : State) (m q : Nat) (p : Packet) : (s.arrive m q p).arrivals = s.arrivals := by rw [State.arrive_eq]
@[simp] theorem State.arrive_mcores (s : State) (m q : Nat) (p : Packet) : (s.arrive m q p).mcores = s.mcores := by rw [State.arrive_eq]
@[simp] theorem State.arrive_vcores (s : State) (m q : Nat) (p : Packet) : (s.arrive m q p).vcores = s.vcores := by rw [State.arrive_eq]
@[simp] theorem State.arrive_scores (s : State) (m q : Nat) (p : Packet) : (s.arrive m q p).scores = s.scores := by rw [State.arrive_eq]
@[simp] theorem State.arrive_gens (s : State) (m q : Nat) (p : Packet) : (s.arrive m q p).gens = s.gens := by rw [State.arrive_eq]
@[simp] theorem State.arrive_pmem (s : State) (m q : Nat) (p : Packet) : (s.arrive m q p).pmem = s.pmem := by rw [State.arrive_eq]
@[simp] theorem State.arrive_opal (s : State) (m q : Nat) (p : Packet) : (s.arrive m q p).opal = s.opal := by rw [State.arrive_eq]
@[simp] theorem State.arrive_latches (s : State) (m q : Nat) (p : Packet) : (s.arrive m q p).latches = s.latches := by rw [State.arrive_eq]
@[simp] theorem State.arrive_saved (s : State) (m q : Nat) (p : Packet) : (s.arrive m q p).saved = s.saved := by rw [State.arrive_eq]
@[simp] theorem State.arrive_events (s : State) (m q : Nat) (p : Packet) : (s.arrive m q p).events = s.events := by rw [State.arrive_eq]
@[simp] theorem State.arrive_err (s : State) (m q : Nat) (p : Packet) : (s.arrive m q p).err = s.err := by rw [State.arrive_eq]
@[simp] theorem State.arrive_factory (s : State) (m q : Nat) (p : Packet) : (s.arrive m q p).factory = s.factory := by rw [State.arrive_eq]
@[simp] theorem State.arrive_overlay (s : State) (m q : Nat) (p : Packet) : (s.arrive m q p).overlay = s.overlay := by rw [State.arrive_eq]
@[simp] theorem State.arrive_parts (s : State) (m q : Nat) (p : Packet) : (s.arrive m q p).parts = s.parts := by rw [State.arrive_eq]
@[simp] theorem State.arrive_img (s : State) (m q : Nat) (p : Packet) : (s.arrive m q p).img = s.img := by rw [State.arrive_eq]
@[simp] theorem State.arrive_drams (s : State) (m q : Nat) (p : Packet) : (s.arrive m q p).drams = s.drams := by rw [State.arrive_eq]
@[simp] theorem State.arrive_colls (s : State) (m q : Nat) (p : Packet) : (s.arrive m q p).colls = s.colls := by rw [State.arrive_eq]
@[simp] theorem State.arrive_closed (s : State) (m q : Nat) (p : Packet) : (s.arrive m q p).closed = s.closed := by rw [State.arrive_eq]
@[simp] theorem State.arrive_drainDone (s : State) (m q : Nat) (p : Packet) : (s.arrive m q p).drainDone = s.drainDone := by rw [State.arrive_eq]
@[simp] theorem State.arrive_tests (s : State) (m q : Nat) (p : Packet) : (s.arrive m q p).tests = s.tests := by rw [State.arrive_eq]
@[simp] theorem State.arrive_time (s : State) (m q : Nat) (p : Packet) : (s.arrive m q p).time = s.time := by rw [State.arrive_eq]
@[simp] theorem State.arrive_clk (s : State) (m q : Nat) (p : Packet) : (s.arrive m q p).clk = s.clk := by rw [State.arrive_eq]
@[simp] theorem State.arrive_hub (s : State) (m q : Nat) (p : Packet) : (s.arrive m q p).hub = s.hub := by rw [State.arrive_eq]
@[simp] theorem State.arrive_trust (s : State) (m q : Nat) (p : Packet) : (s.arrive m q p).trust = s.trust := by rw [State.arrive_eq]
@[simp] theorem State.arrive_ports (s : State) (m q : Nat) (p : Packet) : (s.arrive m q p).ports = s.ports := by rw [State.arrive_eq]
@[simp] theorem State.arrive_ring (s : State) (m q : Nat) (p : Packet) : (s.arrive m q p).ring = s.ring := by rw [State.arrive_eq]
@[simp] theorem State.arrive_ref (s : State) (m q : Nat) (p : Packet) : (s.arrive m q p).ref = s.ref := by rw [State.arrive_eq]
@[simp] theorem State.arrive_lakes (s : State) (m q : Nat) (p : Packet) : (s.arrive m q p).lakes = s.lakes := by rw [State.arrive_eq]
@[simp] theorem State.arrive_pwr (s : State) (m q : Nat) (p : Packet) : (s.arrive m q p).pwr = s.pwr := by rw [State.arrive_eq]
@[simp] theorem State.arrive_telem (s : State) (m q : Nat) (p : Packet) : (s.arrive m q p).telem = s.telem := by rw [State.arrive_eq]
@[simp] theorem State.arrive_free (s : State) (m q : Nat) (p : Packet) : (s.arrive m q p).free = s.free := by rw [State.arrive_eq]
@[simp] theorem State.arrive_pending (s : State) (m q : Nat) (p : Packet) : (s.arrive m q p).pending = s.pending := by rw [State.arrive_eq]

theorem State.launch_eq (s : State) (p : Packet) (a : Place) :
    s.launch p a = { s with
      regs := (s.launch p a).regs
      net := (s.launch p a).net } := by
  unfold State.launch; split
  · rw [State.arrive_eq]
  · rfl

@[simp] theorem State.launch_mem (s : State) (p : Packet) (a : Place) : (s.launch p a).mem = s.mem := by rw [State.launch_eq]
@[simp] theorem State.launch_bad (s : State) (p : Packet) (a : Place) : (s.launch p a).bad = s.bad := by rw [State.launch_eq]
@[simp] theorem State.launch_hostMem (s : State) (p : Packet) (a : Place) : (s.launch p a).hostMem = s.hostMem := by rw [State.launch_eq]
@[simp] theorem State.launch_queues (s : State) (p : Packet) (a : Place) : (s.launch p a).queues = s.queues := by rw [State.launch_eq]
@[simp] theorem State.launch_steers (s : State) (p : Packet) (a : Place) : (s.launch p a).steers = s.steers := by rw [State.launch_eq]
@[simp] theorem State.launch_springs (s : State) (p : Packet) (a : Place) : (s.launch p a).springs = s.springs := by rw [State.launch_eq]
@[simp] theorem State.launch_waiters (s : State) (p : Packet) (a : Place) : (s.launch p a).waiters = s.waiters := by rw [State.launch_eq]
@[simp] theorem State.launch_evals (s : State) (p : Packet) (a : Place) : (s.launch p a).evals = s.evals := by rw [State.launch_eq]
@[simp] theorem State.launch_senders (s : State) (p : Packet) (a : Place) : (s.launch p a).senders = s.senders := by rw [State.launch_eq]
@[simp] theorem State.launch_arrivals (s : State) (p : Packet) (a : Place) : (s.launch p a).arrivals = s.arrivals := by rw [State.launch_eq]
@[simp] theorem State.launch_mcores (s : State) (p : Packet) (a : Place) : (s.launch p a).mcores = s.mcores := by rw [State.launch_eq]
@[simp] theorem State.launch_vcores (s : State) (p : Packet) (a : Place) : (s.launch p a).vcores = s.vcores := by rw [State.launch_eq]
@[simp] theorem State.launch_scores (s : State) (p : Packet) (a : Place) : (s.launch p a).scores = s.scores := by rw [State.launch_eq]
@[simp] theorem State.launch_gens (s : State) (p : Packet) (a : Place) : (s.launch p a).gens = s.gens := by rw [State.launch_eq]
@[simp] theorem State.launch_pmem (s : State) (p : Packet) (a : Place) : (s.launch p a).pmem = s.pmem := by rw [State.launch_eq]
@[simp] theorem State.launch_opal (s : State) (p : Packet) (a : Place) : (s.launch p a).opal = s.opal := by rw [State.launch_eq]
@[simp] theorem State.launch_latches (s : State) (p : Packet) (a : Place) : (s.launch p a).latches = s.latches := by rw [State.launch_eq]
@[simp] theorem State.launch_saved (s : State) (p : Packet) (a : Place) : (s.launch p a).saved = s.saved := by rw [State.launch_eq]
@[simp] theorem State.launch_events (s : State) (p : Packet) (a : Place) : (s.launch p a).events = s.events := by rw [State.launch_eq]
@[simp] theorem State.launch_err (s : State) (p : Packet) (a : Place) : (s.launch p a).err = s.err := by rw [State.launch_eq]
@[simp] theorem State.launch_factory (s : State) (p : Packet) (a : Place) : (s.launch p a).factory = s.factory := by rw [State.launch_eq]
@[simp] theorem State.launch_overlay (s : State) (p : Packet) (a : Place) : (s.launch p a).overlay = s.overlay := by rw [State.launch_eq]
@[simp] theorem State.launch_parts (s : State) (p : Packet) (a : Place) : (s.launch p a).parts = s.parts := by rw [State.launch_eq]
@[simp] theorem State.launch_img (s : State) (p : Packet) (a : Place) : (s.launch p a).img = s.img := by rw [State.launch_eq]
@[simp] theorem State.launch_drams (s : State) (p : Packet) (a : Place) : (s.launch p a).drams = s.drams := by rw [State.launch_eq]
@[simp] theorem State.launch_colls (s : State) (p : Packet) (a : Place) : (s.launch p a).colls = s.colls := by rw [State.launch_eq]
@[simp] theorem State.launch_closed (s : State) (p : Packet) (a : Place) : (s.launch p a).closed = s.closed := by rw [State.launch_eq]
@[simp] theorem State.launch_drainDone (s : State) (p : Packet) (a : Place) : (s.launch p a).drainDone = s.drainDone := by rw [State.launch_eq]
@[simp] theorem State.launch_tests (s : State) (p : Packet) (a : Place) : (s.launch p a).tests = s.tests := by rw [State.launch_eq]
@[simp] theorem State.launch_time (s : State) (p : Packet) (a : Place) : (s.launch p a).time = s.time := by rw [State.launch_eq]
@[simp] theorem State.launch_clk (s : State) (p : Packet) (a : Place) : (s.launch p a).clk = s.clk := by rw [State.launch_eq]
@[simp] theorem State.launch_hub (s : State) (p : Packet) (a : Place) : (s.launch p a).hub = s.hub := by rw [State.launch_eq]
@[simp] theorem State.launch_trust (s : State) (p : Packet) (a : Place) : (s.launch p a).trust = s.trust := by rw [State.launch_eq]
@[simp] theorem State.launch_ports (s : State) (p : Packet) (a : Place) : (s.launch p a).ports = s.ports := by rw [State.launch_eq]
@[simp] theorem State.launch_ring (s : State) (p : Packet) (a : Place) : (s.launch p a).ring = s.ring := by rw [State.launch_eq]
@[simp] theorem State.launch_ref (s : State) (p : Packet) (a : Place) : (s.launch p a).ref = s.ref := by rw [State.launch_eq]
@[simp] theorem State.launch_lakes (s : State) (p : Packet) (a : Place) : (s.launch p a).lakes = s.lakes := by rw [State.launch_eq]
@[simp] theorem State.launch_pwr (s : State) (p : Packet) (a : Place) : (s.launch p a).pwr = s.pwr := by rw [State.launch_eq]
@[simp] theorem State.launch_telem (s : State) (p : Packet) (a : Place) : (s.launch p a).telem = s.telem := by rw [State.launch_eq]
@[simp] theorem State.launch_free (s : State) (p : Packet) (a : Place) : (s.launch p a).free = s.free := by rw [State.launch_eq]
@[simp] theorem State.launch_pending (s : State) (p : Packet) (a : Place) : (s.launch p a).pending = s.pending := by rw [State.launch_eq]

theorem State.respond_eq (s : State) (me dst typ len tag : Nat) (o : Bool) (v : BitVec 256) :
    s.respond me dst typ len tag o v = { s with
      regs := (s.respond me dst typ len tag o v).regs
      net := (s.respond me dst typ len tag o v).net } := by
  unfold State.respond; dsimp only; split
  · rw [State.launch_eq]
  · split
    · rfl
    · rfl

@[simp] theorem State.respond_mem (s : State) (me dst typ len tag : Nat) (o : Bool) (v : BitVec 256) : (s.respond me dst typ len tag o v).mem = s.mem := by rw [State.respond_eq]
@[simp] theorem State.respond_bad (s : State) (me dst typ len tag : Nat) (o : Bool) (v : BitVec 256) : (s.respond me dst typ len tag o v).bad = s.bad := by rw [State.respond_eq]
@[simp] theorem State.respond_hostMem (s : State) (me dst typ len tag : Nat) (o : Bool) (v : BitVec 256) : (s.respond me dst typ len tag o v).hostMem = s.hostMem := by rw [State.respond_eq]
@[simp] theorem State.respond_queues (s : State) (me dst typ len tag : Nat) (o : Bool) (v : BitVec 256) : (s.respond me dst typ len tag o v).queues = s.queues := by rw [State.respond_eq]
@[simp] theorem State.respond_steers (s : State) (me dst typ len tag : Nat) (o : Bool) (v : BitVec 256) : (s.respond me dst typ len tag o v).steers = s.steers := by rw [State.respond_eq]
@[simp] theorem State.respond_springs (s : State) (me dst typ len tag : Nat) (o : Bool) (v : BitVec 256) : (s.respond me dst typ len tag o v).springs = s.springs := by rw [State.respond_eq]
@[simp] theorem State.respond_waiters (s : State) (me dst typ len tag : Nat) (o : Bool) (v : BitVec 256) : (s.respond me dst typ len tag o v).waiters = s.waiters := by rw [State.respond_eq]
@[simp] theorem State.respond_evals (s : State) (me dst typ len tag : Nat) (o : Bool) (v : BitVec 256) : (s.respond me dst typ len tag o v).evals = s.evals := by rw [State.respond_eq]
@[simp] theorem State.respond_senders (s : State) (me dst typ len tag : Nat) (o : Bool) (v : BitVec 256) : (s.respond me dst typ len tag o v).senders = s.senders := by rw [State.respond_eq]
@[simp] theorem State.respond_arrivals (s : State) (me dst typ len tag : Nat) (o : Bool) (v : BitVec 256) : (s.respond me dst typ len tag o v).arrivals = s.arrivals := by rw [State.respond_eq]
@[simp] theorem State.respond_mcores (s : State) (me dst typ len tag : Nat) (o : Bool) (v : BitVec 256) : (s.respond me dst typ len tag o v).mcores = s.mcores := by rw [State.respond_eq]
@[simp] theorem State.respond_vcores (s : State) (me dst typ len tag : Nat) (o : Bool) (v : BitVec 256) : (s.respond me dst typ len tag o v).vcores = s.vcores := by rw [State.respond_eq]
@[simp] theorem State.respond_scores (s : State) (me dst typ len tag : Nat) (o : Bool) (v : BitVec 256) : (s.respond me dst typ len tag o v).scores = s.scores := by rw [State.respond_eq]
@[simp] theorem State.respond_gens (s : State) (me dst typ len tag : Nat) (o : Bool) (v : BitVec 256) : (s.respond me dst typ len tag o v).gens = s.gens := by rw [State.respond_eq]
@[simp] theorem State.respond_pmem (s : State) (me dst typ len tag : Nat) (o : Bool) (v : BitVec 256) : (s.respond me dst typ len tag o v).pmem = s.pmem := by rw [State.respond_eq]
@[simp] theorem State.respond_opal (s : State) (me dst typ len tag : Nat) (o : Bool) (v : BitVec 256) : (s.respond me dst typ len tag o v).opal = s.opal := by rw [State.respond_eq]
@[simp] theorem State.respond_latches (s : State) (me dst typ len tag : Nat) (o : Bool) (v : BitVec 256) : (s.respond me dst typ len tag o v).latches = s.latches := by rw [State.respond_eq]
@[simp] theorem State.respond_saved (s : State) (me dst typ len tag : Nat) (o : Bool) (v : BitVec 256) : (s.respond me dst typ len tag o v).saved = s.saved := by rw [State.respond_eq]
@[simp] theorem State.respond_events (s : State) (me dst typ len tag : Nat) (o : Bool) (v : BitVec 256) : (s.respond me dst typ len tag o v).events = s.events := by rw [State.respond_eq]
@[simp] theorem State.respond_err (s : State) (me dst typ len tag : Nat) (o : Bool) (v : BitVec 256) : (s.respond me dst typ len tag o v).err = s.err := by rw [State.respond_eq]
@[simp] theorem State.respond_factory (s : State) (me dst typ len tag : Nat) (o : Bool) (v : BitVec 256) : (s.respond me dst typ len tag o v).factory = s.factory := by rw [State.respond_eq]
@[simp] theorem State.respond_overlay (s : State) (me dst typ len tag : Nat) (o : Bool) (v : BitVec 256) : (s.respond me dst typ len tag o v).overlay = s.overlay := by rw [State.respond_eq]
@[simp] theorem State.respond_parts (s : State) (me dst typ len tag : Nat) (o : Bool) (v : BitVec 256) : (s.respond me dst typ len tag o v).parts = s.parts := by rw [State.respond_eq]
@[simp] theorem State.respond_img (s : State) (me dst typ len tag : Nat) (o : Bool) (v : BitVec 256) : (s.respond me dst typ len tag o v).img = s.img := by rw [State.respond_eq]
@[simp] theorem State.respond_drams (s : State) (me dst typ len tag : Nat) (o : Bool) (v : BitVec 256) : (s.respond me dst typ len tag o v).drams = s.drams := by rw [State.respond_eq]
@[simp] theorem State.respond_colls (s : State) (me dst typ len tag : Nat) (o : Bool) (v : BitVec 256) : (s.respond me dst typ len tag o v).colls = s.colls := by rw [State.respond_eq]
@[simp] theorem State.respond_closed (s : State) (me dst typ len tag : Nat) (o : Bool) (v : BitVec 256) : (s.respond me dst typ len tag o v).closed = s.closed := by rw [State.respond_eq]
@[simp] theorem State.respond_drainDone (s : State) (me dst typ len tag : Nat) (o : Bool) (v : BitVec 256) : (s.respond me dst typ len tag o v).drainDone = s.drainDone := by rw [State.respond_eq]
@[simp] theorem State.respond_tests (s : State) (me dst typ len tag : Nat) (o : Bool) (v : BitVec 256) : (s.respond me dst typ len tag o v).tests = s.tests := by rw [State.respond_eq]
@[simp] theorem State.respond_time (s : State) (me dst typ len tag : Nat) (o : Bool) (v : BitVec 256) : (s.respond me dst typ len tag o v).time = s.time := by rw [State.respond_eq]
@[simp] theorem State.respond_clk (s : State) (me dst typ len tag : Nat) (o : Bool) (v : BitVec 256) : (s.respond me dst typ len tag o v).clk = s.clk := by rw [State.respond_eq]
@[simp] theorem State.respond_hub (s : State) (me dst typ len tag : Nat) (o : Bool) (v : BitVec 256) : (s.respond me dst typ len tag o v).hub = s.hub := by rw [State.respond_eq]
@[simp] theorem State.respond_trust (s : State) (me dst typ len tag : Nat) (o : Bool) (v : BitVec 256) : (s.respond me dst typ len tag o v).trust = s.trust := by rw [State.respond_eq]
@[simp] theorem State.respond_ports (s : State) (me dst typ len tag : Nat) (o : Bool) (v : BitVec 256) : (s.respond me dst typ len tag o v).ports = s.ports := by rw [State.respond_eq]
@[simp] theorem State.respond_ring (s : State) (me dst typ len tag : Nat) (o : Bool) (v : BitVec 256) : (s.respond me dst typ len tag o v).ring = s.ring := by rw [State.respond_eq]
@[simp] theorem State.respond_ref (s : State) (me dst typ len tag : Nat) (o : Bool) (v : BitVec 256) : (s.respond me dst typ len tag o v).ref = s.ref := by rw [State.respond_eq]
@[simp] theorem State.respond_lakes (s : State) (me dst typ len tag : Nat) (o : Bool) (v : BitVec 256) : (s.respond me dst typ len tag o v).lakes = s.lakes := by rw [State.respond_eq]
@[simp] theorem State.respond_pwr (s : State) (me dst typ len tag : Nat) (o : Bool) (v : BitVec 256) : (s.respond me dst typ len tag o v).pwr = s.pwr := by rw [State.respond_eq]
@[simp] theorem State.respond_telem (s : State) (me dst typ len tag : Nat) (o : Bool) (v : BitVec 256) : (s.respond me dst typ len tag o v).telem = s.telem := by rw [State.respond_eq]
@[simp] theorem State.respond_free (s : State) (me dst typ len tag : Nat) (o : Bool) (v : BitVec 256) : (s.respond me dst typ len tag o v).free = s.free := by rw [State.respond_eq]
@[simp] theorem State.respond_pending (s : State) (me dst typ len tag : Nat) (o : Bool) (v : BitVec 256) : (s.respond me dst typ len tag o v).pending = s.pending := by rw [State.respond_eq]

end Sys2Proof.Machine
end

