-- ==== Sys2Proof/WellFormed.lean ====
section
/-! DEFINITION. Which commands can be given at all: units that exist, fields that fit. Every operand whose type already bounds
it needs no check. -/

namespace Sys2Proof

open Sys2Proof.Machine

/-- R61, R316, R456: an aligned access of 4 or 8 bytes inside a unit's 8 MiB, with a value that fits. -/
def regAccessOk (o n v : Nat) : Bool :=
  (decide (n = 4) || decide (n = 8)) && decide (o % n = 0) && decide (o + n ≤ 2 ^ 23) && decide (v < 2 ^ (8 * n))

/-- R32, R50: an upset strikes a cell of one of eight sets, within a segment of 256 groups. -/
def upsetsOk (l : List Upset) : Bool :=
  l.all (fun u => decide (u.set < 8) && decide (u.cell < 25) && decide (u.after ≤ 256) && decide (u.mask < 2 ^ 32))

/-- A command that can be given. -/
def Instr.wellFormed : Instr → Bool
  | .csrWrite u o n v _ => u.ok && regAccessOk o n v
  | .segmentCheck _ _ _ ups _ _ => upsetsOk ups
  | .rotatedRecomputeDone _ _ _ ups => upsetsOk ups
  | .dramPatrol _ o _ _ => decide (o.toNat % 64 = 0)
  | .springWrite _ o bs => decide (o.toNat % 16 + bs.length ≤ 16)
  | .slotWrite _ o bs => decide (o.toNat + bs.length ≤ 256)
  | .tileWindowAccess (.read o n) => regAccessOk o n 0
  | .tileWindowAccess (.write o n v) => regAccessOk o n v
  | .broadcastChunk _ _ _ _ len bs => decide (len ≤ 4096) && decide (bs.length = len)
  | .exportReceived _ _ sites => sites.all (fun e => decide (e.1 < 16384))
  | .wrapWriteIgnored u o v => u.ok && regAccessOk o 8 v
  | .counterReadLow u o _ _ => u.ok && decide (o % 8 = 0) && decide (o + 8 ≤ 2 ^ 23)
  | _ => true

end Sys2Proof
end

