-- ==== Sys2Proof/Tests/Slice0.lean ====
section
/-! SUPPORT. Tests of the model: ill-formed commands refused, words and values the spec writes out, and for every statement with
hypotheses a state and operands that meet them, clause by clause. -/

set_option Elab.async false

namespace Sys2Proof.Tests

open Sys2Proof Sys2Proof.Machine Sys2Proof.Claims

/-! States to test in. -/

/-- The wafer runs; pond 0 is in lake 0. -/
def on : State := (State.reset.wr .hub Reg.svcPwrStatState 4).wr (.lake 0) Reg.lakeClkStatState 0

/-- `on` with register fields written. -/
def onW (l : List (UnitId × Fld × Nat)) : State := l.foldl (fun s x => s.wr x.1 x.2.1 x.2.2) on

/-- `s` with entries in a hardware queue of tile t of pond 0. -/
def put (s : State) (t : Nat) (isOut : Bool) (q : Nat) (l : List QEnt) : State :=
  s.setQueue (queueKey 0 t isOut q) { TQueue.empty with hw := l }

/-- The outcome's state. -/
def after (o : Host.Outcome State Fault Refusal) (s : State) : State :=
  match o with
  | .next t => t
  | _ => s

/-! WellFormed: a command that passes, and for each check one that is refused. -/

theorem test_wf_csr_ok : (Instr.csrWrite (.tile 0 0) 0x10 8 1 false).wellFormed = true := by decide
theorem test_wf_csr_unit : (Instr.csrWrite (.tile 13824 0) 0x10 8 1 false).wellFormed = false := by decide
theorem test_wf_csr_size : (Instr.csrWrite (.tile 0 0) 0x10 2 1 false).wellFormed = false := by decide
theorem test_wf_csr_align : (Instr.csrWrite (.tile 0 0) 0x14 8 1 false).wellFormed = false := by decide
theorem test_wf_csr_range : (Instr.csrWrite (.tile 0 0) 0x800000 8 1 false).wellFormed = false := by decide
theorem test_wf_csr_value : (Instr.csrWrite (.tile 0 0) 0x10 4 0x100000000 false).wellFormed = false := by decide
theorem test_wf_segment_set : (Instr.segmentCheck 0 0 0 [⟨8, 0, 0, 1⟩] 0 0).wellFormed = false := by decide
theorem test_wf_segment_cell : (Instr.segmentCheck 0 0 0 [⟨0, 25, 0, 1⟩] 0 0).wellFormed = false := by decide
theorem test_wf_segment_after : (Instr.segmentCheck 0 0 0 [⟨0, 0, 257, 1⟩] 0 0).wellFormed = false := by decide
theorem test_wf_segment_ok : (Instr.segmentCheck 0 0 0 [⟨7, 24, 256, 0xFFFFFFFF⟩] 0 0).wellFormed = true := by decide
theorem test_wf_recompute : (Instr.rotatedRecomputeDone 0 0 0 [⟨0, 0, 0, 0x100000000⟩]).wellFormed = false := by decide
theorem test_wf_patrol : (Instr.dramPatrol 0 32 .good false).wellFormed = false := by decide
theorem test_wf_spring_write : (Instr.springWrite 0 12 [0, 0, 0, 0, 0]).wellFormed = false := by decide
theorem test_wf_slot_write : (Instr.slotWrite 0 255 [0, 0]).wellFormed = false := by decide
theorem test_wf_window_read : (Instr.tileWindowAccess (.read 2 4)).wellFormed = false := by decide
theorem test_wf_window_write : (Instr.tileWindowAccess (.write 0 4 0x100000000)).wellFormed = false := by decide
theorem test_wf_broadcast : (Instr.broadcastChunk 0 0 0 0 2 [0]).wellFormed = false := by decide
theorem test_wf_export : (Instr.exportReceived 0 0 [(16384, 0)]).wellFormed = false := by decide
theorem test_wf_wrap_write : (Instr.wrapWriteIgnored (.lake 576) 0 0).wellFormed = false := by decide
theorem test_wf_counter_read : (Instr.counterReadLow (.tile 0 0) 4 false 0).wellFormed = false := by decide

/-! Matrix cores: witnesses. -/

/-- Pond 0's M-core at tile 0 with a gate buffer of 64 KiB. -/
def mat (l : List (UnitId × Fld × Nat)) : State := onW ((.tile 0 0, Reg.mcoreGateBufSize, 64) :: l)
/-- `mat` with the M-core's own state. -/
def matC (l : List (UnitId × Fld × Nat)) (c : MCore) : State := (mat l).setMcore 0 0 c
/-- A complete row of the shape at reset: 64 F16 elements in 4 entries. -/
def aRow : GateRow := ⟨0, 4, []⟩
/-- A released group of one row. -/
def aGroup : MGroup := ⟨0, [aRow], 4, 0, 0, 0⟩
/-- An M-core whose array 0 has quarter 0 of that group in hand. -/
def busy (seg : Nat) (final : Bool) (replay : List Replay) : MCore :=
  { MCore.init with
    groups := [aGroup]
    arrs := { MArr.idle with
      work := some (0, 0)
      seg := seg
      replay := replay
      final := final } :: List.replicate 3 MArr.idle }

theorem test_wit_matrix_run : (mat []).ctrAbsent (.tile 0 0) = false ∧ (mat []).mRunOk 0 0 = true ∧
    on.ctrAbsent (.tile 0 0) = false ∧ on.mRunOk 0 0 = false := by decide

theorem test_wit_matrix_gate_value : (mat []).ctrAbsent (.tile 0 0) = false ∧
    (8 ≤ 8 ∧ (mat []).gateHolds 0 0 (gateDemand 8) = true) ∧ 8 < 9 ∧ on.gateHolds 0 0 (gateDemand 0) = false := by decide

theorem test_wit_matrix_mode : on.ctrAbsent (.tile 0 0) = false ∧ on.rd (.tile 0 0) Reg.mcoreCtrlMode ≠ true.toNat ∧
    (let s := matC [] { MCore.init with modeNext := some 1 }
     CoreReady s 0 0 ∧ 1 < 2 ∧ (s.mcore 0 0).modeNext = some 1 ∧ (s.mcore 0 0).settled = true) := by unfold CoreReady; decide

theorem test_wit_matrix_release :
    let s := matC [(.tile 0 0, Reg.mcoreCtrlRun, 1)] { MCore.init with fill := [aRow], age := 4096 }
    s.gateFill 0 0 ≠ 0 ∧ s.rd (.tile 0 0) Reg.mcoreCtrlRun = 1 ∧ s.ctrAbsent (.tile 0 0) = false ∧ CoreReady s 0 0 ∧
      NoBatch s 0 0 ∧ ((s.mcore 0 0).gov.getD (s.gateGovNow 0 0)).deadline ≤ (s.mcore 0 0).age + 0 := by unfold CoreReady NoBatch; decide

theorem test_wit_matrix_drained : let s := matC [(.tile 0 0, Reg.mcoreCtrlDrain, 1)] MCore.init
    CoreReady s 0 0 ∧ s.rd (.tile 0 0) Reg.mcoreCtrlDrain = 1 ∧ (s.mcore 0 0).drained = true := by unfold CoreReady; decide

theorem test_wit_matrix_takes :
    let s := put (mat [(.tile 0 0, Reg.mcoreCtrlRun, 1)]) 0 false 0 [⟨false, 5⟩]
    CoreReady s 0 0 ∧ s.mTakes 0 0 = true ∧ s.flag (.tile 0 0) Reg.mcoreCtrlMode = false ∧ (s.mcore 0 0).fill = [] ∧
      s.headData 0 0 0 = some 5 ∧ s.gateSlot 0 0 = some 0 := by unfold CoreReady; decide +kernel

theorem test_wit_matrix_mask :
    let s := put (matC [(.tile 0 0, Reg.mcoreCtrlRun, 1), (.tile 0 0, Reg.mcoreSparsePredEn, 1), (.tile 0 0, Reg.mcoreGateDemand, 8)]
      { MCore.init with fill := [aRow] }) 0 false 1 [⟨false, 5⟩]
    CoreReady s 0 0 ∧ s.mTakes 0 0 = true ∧ s.flag (.tile 0 0) Reg.mcoreSparsePredEn = true ∧ s.gateFill 0 0 = 0 ∧
      s.headData 0 0 1 = some 5 ∧ maskInvalid 5 = false ∧
      (s.mcore 0 0).fill.findIdx? (fun r => decide (r.masks.length < s.maskEntries 0 0)) = some 0 ∧
      (s.mcore 0 0).fill.length < 4 * ((s.mcore 0 0).gov.getD (s.gateGovNow 0 0)).demand := by unfold CoreReady; decide

theorem test_wit_csr_matrix :
    (let s := mat [(.tile 0 0, Reg.mcoreCtrlRun, 1)]
     s.ctrAbsent (.tile 0 0) = false ∧ s.wrapIgnored (.tile 0 0) 0x10 = false ∧ s.rd (.tile 0 0) Reg.mcoreCtrlRun = 1) ∧
    (on.wrapIgnored (.tile 0 0) 0x10 = false ∧ on.rd (.tile 0 0) Reg.mcoreCtrlRun = 0 ∧ slice 0x948 1 3 = 4 ∧ slice 0x948 4 3 = 4 ∧
      slice 0x948 7 3 = 2 ∧ slice 0x948 10 2 = 2 ∧ slice 0x948 15 2 = 0) := by decide

theorem test_wit_matrix_segment :
    let s := matC [(.tile 0 0, Reg.mcoreSparseRecEn, 1)] { busy 0 false [] with
      arrs := { MArr.idle with
        work := some (0, 0)
        recs := [⟨false, true, false, [], 0, 0, 0, 16, 0⟩] } :: List.replicate 3 MArr.idle }
    let x := (s.mcore 0 0).arr 0
    CoreReady s 0 0 ∧ x.work = some (0, 0) ∧ x.final = false ∧ x.replay = [] ∧ (s.mcore 0 0).stopped = false ∧
      (s.mcore 0 0).group 0 = some aGroup ∧ s.rd (.tile 0 0) Reg.mcoreSparseRecEn = 1 ∧
      4 * s.segGroups 0 0 * (x.seg + 1) ≤ 64 * x.recs.length := by unfold CoreReady; decide

theorem test_wit_matrix_check_off : on.rd (.tile 0 0) Reg.mcoreCfgChkEn = 1 ∧
    (mat [(.tile 0 0, Reg.mcoreCfgChkEn, 0)]).rd (.tile 0 0) Reg.mcoreCfgChkEn = 0 := by decide

theorem test_wit_matrix_recompute : let s := matC [] (busy 0 false [⟨0, AccSet.fresh, 1, false⟩])
    CoreReady s 0 0 ∧ ((s.mcore 0 0).arr 0).work = some (0, 0) ∧ ((s.mcore 0 0).arr 0).replay ≠ [] ∧
      (s.mcore 0 0).group 0 = some aGroup := by unfold CoreReady; decide

theorem test_wit_matrix_quarter :
    (let s := matC [] (busy 1 true [])
     CoreReady s 0 0 ∧ ((s.mcore 0 0).arr 0).work = some (0, 0) ∧ ((s.mcore 0 0).arr 0).final = true ∧
      (s.mcore 0 0).group 0 = some aGroup ∧ (s.mcore 0 0).bb.length < 2) ∧
    (let b := ⟨0, 1, [aRow], 4, 0, [], 0⟩
     let s := matC [] { busy 1 true [] with bb := [b, b] }
     (∀ b ∈ (s.mcore 0 0).bb, b.gid ≠ 0 ∨ b.block ≠ 0 / 4) ∧ 2 ≤ (s.mcore 0 0).bb.length) := by unfold CoreReady; decide

theorem test_wit_matrix_epilogue :
    let b : BBSlot := ⟨0, 0, [aRow], 4, 0, [(0, []), (1, []), (2, []), (3, [])], 0⟩
    let s := matC [] { MCore.init with bb := [b] }
    CoreReady s 0 0 ∧ (s.mcore 0 0).stage2 = [] ∧ (s.mcore 0 0).bb = [b] ∧ 4 ≤ b.quarters.length ∧ b.row < b.rows.length ∧
      Room (outQ s 0 0 0) 2 ∧ s.rd (.tile 0 0) Reg.mcoreCfgActEn = 0 ∧ s.rd (.tile 0 0) Reg.mcoreSparsePredEn = 0 ∧
      s.sramBad (coreKey 0 0 (s.rd (.tile 0 0) Reg.mcoreEpiBaseBase * 128 + 128 * b.block)) 128 = false := by
  unfold CoreReady Room; decide +kernel

theorem test_wit_matrix_elementwise :
    let s := put (mat [(.tile 0 0, Reg.mcoreCtrlRun, 1), (.tile 0 0, Reg.mcoreCtrlMode, 1)]) 0 false 0 [⟨false, 5⟩]
    CoreReady s 0 0 ∧ s.mTakes 0 0 = true ∧ s.rd (.tile 0 0) Reg.mcoreCtrlMode = 1 ∧ s.rd (.tile 0 0) Reg.mcoreCfgEwOp = 0 ∧
      (s.aFmt 0 0).scaled = false ∧ (s.aFmt 0 0 = .f32) = False ∧ ((inQ s 0 0 0).hw.take 1).length = 1 ∧
      (∀ e ∈ (inQ s 0 0 0).hw.take 1, e.tok = false) ∧ Room (outQ s 0 0 0) 2 ∧ s.rd (.tile 0 0) Reg.mcoreCfgActEn = 0 ∧
      s.sramBad (coreKey 0 0 (s.rd (.tile 0 0) Reg.mcoreEpiBaseBase * 128)) 128 = false := by unfold CoreReady Room; decide +kernel

theorem test_wit_sparse_record :
    let s := matC [(.tile 0 0, Reg.mcoreSparseRecEn, 1)] (busy 0 false [])
    CoreReady s 0 0 ∧ ((s.mcore 0 0).arr 0).work = some (0, 0) ∧ s.rd (.tile 0 0) Reg.mcoreSparseRecEn = 1 ∧
      (s.mcore 0 0).stopped = false ∧ ((s.mcore 0 0).arr 0).recs.length < s.rowK 0 0 / 64 ∧
      recordValid s 0 0 0 0 = false := by unfold CoreReady; decide

/-- R85: the metadata word of a zero quarter of F16 weights: ZERO, FMT 1, CHK the XOR of the other bytes. -/
theorem test_wit_sparse_record_valid :
    let s := { matC [(.tile 0 0, Reg.mcoreSparseRecEn, 1), (.tile 0 0, Reg.mcoreWringSize, 64)] (busy 0 false []) with
      mem := [(coreKey 0 0 0, 6), (coreKey 0 0 7, 6)] }
    CoreReady s 0 0 ∧ ((s.mcore 0 0).arr 0).work = some (0, 0) ∧ s.rd (.tile 0 0) Reg.mcoreSparseRecEn = 1 ∧
      (s.mcore 0 0).stopped = false ∧ ((s.mcore 0 0).arr 0).recs.length < s.rowK 0 0 / 64 ∧ recordValid s 0 0 0 0 = true := by
  unfold CoreReady; decide +kernel

theorem test_wit_token :
    (let s := put on 0 false 7 [⟨true, 0⟩]
     CoreReady s 0 0 ∧ s.steered 0 0 7 = false ∧ s.headOf 0 0 false 7 = some ⟨true, 0⟩) ∧
    (let s := put on 1 false 7 [⟨true, 0⟩]
     CoreReady s 0 1 ∧ s.steered 0 1 7 = false ∧ s.headOf 0 1 false 7 = some ⟨true, 0⟩ ∧ (tokType 0 ≠ 6 ∨ 2 ≤ 7)) ∧
    (let s := put on 1 false 1 [⟨true, 6⟩]
     CoreReady s 0 1 ∧ s.steered 0 1 1 = false ∧ s.headOf 0 1 false 1 = some ⟨true, 6⟩ ∧ tokType 6 = 6 ∧ 1 < 2) := by unfold CoreReady; decide

/-! Vector cores: witnesses. -/

theorem test_wit_vector_control : on.ctrAbsent (.tile 0 1) = false ∧ NoBatch on 0 1 ∧ on.rd (.tile 0 1) Reg.vcoreCtrlRun = 0 ∧
    (onW [(.tile 0 1, Reg.vcoreCtrlRun, 1)]).rd (.tile 0 1) Reg.vcoreCtrlRun = 1 ∧ (on.vcore 0 1).inRow = false ∧
    (on.vcore 0 1).outQ = [] ∧ ((on.setVcore 0 1 { VCore.init with inA := [7] }).vcore 0 1).inRow = true := by
  unfold NoBatch; decide

theorem test_wit_vector_takes :
    let s := put (onW [(.tile 0 1, Reg.vcoreCtrlRun, 1), (.tile 0 1, Reg.vcoreCfgRowb, 2)]) 1 false 0 [⟨false, 5⟩]
    let need := streamEntries (s.rd (.tile 0 1) Reg.vcoreCfgInFmt) (s.rowLen 0 1)
    CoreReady s 0 1 ∧ s.vTakes 0 1 = true ∧ (s.vcore 0 1).outQ = [] ∧ s.headData 0 1 0 = some 5 ∧
      s.rd (.tile 0 1) Reg.vcoreCfgSelect = 0 ∧ (s.vcore 0 1).inA.length < need ∧
      (s.wr (.tile 0 1) Reg.vcoreCfgSelect 1).rd (.tile 0 1) Reg.vcoreCfgSelect = 1 ∧ (s.vcore 0 1).inA.length + 1 < need := by
  unfold CoreReady; decide

/-- I32 in and out, six stages PASS: stage 0 of input A, the others of the stage before. -/
theorem test_wit_vector_pass :
    let s := put (onW [(.tile 0 1, Reg.vcoreCtrlRun, 1), (.tile 0 1, Reg.vcoreCfgRowb, 2), (.tile 0 1, Reg.vcoreCfgInFmt, 5),
      (.tile 0 1, Reg.vcoreCfgOutFmt, 5), (.tile 0 1, Reg.vcoreStageSrcA, 1)]) 1 false 0 [⟨false, 5⟩]
    CoreReady s 0 1 ∧ s.vTakes 0 1 = true ∧ (s.vcore 0 1).outQ = [] ∧ s.headData 0 1 0 = some 5 ∧
      s.rd (.tile 0 1) Reg.vcoreCfgSelect = 0 ∧ s.rd (.tile 0 1) Reg.vcoreCfgInFmt = 5 ∧ s.rd (.tile 0 1) Reg.vcoreCfgOutFmt = 5 ∧
      s.rd (.tile 0 1) Reg.vcoreCfgOutPred = 0 ∧ (s.vcore 0 1).inA.length < streamEntries 5 (s.rowLen 0 1) ∧
      (s.vcore 0 1).done = 8 * (s.vcore 0 1).inA.length ∧ (s.vcore 0 1).outVals = [] ∧ (s.vcore 0 1).constNext = [] ∧
      (∀ n, n < 6 → let x := s.stage 0 1 (s.rd (.tile 0 1) Reg.vcoreCtrlSet) n
        x.op = 0 ∧ x.guard_ = 0 ∧ x.srcA = (if n = 0 then 1 else 0) ∧ x.reads 2 = false) ∧ Room (outQ s 0 1 0) 1 := by
  unfold CoreReady Room; decide +kernel

/-- A row of 32 F16 scores whose second and last entry is at the head of queue 0. -/
theorem test_wit_vector_select :
    let s := (put (onW [(.tile 0 1, Reg.vcoreCtrlRun, 1), (.tile 0 1, Reg.vcoreCfgRowb, 1), (.tile 0 1, Reg.vcoreCfgSelect, 1)])
      1 false 0 [⟨false, 5⟩]).setVcore 0 1 { VCore.init with inA := [1] }
    CoreReady s 0 1 ∧ s.vTakes 0 1 = true ∧ (s.vcore 0 1).outQ = [] ∧ s.headData 0 1 0 = some 5 ∧
      s.rd (.tile 0 1) Reg.vcoreCfgSelect = 1 ∧ s.rd (.tile 0 1) Reg.vcoreCfgSelOut = 0 ∧
      (s.vcore 0 1).inA.length + 1 = streamEntries (s.rd (.tile 0 1) Reg.vcoreCfgInFmt) (s.rowLen 0 1) ∧
      Room (outQ s 0 1 0) (cdiv (s.rowLen 0 1) 128) := by unfold CoreReady Room; decide +kernel

/-! S-cores: witnesses. -/

/-- Pond 0's S-core runs at pc 0, where the word lies; its registers hold l. -/
def sc (w : Word) (regs : Tab Word) (l : List (UnitId × Fld × Nat)) : State :=
  let s := onW ((.tile 0 5, Reg.scoreCtrlRun, 1) :: l)
  { s with
    mem := s.mem.putBytes (coreKey 0 5 0) (leBytes 4 w.toNat)
    scores := [(0, { SCore.init with regs := regs })] }

/-- The same for an instruction with an imm. -/
def scI (op : BitVec 6) (rd rs1 : BitVec 5) (imm : BitVec 16) (regs : Tab Word) : State := sc (sEncode op rd rs1 imm) regs []

theorem test_wit_scalar_issue : ∀ op : Fin 64, Issues (scI (BitVec.ofNat 6 op) 1 2 0 []) 0 op := by unfold Issues; decide +kernel

/-- Words written out from R119: ADD g3, g4, g5 and ADDI g1, g2, −4. -/
theorem test_word_add : sDecode 0b00000000011001000010100000000000 = ⟨0, 3, 4, 5, 0x2800⟩ := by decide
theorem test_word_addi : sDecode 0b00001000001000101111111111111100 = ⟨2, 1, 2, 31, 0xFFFC⟩ := by decide
theorem test_word_step : (sDecode 0b10111100000000000000000000000000).op = 0x2F := by decide

theorem test_wit_scalar_memory :
    ownMem on 0 4 0 = some (coreKey 0 5 0) ∧ ownMem on 0 2 0x3FFFE = some (coreKey 0 5 0x3FFFE) ∧
    ownMem on 0 1 0x107FFFFF = some (pondKey 0 0x7FFFFF) ∧ ownMem on 0 1 0x10000000 = some (pondKey 0 0) ∧
    on.sramBad (coreKey 0 5 0) 4 = false ∧ on.partialBad (coreKey 0 5 0) 4 = false := by decide +kernel

theorem test_wit_scalar_control :
    (let s := sc (sEncode 45 0 0 0) [] [(.tile 0 5, Reg.scoreEstatInHandler, 1)]
     Issues s 0 45 ∧ s.rd (.tile 0 5) Reg.scoreEstatInHandler = 1) ∧ (scI 40 0 0 0 []).fenced 0 = true := by
  unfold Issues; decide +kernel

theorem test_wit_scalar_reads :
    (let s := scI 31 0 1 0 [(1, 63)]
     let x := s.greg 0 (word s 0).rs1
     Issues s 0 31 ∧ x.toNat / 2 ^ 21 % 64 = s.rank ∧ x.toNat / 2 ^ 6 % 512 = 0 % 288 ∧ x.toNat / 2 ^ 15 % 64 = 0 / 288 ∧
      (s.spring 0 (x.toNat % 64)).count + (s.greg 0 (word s 0).rs2).toNat < 2 ^ 32) ∧
    csrOperand 0x02800030 = some (5, 0x30) ∧ csrOperand 0x08800000 = some (17, 0) ∧ on.csrFailed 0 5 0x30 = false ∧
    ((scI 30 2 1 0 [(2, 0x100000)]).greg 0 2).toNat % 2 ^ 20 = 0 ∧
    ((scI 30 2 1 0 [(2, 0xFFFFF)]).greg 0 2).toNat % 2 ^ 20 ≠ 0 := by unfold Issues; decide +kernel

theorem test_wit_scalar_tokens :
    (let s := scI 34 0 24 15 []
     Issues s 0 34 ∧ (word s 0).rs1 ≤ 24 ∧ Room (outQ s 0 5 7) 1) ∧
    (let s := put (scI 35 24 0 7 []) 5 false 7 [⟨true, 0⟩]
     Issues s 0 35 ∧ (word s 0).rd ≤ 24 ∧ s.headOf 0 5 false 7 = some ⟨true, 0⟩) ∧
    (scI 35 24 0 7 []).headOf 0 5 false 7 = none := by unfold Issues Room; decide +kernel

theorem test_wit_scalar_aggo : let s := sc (sEncodeR 37 2 1 0 0) [(1, 0x33)] []
    Issues s 0 37 ∧ (s.greg 0 1).toNat % 16 = 3 ∧ tileType 3 = .a ∧ (s.tileW 0 3).testBit 0 = false ∧
      ownMem s 0 32 (s.greg 0 0) = some (coreKey 0 5 0) ∧ s.sramBad (coreKey 0 5 0) 128 = false ∧
      (s.gen 0 3 3).queue.length < 4 := by unfold Issues; decide +kernel

theorem test_wit_scalar_events :
    (let s := { scI 0 0 0 0 [] with events := [(0, ⟨2, 3⟩)] }
     s.causeOn 0 2 = true ∧ s.causeOn 0 1 = false ∧ (s.score 0).fifo.length < 16) ∧
    (let s := { scI 0 0 0 0 [] with scores := [(0, { SCore.init with fifo := List.replicate 16 ⟨2, 3⟩ })] }
     16 ≤ (s.score 0).fifo.length ∧ s.scoreLive 0 = true ∧ s.rd (.tile 0 5) Reg.scoreEstatInHandler = 0 ∧
      (s.score 0).stall = none ∧ (s.score 0).fifo ≠ [] ∧ (s.score 0).pc < 2 ^ 18 ∧ s.rd (.tile 0 5) Reg.scoreCtrlRun = 1 ∧
      CoreReady s 0 5 ∧ s.rd (.tile 0 5) Reg.scoreWdogTimeout < (s.score 0).headWait + 1000001 ∧
      (s.score 0).headWait + 0 ≤ s.rd (.tile 0 5) Reg.scoreWdogTimeout) := by unfold CoreReady; decide +kernel

theorem test_wit_scalar_fault : let s := scI 0x30 0 0 0 []
    Issues s 0 0x30 ∧ s.rd (.tile 0 5) Reg.scoreEstatInHandler = 0 ∧ 0x30 ≤ 0x30 := by unfold Issues; decide +kernel

/-- R120: SUB wraps, SLT compares with sign, SHAI keeps the sign. -/
theorem test_scalar_sub_wraps : aluResult 1 ⟨1, 3, 1, 2, 0⟩ (fun n => if n = 1 then 0 else 1) = 0xFFFFFFFF := by decide
theorem test_scalar_slt_signed : aluResult 11 ⟨11, 3, 1, 2, 0⟩ (fun n => if n = 1 then 0xFFFFFFFF else 0) = 1 := by decide
theorem test_scalar_shai : aluResult 10 ⟨10, 3, 1, 0, 31⟩ (fun _ => 0x80000000) = 0xFFFFFFFF := by decide
/-- R120: LUI then the next word: the S-core's program counter is 4 and g1 holds imm in its high half. -/
theorem test_scalar_lui : ((after (exec (.lui 0 0) (scI 14 1 0 0x1234 [])) on).score 0).regs = [(1, 0x12340000)] := by
  decide +kernel

/-! Memory: witnesses. -/

theorem test_wit_scrub :
    (let s := onW [(.pond 0, Reg.pondMemCfgPatrolEn, 1)]
     s.clocked 0 = true ∧ s.rd (.pond 0) Reg.pondMemCfgPatrolEn = 1 ∧ (s.pmemOf 0).corr.get (64 * 15 + 0) 0 ≤ 16 ∧
      16 < (s.pmemOf 0).corr.get (64 * 15 + 0) 0 + 17 ∧ 15 < 16 ∧ (s.pmemOf 0).corr.get (64 * 16 + 33) 0 ≤ 16 ∧
      16 < (s.pmemOf 0).corr.get (64 * 16 + 33) 0 + 17 ∧ (s.pmemOf 0).corr.get (64 * 16 + 33) 0 + 16 ≤ 16) := by decide

theorem test_wit_split :
    on.ctrAbsent (.pond 0) = false ∧ 4 < 5 ∧ on.inRunning 0 = false ∧ 4 ≠ on.cacheShare 0 ∧
    (let s := { on with parts := [(1, { Sys2Proof.Machine.Part.none with state := 3, sites := [(0, 0)] })] }
     s.inRunning 0 = true) ∧
    (let s := on.setPmem 0 { PondMem.init with split := true }
     s.clocked 0 = true ∧ (s.pmemOf 0).split = true ∧ (s.pmemOf 0).wbOut = 0 ∧ (s.pmemOf 0).misses = []) := by decide

/-- A FLUSH of the whole cache with a signal. -/
def aCmd : CCmd := ⟨1, false, 3, true, 0, 0, true⟩
/-- A read of the whole of line 5 by generator 0 that has all four parts. -/
def aMiss : Miss := ⟨5, 0, 32, 3, 0, 0, .buf 32 [0], [(0, 1), (1, 2), (2, 3), (3, 4)], 0⟩

theorem test_wit_cache_commands :
    (on.ctrAbsent (.pond 0) = false ∧ (on.pmemOf 0).cmd = none ∧ (on.pmemOf 0).misses = []) ∧
    (let s := on.setPmem 0 { PondMem.init with misses := [aMiss] }
     s.ctrAbsent (.pond 0) = false ∧ (s.pmemOf 0).cmd = none ∧ (s.pmemOf 0).misses.isEmpty = false) ∧
    (let s := on.setPmem 0 { PondMem.init with cmd := some aCmd }
     s.ctrAbsent (.pond 0) = false ∧ s.clocked 0 = true ∧ (s.pmemOf 0).cmd = some aCmd ∧ aCmd.swept = true ∧ (s.pmemOf 0).held = none ∧
      (s.pmemOf 0).wbOut = 0) ∧
    (let s := on.setPmem 0 { PondMem.init with
       cmd := some aCmd
       held := some aCmd }
     (s.pmemOf 0).cmd = some aCmd ∧ (s.pmemOf 0).held = some aCmd) := by decide

theorem test_wit_cache_fill :
    let s := on.setPmem 0 { PondMem.init with misses := [aMiss] }
    s.clocked 0 = true ∧ (s.pmemOf 0).misses = [aMiss] ∧ aMiss.line = 5 ∧ aMiss.parts.length = 4 ∧ aMiss.failed = 0 ∧
      aMiss.into = .buf 32 [0] ∧ (s.pmemOf 0).cmd.isNone = true ∧ ((s.cset 0 5).find 5).isNone = true := by decide

/-- FILL of one 32-byte element at scratchpad offset 0: OP 3, ESIZE 5, NDIM 1, DST in space 1, COUNT0 1. -/
def aFill : QDesc := ⟨BitVec.ofNat 1024 (3 + 5 * 2 ^ 16 + 1 * 2 ^ 24 + (2 ^ 48 + 16 * 2 ^ 23) * 2 ^ 128 + 1 * 2 ^ 192), 1, 0⟩
/-- A descriptor of no operation. -/
def aBad : QDesc := ⟨8, 1, 0⟩
/-- Pond 0's generator 0 of the A-unit at position 3. -/
def genS (l : List (UnitId × Fld × Nat)) (x : Gen) : State := (onW l).setGen 0 3 0 x
/-- The descriptor running. -/
def aRun (d : QDesc) (pos : Nat) (issued : Bool) : RunDesc := ⟨d, pos, 0, issued, [], 0, 0, false, 0, [], 0, [], 0⟩

theorem test_wit_generator_start :
    (let s := genS [(.tile 0 3, Reg.auCtrlRun, 1)] { Gen.init with queue := [aFill] }
     let x := s.gen 0 3 0
     AunitReady s 0 3 ∧ s.rd (.tile 0 3) Reg.auCtrlRun = 1 ∧ (s.rd (.tile 0 3) Reg.auStatusErr).testBit 0 = false ∧
      x.aborting = false ∧ s.withheld 0 3 = false ∧ (∀ r ∈ x.run, r.issued = true ∧ r.kind = 0) ∧ x.next = some (aFill, Gen.init) ∧
      (aFill.flag 4 = true → x.run = []) ∧ aFill.bad = false ∧ aFill.flag 5 = false ∧ aFill.op ≠ 6 ∧ aFill.op ≠ 7) ∧
    (let s := genS [(.tile 0 3, Reg.auCtrlRun, 1)] { Gen.init with queue := [aBad] }
     (s.gen 0 3 0).next = some (aBad, Gen.init) ∧ aBad.bad = true ∧ (s.gen 0 3 0).run = []) := by
  unfold AunitReady; decide +kernel

theorem test_wit_generator_request :
    let s := genS [] { Gen.init with run := [aRun aFill 0 false] }
    let d := 2 ^ 48 + 16 * 2 ^ 23
    AunitReady s 0 3 ∧ (s.gen 0 3 0).run = [aRun aFill 0 false] ∧ aFill.op = 3 ∧ aFill.total = 1 ∧
      d % aFill.esize = 0 ∧
      s.mergeRun 0 3 aFill 0 false true 0 d 32 = [(0, d)] ∧
      (∀ w ∈ blockWrites 32 [(d, 0)], s.isOwn 0 w.1 = true ∧ (s.ownAddr 0 w.1).isOk = true ∧
        s.partialBad (ownKeyAt s 0 w.1) w.2.1 = false) := by unfold AunitReady; decide +kernel

/-- The address of an element of a pattern without indices takes no read. -/
theorem elemAddr_plain (s : State) (g t : Nat) (d : QDesc) (dst : Bool) (pos : Nat) (h : d.flag (if dst then 1 else 0) = false) :
    (s.elemAddr g t d dst pos).1 = s := by
  have key : ∀ (l : List Nat) (a : State × Except Nat Int), (l.foldl (fun (a : State × Except Nat Int) (i : Nat) =>
      match a.2 with
      | .error _ => a
      | .ok x => (a.1, .ok (x + (d.idx pos i : Int) * d.sint ((if dst then 64 else 44) + 4 * i)))) a).1 = a.1 := by
    intro l
    induction l with
    | nil => intro a; rfl
    | cons i l ih =>
      intro a
      simp only [List.foldl_cons]
      rw [ih]
      split <;> rfl
  have hk := key (List.range d.ndim) (s, .ok ((d.f (if dst then 16 else 8) 8 : Nat) : Int))
  unfold State.elemAddr
  simp only [h, Bool.false_and, Bool.false_eq_true, if_false]
  split
  · exact hk
  · split <;> exact hk

theorem ok_of {x : Except Nat Nat} {n : Nat} (h : x.toOption = some n) : x = .ok n := by cases x <;> simp_all [Except.toOption]

theorem test_wit_generator_addr :
    let s := genS [] { Gen.init with run := [aRun aFill 0 false] }
    s.elemAddr 0 3 aFill true 0 = (s, .ok (2 ^ 48 + 16 * 2 ^ 23)) :=
  Prod.ext (elemAddr_plain _ 0 3 aFill true 0 (by decide +kernel)) (ok_of (by decide +kernel))

theorem test_wit_generator_control :
    (let s := genS [] { Gen.init with run := [aRun aFill 1 true] }
     AunitReady s 0 3 ∧ NoBatch s 0 3 ∧ (s.gen 0 3 0).run = [aRun aFill 1 true] ∧ aFill.f 104 8 = 0 ∧ s.ctrAbsent (.tile 0 3) = false ∧
      s.auIdle 0 3 = false) ∧ on.auIdle 0 3 = true ∧ on.rd (.tile 0 3) Reg.auStatusErr < 16 := by
  unfold AunitReady NoBatch; decide +kernel

/-- A READ of 32 bytes of field 0's DRAM by tile 0 of pond 0. -/
def aRead : Packet := mkPacket 0 false false false 31 0 (srcTile 0 0 0 0) 64 0 0
/-- A WRITE of 32 bytes. -/
def aWrite : Packet := mkPacket 1 false false false 31 1 (srcTile 0 0 0 0) 128 0 9

theorem test_wit_dram :
    let s := on.setDram 0 { DramSt.init with queue := [aRead, aWrite] }
    (s.dram 0).queue[0]? = some aRead ∧ (s.dram 0).queue[1]? = some aWrite ∧ aRead.typ = 0 ∧ aWrite.typ = 1 ∧
      s.dramStopped 0 = false ∧ (∀ q ∈ (s.dram 0).queue.eraseIdx 0, burstOf q ≠ burstOf aRead) ∧
      (∀ q ∈ (s.dram 0).queue.eraseIdx 1, burstOf q ≠ burstOf aWrite) ∧
      (s.dram 0).dead.testBit ((s.dram 0).chan (dramOff aRead.dest)) = false ∧
      s.dramBad (dramKey 0 (dramOff aRead.dest / 64 * 64)) 64 = false ∧ s.dramBad (dramKey 0 (dramOff aRead.dest)) (aRead.len + 1) = false ∧
      dRank (destOfSrc aRead.src) = s.rank ∧ dSpace (destOfSrc aRead.src) ≠ 8 := by decide +kernel

theorem test_wit_dram_states :
    (let s := onW [(.dram 0, Reg.dramPatrolEn, 1)]
     s.rd (.dram 0) Reg.dramPatrolEn = 1 ∧ s.dramStopped 0 = false ∧ s.dramBad (dramKey 0 0) 64 = false ∧
      s.rd (.dram 0) Reg.dramThermState = 0 ∧ (s.dram 0).dead.testBit 31 = false ∧ (s.dram 0).chans.testBit 31 = true) ∧
    (let s := (onW [(.dram 0, Reg.dramThermState, 3)]).setDram 0 { DramSt.init with queue := [aRead] }
     s.dramStopped 0 = true ∧ ∀ p ∈ (s.dram 0).queue, Local s p) := by unfold Local; decide +kernel

/-- R158: at 105 °C, 420 quarter degrees, the stack is Stopped. -/
theorem test_dram_stopped : (after (exec (.dramState 0 420) on) on).rd (.dram 0) Reg.dramThermState = 3 := by decide +kernel

/-! Traffic, queues, steering units and springs: witnesses. -/

/-- `on` with partition 1 running on pond 0. -/
def partS : State := { on with parts := [(1, { Sys2Proof.Machine.Part.none with
  state := 3
  sites := [(0, 0)] })] }
/-- A packet at a router of pond 0's tile t, its only one. -/
def arrive (s : State) (t : Nat) (p : Packet) : State := { s with net := { s.net with flights := [⟨p, .router t 4, 0, 0⟩] } }
/-- The same at field 0's crossbar. -/
def atF (s : State) (p : Packet) : State := { s with net := { s.net with flights := [⟨p, .strip 0, 0, 0⟩] } }
/-- A request of strip unit 0 of field 0. -/
def fromStrip (typ dest len : Nat) (v : BitVec 256) : Packet := mkPacket typ true false false len 0 (srcStrip 0 0 0) dest 0 v
/-- A request of tile 0 of pond 0. -/
def fromTile (typ dest len : Nat) (v : BitVec 256) : Packet := mkPacket typ true false false len 0 (srcTile 0 0 0 0) dest 0 v
/-- Core local memory of tile 0, offset o. -/
def coreA (o : Nat) : Nat := 2 ^ 49 + o

theorem test_wit_target_memory :
    (let p := fromStrip 0 (coreA 0) 31 0
     Arrives (arrive on 0 p) 0 0 0 0 p ∧ dSpace p.dest = 2 ∧ (arrive on 0 p).tileKind 0 p false = 0 ∧
      (arrive on 0 p).sramBad (tileKey p.dest) 32 = false) ∧
    (let p := fromStrip 1 (2 ^ 48 + 16 * 2 ^ 23) 0 5
     Arrives (arrive on 5 p) 0 1 0 5 p ∧ dSpace p.dest = 1 ∧ (arrive on 5 p).tileKind 0 p true = 0 ∧
      (arrive on 5 p).partialBad (tileKey p.dest) 1 = false) := by unfold Arrives Local; decide +kernel

theorem test_wit_target_refuses :
    (let p := fromTile 0 (coreA 0) 31 0
     Arrives (arrive on 0 p) 0 0 0 0 p ∧ (arrive on 0 p).tileKind 0 p false = 4) ∧
    (let p := fromTile 1 (2 ^ 48 + 16 * 2 ^ 23 + 2 ^ 22) 31 0
     let s := arrive (partS.wr (.pond 0) Reg.pondMemCfgCacheMib 4) 5 p
     Arrives s 0 1 0 5 p ∧ s.tileKind 0 p true = 1) ∧
    (let p := fromTile 2 (queueDest 0 0 0 0 false) 31 0
     Arrives (arrive on 0 p) 0 2 0 0 p ∧ (arrive on 0 p).granted p.src 0 2 = false) ∧
    (let p := fromTile 3 (springAddr 0 0 0) 31 0
     Arrives (arrive on 5 p) 0 3 0 5 p ∧ (arrive on 5 p).granted p.src 0 3 = false) := by unfold Arrives Local; decide +kernel

theorem test_wit_queue_arrival :
    let p := fromTile 2 (queueDest 0 0 0 7 true) 31 0
    let s := arrive partS 0 p
    let s' := arrive (put partS 0 false 7 (List.replicate 8 ⟨false, 0⟩)) 0 p
    Arrives s 0 2 0 0 p ∧ s.granted p.src 0 2 = true ∧ (∀ n, n < 4 → s.steerOn 0 0 n 4 = false) ∧ dQueue p.dest = 7 ∧
      Room (inQ s 0 0 7) 1 ∧ Arrives s' 0 2 0 0 p ∧ Full s' 0 0 false 7 := by
  unfold Arrives Local Room Full; decide +kernel

theorem test_wit_racc : let p := fromTile 4 64 0 0
    let s := atF on p
    s.atStrip 0 = some (0, p) ∧ p.typ = 4 ∧ p.malformed = false ∧ dSpace p.dest = 0 ∧ Local s p ∧ (s.dram 0).queue = [] ∧
      64 + 32 ≤ (s.dram 0).usable ∧ s.dramReadOnly 0 64 32 = false ∧ s.dramStopped 0 = false ∧
      (s.dram 0).dead.testBit ((s.dram 0).chan 64) = false ∧ s.dramBad (dramKey 0 (64 / 64 * 64)) 64 = false ∧
      s.dramBad (dramKey 0 64) 32 = false ∧ Ecc.corrected ≠ .uncorrectable := by unfold Local; decide +kernel

theorem test_wit_signal :
    (let p := fromStrip 3 (springAddr 0 0 63) 31 7
     Arrives (arrive on 5 p) 0 3 0 5 p ∧ (arrive on 5 p).granted p.src 0 3 = true ∧ srcIsStrip p.src = true) ∧
    (let p := fromTile 3 (springAddr 0 0 0) 31 7
     let s := arrive partS 5 p
     Arrives s 0 3 0 5 p ∧ s.granted p.src 0 3 = true ∧ srcIsStrip p.src = false ∧ p.counted = false ∧
      (∀ e ∈ s.arrTab 0, e.src ≠ p.src) ∧ (s.arrTab 0).length < 16) ∧
    (let e : ArrEnt := ⟨9, 2, 0, some ⟨3, 5, 2, false, 0⟩⟩
     let s := { on with arrivals := [(0, [e])] }
     s.clocked 0 = true ∧ s.arrTab 0 = [e] ∧ 2 ≤ e.cnt false) ∧
    (let p := fromTile 7 (springAddr 0 0 0) 31 0
     Arrives (arrive on 5 p) 0 7 0 5 p) := by unfold Arrives Local; decide +kernel

theorem test_wit_springs :
    on.ctrAbsent (.pond 0) = false ∧ (on.spring 0 63).count < 2 ^ 32 ∧
    (let w : Waiter := ⟨0, .queue 0 false 0, 5, false, 0⟩
     let s := { on with waiters := [w] }
     s.clocked 0 = true ∧ NoBatch s 0 0 ∧ s.waiters = [w] ∧ w.spring < 64 ∧ (s.spring 0 5).next = none ∧ (s.spring 0 5).thresh ≤ (s.spring 0 5).count ∧
      ((s.setSpring 0 5 ⟨2, 3, false, 0, none⟩).spring 0 5).count < ((s.setSpring 0 5 ⟨2, 3, false, 0, none⟩).spring 0 5).thresh)
    := by unfold NoBatch; decide

theorem test_wit_queue_moves :
    (let s := on.setQueue (queueKey 0 0 false 0) ⟨[], 0, 1, 0, 0, []⟩
     s.clocked 0 = true ∧ NoBatch s 0 0 ∧ (s.queue (queueKey 0 0 false 0)).hw.length < 8 ∧ (s.queue (queueKey 0 0 false 0)).l1n ≠ 0 ∧
      s.sramBad (s.l1Key 0 0 false 0 + windowOff 0) 32 = false ∧ s.sramBad (s.l1Key 0 0 false 0 + windowFlag 0) 32 = false) ∧
    (let e : QEnt := ⟨true, 1⟩
     let s := put on 0 false 0 [e]
     s.clocked 0 = true ∧ NoBatch s 0 0 ∧ (s.queue (queueKey 0 0 false 0)).hw = [e] ∧ e.isWait = true ∧ s.waitForwards 0 0 false 0 e = false ∧
      (∀ w ∈ s.waiters, w.at 0 0 false 0 = false)) ∧
    (let w : Waiter := ⟨0, .queue 0 false 0, 5, false, 0⟩
     let s := { onW [(.pond 0, Reg.pondSprCfgWaitLimit, 1)] with waiters := [w] }
     s.clocked 0 = true ∧ NoBatch s 0 0 ∧ s.waiters.find? (fun w => w.at 0 0 false 0) = some w ∧ s.rd (.pond 0) Reg.pondSprCfgWaitLimit ≠ 0 ∧
      s.rd (.tile 0 0) Reg.rtrQstatWaitTmo < 2 ^ 16) := by unfold NoBatch; decide +kernel

theorem test_wit_oq_send :
    let s := put (on.wri (.tile 0 0) Reg.rtrQdestValid 0 1) 0 true 0 [⟨false, 5⟩]
    s.clocked 0 = true ∧ (outQ s 0 0 0).hw = [⟨false, 5⟩] ∧ (⟨false, 5⟩ : QEnt).isWait = false ∧ s.rdi (.tile 0 0) Reg.rtrQcollEn 0 = 0 ∧ s.oqDest 0 0 0 = some (queueDest 0 0 0 0 false) ∧
      (∀ r, r < 8 → r ≠ 0 → (outQ s 0 0 r).hw = []) ∧ (∀ n, n < 4 → s.steerOn 0 0 n 4 = false) ∧
      s.entryKind (srcTile 0 0 0 0) 2 (queueDest 0 0 0 0 false) = 0 ∧ (s.senderTab (srcTile 0 0 0 0)).length < 8 ∧
      (∀ x ∈ s.senderTab (srcTile 0 0 0 0), x.rel = false) ∧
      s.portRoom (srcTile 0 0 0 0) 2 (decide (s.rdi (.tile 0 0) Reg.rtrQdestUnord 0 = 0)) = true := by decide +kernel

/-- Unit 0 of tile 0 with function f, CIN queue 1, DIN queue 0, output queue 0. -/
def unitS (f : Nat) (l : List QEnt) : State :=
  put ((((on.wri (.tile 0 0) Reg.rtrSteerFunc 0 f).wri (.tile 0 0) Reg.rtrSteerCin 0 1).wri (.tile 0 0) Reg.rtrSteerOut 0 8).wri
    (.tile 0 0) Reg.rtrSteerOutMask 0 255) 0 false 1 l

theorem test_wit_steering : ∀ f : Fin 3,
    (let e : QEnt := ⟨true, mkToken (f + 2) 0 1 0 0⟩
     let s := put (unitS (f + 1) [e]) 0 false 0 [⟨false, 5⟩]
     s.clocked 0 = true ∧ NoBatch s 0 0 ∧ s.steerOn 0 0 0 (f + 1) = true ∧ (s.steer 0 0 0).left = 0 ∧ s.headOf 0 0 false 1 = some e ∧
      s.steerBad 0 0 0 (f + 1) e = false ∧ tokCount e.data ≠ 0 ∧
      (s.headOf 0 0 false (s.steerData 0 0 0 (f + 1) e.data)).isSome = true ∧ (tokFlags e.data).testBit 1 = false ∧
      s.steerBad 0 0 0 (f + 1) ⟨false, 0⟩ = true) ∧
    (let s := (put (unitS (f + 1) []) 0 false 0 [⟨false, 5⟩]).setSteer 0 0 0 { Steer.idle with
       left := 1
       token := mkToken (f + 2) 0 1 (if (f : Nat) = 2 then 1 else 0) 0 }
     let x := s.steer 0 0 0
     NoBatch s 0 0 ∧ s.steerOn 0 0 0 (f + 1) = true ∧ x.left ≠ 0 ∧ s.headOf 0 0 false (s.steerData 0 0 0 (f + 1) x.token) = some ⟨false, 5⟩ ∧
      ((f : Nat) = 2 → (tokArg x.token).testBit 0 = true) ∧ s.steerOut 0 0 0 = (true, 0) ∧ Room (outQ s 0 0 0) 1 ∧
      s.steerData 0 0 0 (f + 1) x.token < 8) ∧ (tokArg (mkToken 4 0 1 0 0)).testBit 0 = false := by
  unfold Room NoBatch; decide +kernel

theorem test_wit_batch :
    let s := ((((unitS 4 []).wri (.tile 0 0) Reg.rtrSteerLen 0 1).wri (.tile 0 0) Reg.rtrSteerItems 0 2).wr (.tile 0 0)
      Reg.mcoreCtrlRun 1).setSteer 0 0 0 { Steer.idle with held := [⟨false, 5⟩] }
    let x := s.steer 0 0 0
    s.clocked 0 = true ∧ s.steerOn 0 0 0 4 = true ∧ s.tileRun 0 0 = true ∧ x.run = [] ∧ x.owed = false ∧ x.due = false ∧
      s.batchLen 0 0 0 = 1 ∧ 0 < x.held.length / 1 ∧ x.held.length / 1 < s.rdi (.tile 0 0) Reg.rtrSteerItems 0 ∧
      s.headOf 0 0 false (s.rdi (.tile 0 0) Reg.rtrSteerDin 0) = none ∧ s.steerOut 0 0 0 = (true, 0) ∧
      Room (outQ s 0 0 0) 2 := by unfold Room; decide +kernel

/-- A request of pond 0's S-core that waits, and the answer to it of type typ. -/
def asked (typ atyp : Nat) (w : Purpose) : State :=
  let src := srcTile 0 0 5 0
  let s := arrive on 5 (mkPacket atyp true false false 3 0 (srcTile 0 0 0 0) (destOfSrc src) 0 1)
  { s with
    net := { s.net with outst := [⟨src, 0, coreA 0, w, 1, typ, false⟩] }
    scores := [(0, { SCore.init with stall := some (.load 1 4 false 0) })]
    senders := [(senderKey src, [⟨0, false, false, false, 0, 0, true, 0, false⟩])] }

theorem test_wit_answers :
    (∀ x : Fin 4,
      let s := asked ([0, 1, 1, 3].getD x 0) (8 + x) (if (x : Nat) = 0 then .sload 1 4 false else if (x : Nat) = 3 then .ssig else .spost)
      let o := s.net.outst.headD ⟨0, 0, 0, .spost, 0, 0, false⟩
      let p := (s.net.flights.headD ⟨aRead, .strip 0, 0, 0⟩).pkt
      Returns s 0 (8 + x) 0 o p ∧ o.tab = false ∧ p.payload.toNat % 65536 = 1 ∧
        (s.score 0).stall = some (.load 1 4 false 0) ∧ (s.score 0).pc < 2 ^ 18 ∧
        (s.senderTab o.src).map (fun e => e.dest) = [pondDest o.dest]) := by unfold Returns; decide +kernel

theorem test_wit_contexts :
    let s := { partS with parts := [(1, { Sys2Proof.Machine.Part.none with
      state := 5
      sites := [(0, 0)] })] }
    let x := s.parts.get 1 Sys2Proof.Machine.Part.none
    x.state = 5 ∧ s.drained 1 = true ∧ (x.sites.map (fun y => y.1)).Nodup ∧ x.sites = [(0, 0)] ∧
      s.img.seals = [] ∧ (∀ y ∈ x.sites, let a := x.saveBase % 2 ^ 48 + 77824 * y.1
        s.dramReadOnly (a / 2 ^ 37) (a % 2 ^ 37) (s.pondCtx y.2).bytes = false) ∧
      (after (exec (.scanOut 1) s) s).saved.length = 1 ∧
      ((after (exec (.scanOut 1) s) s).saved.find? (fun e => decide (e.1 = 16384 * 1 + 0))).isSome = true := by decide +kernel

/-! The host interface: witnesses. -/

/-- A command of slot 0, generation 1, with argument bytes as a number from byte 16 on. -/
def hc (op part args : Nat) (launched : Bool) : HCmd :=
  ⟨0, 1024, op, false, 0, part, 0, BitVec.ofNat 2048 (op + part * 2 ^ 32 + args * 2 ^ 128), launched, false, false, 0, 0, 0, 0, 0, 0⟩
/-- `on` with that command accepted, the log enabled and Bus Master Enable set. -/
def cmdS (s : State) (c : HCmd) : State := { s.wr .hub Reg.hubCtrlClogEn 1 with hub := { HubSt.init with
  busMaster := true
  cmds := [c] } }

theorem accepted_of {s : State} {slot op : Nat} {c : HCmd}
    (h : s.command slot op = some c ∧ c.slot = slot ∧ c.handle % 1024 = slot ∧ s.hub.cmds = [c]) : Accepted s slot op c :=
  ⟨h.1, h.2.1, h.2.2.1, [], [], h.2.2.2, by simp⟩

theorem quiet_of {s : State} (h : s.hubOn = true ∧ s.hub.held = [] ∧ s.hub.lost = 0) : HubQuiet s := h

theorem test_wit_submit :
    (let s := cmdS on (hc 0 255 0 true)
     s.hubOn = true ∧ s.cmdAt 0 = some (hc 0 255 0 true) ∧ s.cmdAt 1023 = none) ∧
    (let s := { on.wr .hub Reg.hubCtrlClogEn 1 with hub := { HubSt.init with slots := [(4, 0xFF)] } }
     s.hubOn = true ∧ s.cmdAt 0 = none ∧ s.slotRaw 0 = BitVec.ofNat 2048 (0xFF * 2 ^ 32) ∧
      s.rd .hub Reg.hubCtrlClogEn = 1 ∧ on.rd .hub Reg.hubCtrlClogEn = 0) ∧
    (let c : HCmd := ⟨0, 0, 0x14, false, 0, 0, 0, 0x14, false, false, false, 0, 0, 0, 0, 0, 0⟩
     on.refusal c = 2) := by decide +kernel

theorem test_wit_nop : let c := hc 0 255 0 false
    HubQuiet (cmdS on c) ∧ Accepted (cmdS on c) 0 0 c :=
  ⟨quiet_of (by decide +kernel), accepted_of (by decide +kernel)⟩

theorem test_wit_system : let c := hc 1 255 0x4000 false
    Accepted (cmdS on c) 0 1 c ∧ c.f 16 1 = 0 ∧ c.f 17 1 = 64 := ⟨accepted_of (by decide +kernel), by decide +kernel⟩

theorem test_wit_host_signal : let c := hc 0x0A 255 (springAddr 0 0 63 + 2 ^ 64) false
    Accepted (cmdS on c) 0 0x0A c ∧ c.launched = false ∧ c.f 16 8 = springAddr 0 0 63 ∧
      (cmdS on c).entryKind ((cmdS on c).hubSrc (springAddr 0 0 63)) 3 (springAddr 0 0 63) = 0 ∧ (cmdS on c).rank < 64 :=
  ⟨accepted_of (by decide +kernel), by decide +kernel⟩

theorem test_wit_wait_hub : let c := hc 9 255 (63 + 2 * 2 ^ 32) true
    let s := (cmdS on c).wri .hub Reg.hubHsprCount 63 2
    Accepted s 0 9 c ∧ c.f 16 1 = 63 ∧ c.passed = false ∧ c.f 20 4 ≤ s.rdi .hub Reg.hubHsprCount 63 ∧
      (∀ x ∈ s.hub.cmds, x.slot ≠ 0 → ∀ thr, x.waitsOn ≠ some (63, thr)) :=
  ⟨accepted_of (by decide +kernel), by decide +kernel, by decide +kernel, by decide +kernel, by
    intro x hx h; exact absurd (by simp_all [cmdS, hc, State.wri]) h⟩

theorem test_wit_power : let c := hc 0x0C 255 (25000 + 500 * 2 ^ 32) false
    Accepted (cmdS on c) 0 0x0C c ∧ c.launched = false ∧
    (let d := { hc 0x0C 255 (6000 + 1 * 2 ^ 32) true with stage := 2 }
     Accepted (cmdS on d) 0 0x0C d ∧ d.stage = 2 ∧ 6000 ≤ d.f 16 4) :=
  ⟨accepted_of (by decide +kernel), rfl, accepted_of (by decide +kernel), rfl, by decide +kernel⟩

theorem test_wit_seal : let c := hc 0x0B 255 (64 * 2 ^ 64 + 64 * 2 ^ 192) false
    let s := cmdS on c
    Accepted s 0 0x0B c ∧ s.ownAddrOk (c.f 16 8) 0 = true ∧ c.f 16 8 % 2 ^ 37 + c.f 24 8 ≤ (s.dram (dField (c.f 16 8))).usable ∧
      s.dramStopped 0 = false ∧ s.dramLost 0 0 64 false = false ∧ (s.img.seals.get 0 []).length < 64 ∧ s.hostWrites = true ∧
      s.waferOn = true ∧ LogOpen s = true ∧ entryAt s (s.rd .hub Reg.hubClogTailTail) + 32 ≤ c.f 40 8 :=
  ⟨accepted_of (by decide +kernel), by decide +kernel⟩

/-- A DMA of 64 bytes between host address 0 and field 0's DRAM, launched, its wait passed. -/
def dmaC (op : Nat) : HCmd := { hc op 255 (64 * 2 ^ 64) true with passed := true }

theorem test_wit_dma :
    (∀ op : Fin 2, (let c := dmaC (7 + op)
      let s := cmdS on c
      (s.command 0 (7 + op) = some c ∧ c.slot = 0 ∧ c.handle % 1024 = 0 ∧ s.hub.cmds = [c]) ∧ c.launched = true ∧
      c.passed = true ∧ c.kind = 0 ∧ 32 * c.issued < c.f 24 8 ∧ (c.f 60 1).testBit 0 = false ∧ s.hub.busMaster = true ∧ s.rank < 64 ∧
      (c.f 60 1).testBit 1 = false ∧ s.entryKind (s.hubSrc 0) 1 0 = 0 ∧ s.entryKind (s.hubSrc 0) 0 0 = 0 ∧ s.hostWrites = true) ∧
     (let c := { dmaC (7 + op) with issued := 2 }
      let s := cmdS on c
      (s.command 0 (7 + op) = some c ∧ c.slot = 0 ∧ c.handle % 1024 = 0 ∧ s.hub.cmds = [c]) ∧ c.launched = true ∧ c.outst = 0 ∧
      c.kind = 0 ∧ c.f 24 8 ≤ 32 * c.issued ∧ (c.f 60 1).testBit 3 = false) ∧
     (let c := { dmaC (7 + op) with kind := 3 }
      let s := cmdS on c
      (s.command 0 (7 + op) = some c ∧ c.slot = 0 ∧ c.handle % 1024 = 0 ∧ s.hub.cmds = [c]) ∧ c.launched = true ∧ c.outst = 0 ∧
      c.kind ≠ 0)) := by decide +kernel

/-- A DMA_IN into a queue. -/
theorem test_wit_dma_queue : let c := { hc 7 255 (64 * 2 ^ 64 + queueDest 0 0 0 0 false * 2 ^ 128 + 2 * 2 ^ 352) true with passed := true }
    let s := cmdS on c
    Accepted s 0 7 c ∧ (c.f 60 1).testBit 1 = true ∧ c.f 32 8 = queueDest 0 0 0 0 false ∧
      s.entryKind (s.hubSrc (c.f 32 8)) 2 (c.f 32 8) = 0 := ⟨accepted_of (by decide +kernel), by decide +kernel⟩

theorem test_wit_host_window :
    let s0 := ((on.wr .hub Reg.hubCtrlClogEn 1).wri .hub Reg.hubHwinSizeSize 14 1)
    ∀ x : Fin 3,
      let p := mkPacket (if (x : Nat) = 0 then 0 else 1) true false false 31 0 (srcTile 0 0 0 0)
        (2 ^ 51 + (if (x : Nat) = 2 then 15 * 2 ^ 44 + 32 * 63 else 14 * 2 ^ 44 + 4064)) 19 9
      let s := { s0 with
        net := { s0.net with flights := [⟨p, .strip 19, 0, 0⟩] }
        hub := { HubSt.init with busMaster := true } }
      s.atBridge 0 = some (19, p) ∧ p.malformed = false ∧ [19, 20, 27, 28].contains 19 = true ∧ s.hostWrites = true ∧ Local s p ∧
        ((x : Nat) ≠ 2 → p.dest / 2 ^ 44 % 16 = 14 ∧ p.dest % 2 ^ 44 + p.len + 1 ≤ s.rdi .hub Reg.hubHwinSizeSize 14 * 4096) ∧
        ((x : Nat) = 2 → p.dest / 2 ^ 44 % 16 = 15 ∧ p.dest % 2 ^ 44 = 32 * 63) := by unfold Local; decide +kernel

theorem test_wit_apertures :
    on.hubOn = true ∧ (47 < 48 ∧ 287 < 288) ∧ on.waferOn = true ∧ on.goodPond 0 = true ∧ on.lakeGone (lakeOf 0) = false ∧
    on.csrFailed 0 15 (8 * 511) = false ∧ ({ on with factory := { DMap.good with lake := [(0, 1)] } }).goodPond 0 = false ∧
    (2 ^ 36 - 8 + 8 ≤ 2 ^ 36 ∧ 2 ^ 36 - 8 + 8 ≤ (on.dram 0).usable) ∧ on.dramStopped 0 = false ∧
    on.dramLost 0 (2 ^ 36 - 8) 8 false = false ∧ on.dramReadOnly 0 (2 ^ 36 - 8) 8 = false ∧
    (let s := on.wr .hub Reg.hubBar2BaseBase 1
     (s.dram 0).usable < s.rd .hub Reg.hubBar2BaseBase % 2 * 2 ^ 36 + (2 ^ 36 - 8) + 8) ∧
    ({ on with img := { ImgSt.init with staged := [⟨0, 4096, 0, 0⟩] } }).dramReadOnly 0 4088 8 = true := by decide +kernel

theorem test_wit_host_log : HubQuiet on ∧ on.rd .hub Reg.hubCtrlClogEn = 0 ∧
    (let h := on.rd .hub Reg.hubClogHeadHead
     let n := on.rd .hub Reg.hubClogTailTail
     (0 + 2 ^ 32 - h) % 2 ^ 32 ≤ (n + 2 ^ 32 - h) % 2 ^ 32 ∧ (n + 2 ^ 32 - h) % 2 ^ 32 < (1 + 2 ^ 32 - h) % 2 ^ 32) :=
  ⟨quiet_of (by decide +kernel), by decide +kernel⟩

/-! Partitions: witnesses. -/

/-- Partition 1 on pond 0 in a state, with further fields. -/
def pt (state : Nat) : Part := { Sys2Proof.Machine.Part.none with
  state := state
  sites := [(0, 0)] }
/-- `on` with it. -/
def pS (p : Part) : State := { on with parts := [(1, p)] }

theorem test_wit_start :
    (let c := hc 3 1 0 false
     let s := cmdS (pS (pt 1)) c
     Accepted s 0 3 c ∧ s.hubOn = true ∧ (c.f 16 1).testBit 0 = false ∧ c.launched = false ∧
      (s.parts.get 1 Sys2Proof.Machine.Part.none).state = 1 ∧ s.unplaced 1 = false ∧ s.collMismatch 1 = false ∧
      (∀ g ∈ s.pondsOf 1, (s.pmemOf g).split = false)) ∧
    (let c := hc 3 1 0 true
     let s := { cmdS (pS { pt 2 with drained := true }) c with tests := [(0, { PTest.none with passed := 1 })] }
     Accepted s 0 3 c ∧ c.launched = true ∧ (s.parts.get 1 Sys2Proof.Machine.Part.none).state = 2 ∧
      (s.parts.get 1 Sys2Proof.Machine.Part.none).drained = true ∧
      (∀ x ∈ (s.parts.get 1 Sys2Proof.Machine.Part.none).sites, s.warmOk x.2 = true)) ∧
    (let c := hc 3 1 1 false
     let s := cmdS (pS (pt 5)) c
     Accepted s 0 3 c ∧ (c.f 16 1).testBit 0 = true ∧ (s.parts.get 1 Sys2Proof.Machine.Part.none).state = 5 ∧
      (s.parts.get 1 Sys2Proof.Machine.Part.none).faultCode = 0) :=
  ⟨⟨accepted_of (by decide +kernel), by decide +kernel⟩, ⟨accepted_of (by decide +kernel), by decide +kernel⟩,
    accepted_of (by decide +kernel), by decide +kernel⟩

theorem test_wit_end :
    (let c := hc 4 1 0 false
     HubQuiet (cmdS (pS (pt 3)) c) ∧ Accepted (cmdS (pS (pt 3)) c) 0 4 c ∧ (pt 3).state = 3 ∧ (pt 3).spe = false) ∧
    (let c := hc 4 1 0 true
     let p := { pt 4 with
       draining := true
       drained := true }
     Accepted (cmdS (pS p) c) 0 4 c ∧ p.state ≠ 0 ∧ p.draining = true ∧ p.drained = true) ∧
    (∀ v : Fin 2, let c := hc 5 1 v true
     let p := { pt 7 with
       draining := true
       drained := true }
     let s := cmdS (pS p) c
     (s.command 0 5 = some c ∧ c.slot = 0 ∧ c.handle % 1024 = 0 ∧ s.hub.cmds = [c]) ∧ p.state = 7 ∧ p.draining = true ∧
      (∀ x ∈ p.sites, let a := p.saveBase % 2 ^ 48 + 77824 * x.1
        s.dramReadOnly (a / 2 ^ 37) (a % 2 ^ 37) (s.pondCtx x.2).bytes = false) ∧
      p.drained = true ∧ (c.f 16 1).testBit 0 = decide ((v : Nat) = 1)) ∧
    (let c := hc 6 1 0 false
     Accepted (cmdS (pS (pt 3)) c) 0 6 c ∧ (c.f 16 1).testBit 0 = false) ∧
    (∀ v : Fin 2, let c := hc 6 1 v true
     let p := { pt 8 with drained := true }
     let s := (cmdS (pS p) c).wr .hub Reg.hubClogTailTail 4096
     (s.command 0 6 = some c ∧ c.slot = 0 ∧ c.handle % 1024 = 0 ∧ s.hub.cmds = [c]) ∧ p.state = 8 ∧ p.drained = true ∧
      (c.f 16 1).testBit 0 = decide ((v : Nat) = 1) ∧ LogOpen s = false ∧ s.hostWrites = true ∧ (∀ x ∈ p.sites, x.2 < numPonds)) :=
  ⟨⟨quiet_of (by decide +kernel), accepted_of (by decide +kernel), rfl, rfl⟩,
    ⟨accepted_of (by decide +kernel), by decide, rfl, rfl⟩, by decide +kernel,
    ⟨accepted_of (by decide +kernel), by decide +kernel⟩, by decide +kernel⟩

theorem test_wit_part_events :
    ({ on with closed := [15] }).closed.contains (16 * 0 + 15) = true ∧
    ((pS { pt 3 with draining := true }).parts.get 1 Sys2Proof.Machine.Part.none).draining = true ∧
    (let p := { pt 3 with recStep := 1 }
     p.recStep = 1 ∧ p.state = 3) ∧
    (let p := { pt 6 with
       recStep := 2
       drained := true }
     p.recStep = 2 ∧ p.state = 6 ∧ p.drained = true ∧ p.again = false) ∧
    (63 ≠ on.rank ∧ ∀ e ∈ on.parts, on.namesPart e.1 1 (some 63) (fun _ => true) = false) := by decide +kernel

theorem test_wit_load :
    (let c := hc 2 255 0 false
     let s := cmdS on c
     HubQuiet s ∧ Accepted s 0 2 c ∧ c.stage = 0 ∧ c.f 24 8 = 0 ∧ c.launched = false ∧ (∀ x ∈ s.hub.cmds, x.op = 2 → x.slot ≠ 0 → x.done = true) ∧
      (∀ e ∈ s.parts, e.2.recStep ≠ 5 ∧ e.2.recStep ≠ 7)) ∧
    (let c := hc 2 255 0 false
     let d := { hc 2 255 0 true with slot := 1, handle := 1025 }
     let s := { cmdS on c with hub := { HubSt.init with cmds := [d, c] } }
     HubQuiet s ∧ s.command 0 2 = some c ∧ s.hub.cmds = [d] ++ c :: [] ∧ (∀ x ∈ [d] ++ [], x.slot ≠ 0) ∧ c.stage = 0 ∧
      (∃ x ∈ s.hub.cmds, x.op = 2 ∧ x.launched = true ∧ x.done = false)) ∧
    (let c := { hc 2 255 0 true with stage := 2 }
     let s := cmdS on c
     Accepted s 0 2 c ∧ c.stage = 2 ∧ s.outgoing (c.f 16 8 % 2 ^ 48) = []) :=
  ⟨⟨quiet_of (by decide +kernel), accepted_of (by decide +kernel), by decide +kernel⟩,
    ⟨quiet_of (by decide +kernel), by decide +kernel⟩, accepted_of (by decide +kernel), by decide +kernel⟩

/-- An image with one fix-up section of partition 1 that names a pond of another rank's partition 0: nothing has been exported. -/
theorem test_wit_unplaced : let c := hc 3 1 0 false
    let s := { cmdS (pS (pt 1)) c with
      mem := [(0x28, 1), (0x100, 5), (0x102, 1), (0x108, 0x40), (0x109, 1), (0x110, 16), (0x118, 1), (0x148, 1)] }
    HubQuiet s ∧ Accepted s 0 3 c ∧ c.launched = false ∧ (pt 1).state = 1 ∧ s.unplaced 1 = true :=
  ⟨quiet_of (by decide +kernel), accepted_of (by decide +kernel), by decide +kernel⟩

/-! Bring-up, supplies and power states: witnesses. -/

/-- `on` in power state n, with register fields and the power controller's own state. -/
def pw (n : Nat) (l : List (UnitId × Fld × Nat)) (p : PowerSt) : State :=
  { onW ((.hub, Reg.svcPwrStatState, n) :: l) with pwr := p }

theorem test_wit_bringup :
    (let c := hc 0x0D 255 0 false
     let s := cmdS on c
     s.hubOn = true ∧ Accepted s 0 0x0D c ∧ c.isCold = false ∧ s.power = 4 ∧ c.launched = false ∧
      s.rd .hub Reg.svcBringupStatPath = 0) ∧
    (let c := hc 0x0D 255 0 true
     let s := cmdS (on.wr .hub Reg.svcBringupStatStep 7) c
     Accepted s 0 0x0D c ∧ c.launched = true ∧ s.rd .hub Reg.svcBringupStatStep = 7 ∧ s.lakeState 0 ≠ 4) ∧
    (let s := pw 3 [(.hub, Reg.svcBringupStatStep, 2)] PowerSt.init
     s.power = 3 ∧ s.rd .hub Reg.svcBringupStatStep = 2) ∧
    (pw 3 [(.hub, Reg.svcBringupStatStep, 7)] PowerSt.init).rd .hub Reg.svcBringupStatStep = 7 ∧
    (let c := hc 0x0D 255 1 false
     let s := cmdS on c
     Accepted s 0 0x0D c ∧ c.isCold = true ∧ s.mayStart c = true) :=
  ⟨⟨by decide +kernel, accepted_of (by decide +kernel), by decide +kernel⟩, ⟨accepted_of (by decide +kernel), by decide +kernel⟩,
    by decide +kernel, by decide +kernel, accepted_of (by decide +kernel), by decide +kernel⟩

theorem test_wit_power_states :
    (let s := pw 1 [(.hub, Reg.svcPwrStatMainOk, 1)] PowerSt.init
     s.hubOn = true ∧ s.power = 1 ∧ s.rd .hub Reg.svcPwrStatMainOk = 1 ∧ s.pwr.mapOk = true ∧ s.trust.recovery = false ∧
      s.rd .hub Reg.svcPwrCtrlAutoOn = 1 ∧ s.pwr.faulted = false) ∧
    (pw 2 [] PowerSt.init).power = 2 ∧ (pw 4 [] PowerSt.init).power = 4 ∧
    (∀ k : Fin 4, (pw 5 [] { PowerSt.init with step := k + 2 }).power = 5 ∧
      (pw 5 [] { PowerSt.init with step := k + 2 }).pwr.step = k + 2) ∧
    (pw 4 [(.hub, Reg.svcModCfgSmbOffEn, 1)] PowerSt.init).rd .hub Reg.svcModCfgSmbOffEn = 1 ∧ (0xA4 : Byte) ≠ 0xA5 ∧
    on.rd .hub Reg.svcModCfgSmbOffEn = 0 := by decide +kernel

theorem test_wit_supplies :
    (on.wr .hub Reg.svcPwrStatAuxOk 0).rd .hub Reg.svcPwrStatAuxOk = 0 ∧ on.rd .hub Reg.svcPwrStatAuxOk = 1 ∧ on.hubOn = true ∧
    (10800 ≤ 10800 ∧ 13200 ≤ 13200 ∧ 10499 < 10500) ∧ (∀ n : Fin 4, 2 ≤ (pw (n + 2) [] PowerSt.init).power ∧
      (pw (n + 2) [] PowerSt.init).power ≤ 5) ∧ on.pwr.modReset = false := by decide +kernel

theorem test_wit_alerts :
    (HubQuiet on ∧ on.power = 4 ∧ on.pwr.episode = false ∧ (∀ e ∈ on.pwr.sources, e.1 ≠ .ext)) ∧
    (∀ e ∈ on.pwr.sources, e.1 ≠ .field 47) ∧ AlertSrc.mainUv ≠ .ext ∧
    (let s := pw 4 [] { PowerSt.init with episode := true }
     s.pwr.episode = true ∧ s.pwr.sources = []) ∧
    (let s := { pw 4 [] { PowerSt.init with ended := 1 } with time := 1000000 }
     s.pwr.ended ≠ 0 ∧ s.pwr.ended + 1000000 ≤ s.now + 1) ∧
    (let s := { pw 4 [] { PowerSt.init with sources := [(.field 0, 0)] } with time := 100000000 }
     s.pwr.sources = [(.field 0, 0)] ∧ 0 + 100000000 ≤ s.now ∧ 2 ≤ s.power ∧ s.power ≤ 5) :=
  ⟨⟨quiet_of (by decide +kernel), by decide +kernel⟩, by decide +kernel⟩

/-! Clocks and global time: witnesses. -/

/-- `on` with lake 0's sequencer. -/
def lk (st : Nat) (l : List (UnitId × Fld × Nat)) (x : LakeSt) : State :=
  { onW ((.lake 0, Reg.lakeClkStatState, st) :: l) with lakes := [(0, x)] }

theorem test_wit_module_clock :
    HubQuiet on ∧ (960 ≤ 960 ∧ 1040 ≤ 1040) ∧
    (let s := onW [(.hub, Reg.svcClkStatSource, 0)]
     s.rd .hub Reg.svcClkStatSource = 0 ∧ s.ref.fail ||| true.toNat ≠ 0) ∧
    (let s := onW [(.hub, Reg.svcClkStatSource, 1), (.hub, Reg.svcClkStatReturnPending, 1), (.hub, Reg.svcClkStatRefinOk, 1),
       (.hub, Reg.svcClkCtrlAutoReturn, 1)]
     s.rd .hub Reg.svcClkCtrlAutoReturn = 1 ∧ s.rd .hub Reg.svcClkStatReturnPending = 1 ∧ s.rd .hub Reg.svcClkStatRefinOk = 1 ∧
      s.rd .hub Reg.svcClkStatSource = 1 ∧ s.ref.locked = false ∧ ({ s with ref := { s.ref with locked := true } }).ref.locked = true) ∧
    on.rd .hub Reg.svcClkStatReturnPending = 0 ∧ 8640000000 ≤ { RefSt.init 0 with trimmed := 8640000000 }.trimmed :=
  ⟨quiet_of (by decide +kernel), by decide +kernel⟩

theorem test_wit_beat :
    on.hubOn = true ∧ on.waferOn = true ∧ on.lakeState 0 = 0 ∧ 21 ≠ on.ratio 0 ∧
    1024 ≤ ({ on with clk := ⟨20, false, 49, 0, 1024, [(5, 3)]⟩ }).clk.beats ∧ (onW []).supervised 47 = true := by decide +kernel

theorem test_wit_lakes :
    (let s := { on with regs := (Fld.key (.lake 0) Reg.lakeVfOffset 0, 0) :: on.regs }
     HubQuiet s ∧ s.lakeState 0 = 0 ∧ 0 + 30 < s.mv 0 (s.ratio 0) ∧ s.rd (.lake 0) Reg.lakeClkStatDroop = 0) ∧
    (let s := lk 0 [(.lake 0, Reg.lakeClkStatDroop, 1)] { LakeSt.init with clear := 64 }
     s.rd (.lake 0) Reg.lakeClkStatDroop = 1 ∧ 64 ≤ (s.lake 0).clear) ∧
    (let s := lk 0 [] { LakeSt.init with
       raise := 10
       settling := true }
     (s.lake 0).raise ≠ 0 ∧ (s.lake 0).settling = true) ∧
    (let s := lk 0 [] { LakeSt.init with
       ann := 4
       annBase := 4
       lastBase := 3
       beats := 2 }
     (s.lake 0).ann ≠ 0 ∧ (s.lake 0).ann < 32 ∧ 2 ≤ (s.lake 0).beats ∧ s.lakeState 0 = 0 ∧ (s.lake 0).annBase ≠ (s.lake 0).lastBase ∧
      s.supervised 0 = true) ∧
    (let s := lk 0 [(.lake 0, Reg.lakeClkStatSeq, 3), (.lake 0, Reg.lakeVfVolt, 600)] LakeSt.init
     s.rd (.lake 0) Reg.lakeClkStatSeq = 3 ∧ s.rd (.lake 0) Reg.lakeVfVolt ≤ 590 + 10 ∧ 590 ≤ s.rd (.lake 0) Reg.lakeVfVolt + 10) ∧
    (let s := lk 0 [(.lake 0, Reg.lakeSleepWarmBeats, 5)] { LakeSt.init with idle := 5 }
     s.lakeState 0 = 0 ∧ s.rd (.lake 0) Reg.lakeSleepWarmBeats ≠ 0 ∧ s.rd (.lake 0) Reg.lakeSleepWarmBeats ≤ (s.lake 0).idle) ∧
    (let s := lk 1 [(.lake 0, Reg.lakeSleepColdUs, 1)] { LakeSt.init with warm := 50 }
     s.lakeState 0 = 1 ∧ s.rd (.lake 0) Reg.lakeSleepColdUs ≠ 0 ∧ 50 * s.rd (.lake 0) Reg.lakeSleepColdUs ≤ (s.lake 0).warm) ∧
    (let s := { arrive (lk 2 [] LakeSt.init) 0 aRead with free := 0 }
     s.lakeState 0 = 2 ∧ (s.net.flights.map (fun f => f.place)) = [.router 0 4] ∧ lakeOf (0 / 16) = 0) ∧
    (let s := lk 3 [] { LakeSt.init with
       cold := true
       waking := 450 }
     s.lakeState 0 = 3 ∧ (if (s.lake 0).cold = true then 450 else 8) ≤ (s.lake 0).waking) :=
  ⟨⟨quiet_of (by decide +kernel), by decide +kernel⟩, by decide +kernel⟩

theorem test_wit_phase :
    on.lakeState 0 = 0 ∧ on.rd (.lake 0) Reg.lakePhaseTrim = 0 ∧ (50 < (51 : Int) ∧ (127 : Int) ≤ 127) := by decide +kernel

/-- A ring frame of time t with no delay, no hops, master 0 and no message. -/
def ringF (t : Nat) : RingFrame := ⟨ringFrameOf t 0 0 0 0 0, []⟩

theorem test_wit_ring :
    let s := onW [(.hub, Reg.svcRingStatBypass, 0), (.hub, Reg.svcRingStatTopo, 0),
      (.hub, Reg.svcRingCtrlMasterEn, 0)]
    HubQuiet s ∧ s.rd .hub Reg.svcRingStatBypass = 0 ∧ ((ringF 2).good = true ∧ (ringF 2).time = 2 ∧ (ringF 2).delay = 0) ∧ (ringF 2).msgs = [] ∧
      s.ring.hopsB = none ∧ s.rd .hub Reg.svcRingCtrlMasterEn = 0 ∧
      s.rd .hub Reg.svcRingStatTopo ≠ 3 ∧ s.ring.aligned = false ∧ s.pwr.started = false ∧
      (let e : Int := (s.now : Int) - (2 + (0 + 0) / 1000 : Nat)
       e < -1 ∧ (s.time : Int) - e ≥ 0) ∧ ({ s with pwr := { PowerSt.init with started := true } }).pwr.started = true ∧
      (onW [(.hub, Reg.svcRingStatBypass, 1), (.hub, Reg.svcRingCtrlMasterEn, 1)]).rd .hub Reg.svcRingStatBypass = 1 ∧
      (onW [(.hub, Reg.svcRingStatBypass, 1), (.hub, Reg.svcRingCtrlMasterEn, 1)]).rd .hub Reg.svcRingCtrlMasterEn = 1 :=
  ⟨quiet_of (by decide +kernel), by decide +kernel, ringFrameOf_good 2 0 0 0 0 0 [], by decide +kernel⟩

/-! Power cap, slope limit and heat: witnesses. -/

theorem test_wit_cap :
    on.hubOn = true ∧ on.waferOn = true ∧ on.lakeState 0 ≠ 4 ∧
    min (on.rd (.lake 0) Reg.lakeClkLimitCeiling) (on.rd (.lake 0) Reg.lakeClkLimitTherm) < 32 ∧
    on.pwr.reqs = [] ∧ on.lakeState 0 = 0 ∧
    on.rd .hub Reg.svcCapCtrlSlope * 1000000 < 1000000000 * 1152 := by decide +kernel

/-- A lake asleep that drew nothing when it ran, whose wake is asked for. -/
def wakeS : State := { lk 1 [] LakeSt.init with
  regs := (Fld.key (.lake 0) Reg.lakePwrLeak 0, 0) :: (lk 1 [] LakeSt.init).regs
  pwr := { PowerSt.init with reqs := [⟨0, 4, true⟩] } }

/-- The slope budget covers such a wake at any time. -/
theorem test_wit_slope : wakeS.pwr.reqs = [⟨0, 4, true⟩] ∧ wakeS.lakeState 0 = 1 ∧ wakeS.predict 0 4 = 0 := by
  refine ⟨rfl, by decide +kernel, ?_⟩
  have h1 : wakeS.lakeState 0 = 1 := by decide +kernel
  have h2 : wakeS.rd (.lake 0) Reg.lakePwrLeak = 0 := by decide +kernel
  have h3 : (wakeS.lake 0).ran = 0 := by decide +kernel
  simp [State.predict, h1, h2, h3, Rat.div_def, Rat.zero_mul, Rat.zero_add, Rat.sub_self]

theorem test_wit_heat :
    on.waferOn = true ∧ on.lakeW 0 / 4 % 16 = 0 ∧ on.rd (.lake 0) Reg.lakeThermState = 0 ∧ on.rd (.lake 0) Reg.lakeClkLimitTherm ≤ 20 ∧
    (let s := onW [(.lake 0, Reg.lakeThermState, 1), (.lake 0, Reg.lakeThermTemp, 380)]
     s.rd (.lake 0) Reg.lakeThermState = 1 ∧ 380 ≤ s.rd (.lake 0) Reg.lakeThermTemp ∧ on.rd (.lake 0) Reg.lakeThermTemp < 380) ∧
    (∀ r : Fin 2,
      let s := lk 4 [(.lake 0, Reg.lakeThermState, 3), (.lake 0, Reg.lakeRstStatReturning, r)] { LakeSt.init with cool := 500000 }
      s.rd (.lake 0) Reg.lakeThermState = 3 ∧ (s.lake 0).off = 0 ∧ s.lakeState 0 = 4 ∧ 500000 ≤ (s.lake 0).cool ∧
        s.rd (.lake 0) Reg.lakeRstStatReturning = r ∧ 0 ∉ s.net.tabLakes) := by decide +kernel

theorem test_wit_coolant :
    let s := pw 4 [] { PowerSt.init with coolPrev := 1 }
    HubQuiet s ∧ 0 ≤ 400 ∧ s.rd .hub Reg.svcModStatCoolWarn = 0 ∧ 0 + 4 * s.rd .hub Reg.svcModCfgDtLimit < 400 ∧
      s.pwr.coolPrev % 2 = 1 ∧ 0 ≤ 0 + 4 * s.rd .hub Reg.svcModCfgDtLimit ∧ 0 ≤ 4 * s.rd .hub Reg.svcModCfgOutLimit :=
  ⟨quiet_of (by decide +kernel), by decide +kernel⟩

/-- R381: two samples at 100 °C, 400 quarter degrees, make a Normal lake Hot. -/
theorem test_heat_hot : (after (exec (.sensorSample 0 400 400 400 400) (lk 0 [] { LakeSt.init with prev := 400 })) on).rd (.lake 0)
    Reg.lakeThermState = 2 := by decide +kernel

/-! Silent errors, logs, resets and broadcasts: witnesses. -/

/-- `on` with the Opal state of pond 0's tile 0. -/
def opS (x : OpalT) : State := onW [(.fld 0, Reg.fldOpalCfgEn, 1)] |>.setOpal 0 0 x

theorem test_wit_opal :
    (let s := opS OpalT.init
     0 = fieldOf 0 ∧ 288 * 0 + 0 = 0 ∧ (1 : BitVec 16) = 1#16 <<< 0 ∧ s.rd (.fld 0) Reg.fldOpalCfgEn = 1 ∧ s.supervised 0 = true ∧
      s.unitIdle 0 0 = true ∧ s.mayOffer 0 0 = true ∧ s.lakeState (lakeOf 0) = 0) ∧
    (∀ seg : Fin 32, let s := opS { OpalT.init with
       active := true
       seg := seg }
     (s.opalOf 0 0).active = true ∧ s.clocked 0 = true ∧ (s.opalOf 0 0).seg = seg) ∧ 30 + 1 < 32 ∧ 32 ≤ 31 + 1 := by decide +kernel

/-- A signature that is not the right one exists whatever the right one is. -/
theorem test_wit_opal_wrong (r : BitVec 64) : r + 1 ≠ r := by
  intro h
  have := congrArg BitVec.toNat h
  simp [BitVec.toNat_add] at this
  omega

theorem test_wit_opal_day :
    (let s := { on with time := 24 * 3600 * 10 ^ 9 + 1 }
     (s.opalOf 0 0).passTime + 24 * 3600 * 10 ^ 9 < s.now) ∧
    (let s := { on with time := 24 * 3600 * 10 ^ 9 }
     s.now ≤ (s.opalOf 0 0).passTime + 24 * 3600 * 10 ^ 9) := by decide +kernel

/-- A record of field 0 of a kind, about partition 1. -/
def aRec (kind : Nat) : ErrRec := ⟨0, 0, 0, 0, 0, 0, kind, 0, 1, 0, 0, 0, 0, 0, 0, 0⟩

theorem test_wit_logs :
    (∀ k : Fin 2, let r := aRec (if (k : Nat) = 0 then 1 else 3)
     let s := { pS (pt 3) with err := ⟨[r], [], [], [], []⟩ }
     s.err.queue = [r] ∧ r.field = 0 ∧ (∀ x ∈ s.err.queue.drop 1, x.field = 0 → x.time = r.time → r.unit ≤ x.unit) ∧ s.supvWorks 0 = true ∧ s.repeats 0 r = false ∧
      (if (k : Nat) = 0 then sevOf r.kind < 2 else 2 ≤ sevOf r.kind) ∧ r.part < 64 ∧
      (s.parts.get r.part Sys2Proof.Machine.Part.none).state = 3 ∧
      (s.parts.get r.part Sys2Proof.Machine.Part.none).faultCode = 0) ∧
    (let s := { on with err := ⟨[], [], [aRec 1], [], []⟩ }
     s.hubOn = true ∧ s.err.mlogWait = [aRec 1]) ∧
    (46 = 8 * (47 / 8) + (47 % 8 ^^^ 1) ∧ on.supvWorks 46 = true ∧ on.supvWorks 47 = true) := by decide +kernel

/-- Every boundary of pond 0 closed and drained. -/
def shutS : State := { on with
  closed := List.range 16
  drainDone := List.range 16 }

theorem test_wit_resets :
    on.partOf 0 = none ∧ 15 ∉ on.closed ∧ shutS.partOf 0 = none ∧ (∀ i, i < 16 → i ∈ shutS.closed ∧ i ∈ shutS.drainDone) := by
  decide +kernel

theorem test_wit_broadcast :
    let s := (onW [(.pond 0, Reg.pondBcCfgActive, 1), (.pond 0, Reg.pondBcCfgChunks, 4096)]).wri (.pond 0) Reg.pondBcMiss 63 (2 ^ 63)
    s.rd (.tile 0 5) Reg.scoreCtrlRun = 0 ∧ s.rd (.pond 0) Reg.pondBcCfgActive = 1 ∧ 4095 < s.rd (.pond 0) Reg.pondBcCfgChunks ∧
      crc32 [] = 0 := by decide +kernel

theorem test_wit_repair :
    let s := (onW [(.pond 0, Reg.pondBcCfgActive, 1), (.pond 0, Reg.pondBcCfgChunks, 2)]).wri (.pond 0) Reg.pondBcMiss 0 2
    s.rd (.pond 0) Reg.pondBcCfgActive = 1 ∧ s.bcMissing 0 ≠ 0 ∧
      (List.range (s.rd (.pond 0) Reg.pondBcCfgChunks)).filter
        (fun k => (s.rdi (.pond 0) Reg.pondBcMiss (k / 64)).testBit (k % 64)) = [1] := by decide +kernel

/-! The wafer network: witnesses. -/

/-- A packet waiting at router i. -/
def waitS (p : Packet) (i waited : Nat) : State := { on with net := { on.net with flights := [⟨p, .router i 4, waited, 0⟩] } }

theorem test_wit_links :
    on.rdi (.tile 0 0) Reg.rtrLinkState 3 ≠ 2 ∧ on.liveGraph.link 0 3 = true ∧ on.net.links.get 3 0 + 1 ≤ 8 ∧
    on.net.replay.get (8 * neighbour 0 3 + opposite 3) [] = [] ∧
    (let s := { on with net := { on.net with links := [(3, 8)] } }
     8 < s.net.links.get 3 0 + 1) := by decide +kernel

/-- An MCAST by a mask to tile 0 of pond 0, queue 0. -/
def mcastD : BitVec 48 := BitVec.ofNat 48 (2 ^ 47 + 2 ^ 3)
/-- The same on channel 2, at its target. -/
def mcastP (vc : Nat) : Packet := (mkPacket 6 false false false 31 0 (srcTile 0 0 0 0) (mcastD.toNat + 0xF * 2 ^ 48) 0 7).put 4 2 vc

/-- A READ of tile 1's core memory, at router 0. -/
def near : Packet := mkPacket 0 false false false 31 0 (srcTile 0 0 0 0) (coreA 0 + 2 ^ 23) 0 0

/-- The packet that showed the bad CRC arrived last, and the sender's replay buffer holds it. -/
theorem test_wit_replay :
    let s := { on with net := { on.net with
      flights := [⟨near, .router 0 3, 5, 0⟩]
      replay := [(8 * neighbour 0 3 + opposite 3, [(near, 0)])] } }
    s.rdi (.tile 0 0) Reg.rtrLinkState 3 ≠ 2 ∧ s.liveGraph.link 0 3 = true ∧ s.net.flights = [] ++ [⟨near, .router 0 3, 5, 0⟩] ∧
      (s.net.replay.get (8 * neighbour 0 3 + opposite 3) []).getLast? = some (near, 0) := by decide +kernel

/-- One flight alone that is no MCAST is alone at its port. -/
theorem alone_of {s : State} {i q : Nat} {x : Flight} (h1 : s.lakeAsleep i = false) (h2 : s.heldAt i q = none) (h3 : s.net.flights = [x])
    (h4 : ∀ e ∈ s.heads i, e.2.pkt.typ ≠ 6) : Alone s i q 0 := by
  refine ⟨h1, h2, ?_, fun e he h => absurd h (h4 e he)⟩
  intro k y hk hn
  rw [h3] at hk
  cases k with
  | zero => exact absurd rfl hn
  | succ k => simp at hk

theorem test_wit_hop : let s := waitS near 0 0
    let x : Flight := ⟨near, .router 0 4, 0, 0⟩
    Alone s 0 1 0 ∧ s.net.flights[0]? = some x ∧ s.isHead 0 0 = true ∧ s.atGoal x = false ∧
      (∀ e ∈ s.heads 0, (!s.atGoal e.2 && decide (s.hopOf 0 e.2.inPort e.2.pkt = .lost)) = false) ∧
      s.hopOf 0 x.inPort x.pkt = .go 1 false ∧ s.credit 0 1 x.pkt x.pkt.vc = true :=
  ⟨alone_of (x := ⟨near, .router 0 4, 0, 0⟩) (by decide +kernel) (by decide +kernel) rfl (by decide +kernel), by decide +kernel⟩

/-- The tables know router n as failed. -/
def deadS (n : Nat) (p : Packet) : State := { waitS p 0 0 with net := { (waitS p 0 0).net with tabTile := [(n, 2)] } }

theorem dist_dead (g : Graph) (e : Nat × Nat) (h : g.full = false) (hu : g.up e.2 = false) (i : Nat) : g.distTo [e] i = none := by
  unfold Graph.distTo
  simp [h, hu, waveFuel, wave, numTiles, Array.getElem?_replicate]
  split <;> rfl

theorem lost_dead (s : State) (n : Nat) (p : Packet) (q : Nat) (hf : s.tableGraph.full = false) (hu : s.tableGraph.up n = false)
    (hv : p.vc < 2) (hg : s.goalOf p = .tile n) : s.hopOf 0 q p = .lost := by
  have hd : s.tableGraph.distTo [(0, n)] 0 = none := dist_dead s.tableGraph (0, n) hf hu 0
  unfold State.hopOf
  rw [if_pos hv]
  unfold State.adaptiveHop
  simp only [hg]
  show (match s.tableGraph.distGoal (.tile n) 0 with | none => Hop.lost | some _ => _) = _
  rw [show s.tableGraph.distGoal (.tile n) 0 = none from hd]

/-- A response from router 0 to tile 1. -/
def nearAns : Packet := mkPacket 9 false false false 0 0 (srcTile 0 0 0 0) (destOfSrc (srcTile 0 0 1 0)) 0 1
/-- An MCAST of router 0 to group 0, whose root is tile 5. -/
def groupP : Packet := mkPacket 6 false false false 31 0 (srcTile 0 0 0 0) (0xF * 2 ^ 48) 0 7
/-- Group 0 has one member, a queue of pond 0; the partition that defines it sits there. -/
def withGroup (s : State) : State := { s with
  parts := [(1, { Sys2Proof.Machine.Part.none with
    state := 3
    sites := [(0, 0)] })]
  img := { ImgSt.init with groups := [(0, ⟨1, [⟨1, 0, 0, 0⟩]⟩)] } }

/-- The head of router 0 is lost: what the three clauses of the unreachable ask of a state. -/
theorem find_lost {s : State} {x : Flight} (hh : s.heads 0 = [(0, x)]) (hg : s.atGoal x = false)
    (hl : s.hopOf 0 x.inPort x.pkt = .lost) :
    (s.heads 0).find? (fun e => !s.atGoal e.2 && decide (s.hopOf 0 e.2.inPort e.2.pkt = .lost)) = some (0, x) := by
  rw [hh]
  simp [List.find?, hg, hl]

theorem test_wit_unreachable :
    ((deadS 1 near).heads 0 = [(0, ⟨near, .router 0 4, 0, 0⟩)] ∧ (deadS 1 near).atGoal ⟨near, .router 0 4, 0, 0⟩ = false ∧
      (deadS 1 near).hopOf 0 4 near = .lost ∧ (deadS 1 near).lakeAsleep 0 = false ∧ near.typ < 8 ∧ near.typ ≠ 5 ∧ near.typ ≠ 6 ∧
      (deadS 1 near).answerRoom 0 near.ordered = true) ∧
    ((deadS 1 nearAns).heads 0 = [(0, ⟨nearAns, .router 0 4, 0, 0⟩)] ∧ (deadS 1 nearAns).atGoal ⟨nearAns, .router 0 4, 0, 0⟩ = false ∧
      (deadS 1 nearAns).hopOf 0 4 nearAns = .lost ∧ 8 ≤ nearAns.typ) ∧
    (let s := withGroup (deadS 5 groupP)
     s.heads 0 = [(0, ⟨groupP, .router 0 4, 0, 0⟩)] ∧ s.atGoal ⟨groupP, .router 0 4, 0, 0⟩ = false ∧ s.hopOf 0 4 groupP = .lost ∧
      groupP.typ = 6 ∧ s.answerRoom 0 groupP.ordered = true ∧ targetPonds (s.mcastTargets groupP.dest) = [0]) :=
  ⟨⟨by decide +kernel, by decide +kernel, lost_dead _ 1 near 4 (by decide +kernel) (by decide +kernel) (by decide +kernel) (by decide +kernel),
      by decide +kernel⟩,
    ⟨by decide +kernel, by decide +kernel,
      lost_dead _ 1 nearAns 4 (by decide +kernel) (by decide +kernel) (by decide +kernel) (by decide +kernel), by decide +kernel⟩,
    by decide +kernel, by decide +kernel,
    lost_dead _ 5 groupP 4 (by decide +kernel) (by decide +kernel) (by decide +kernel) (by decide +kernel), by decide +kernel⟩

/-- A WRITE of rank 1's DRAM at field 0's crossbar, EGRESS port 0. -/
def faraway : Packet := mkPacket 1 false false false 31 0 (srcTile 0 0 0 0) (2 ^ 52) 0 0

theorem test_wit_crossbar : let s := atF (on.wri (.opt 0) Reg.optPstatState 0 3) faraway
    let x : Flight := ⟨faraway, .strip 0, 0, 0⟩
    s.net.flights.zipIdx.find? (fun e => decide (e.1.place = .strip 0) && !s.atGoal e.1) = some (x, 0) ∧
      dRank x.pkt.dest ≠ s.rank ∧ x.pkt.egress % 64 = 0 ∧ s.net.egressHold.contains (dRank x.pkt.dest) = false ∧
      s.rdi (.opt 0) Reg.optPstatState (x.pkt.egress / 64) = 3 := by decide +kernel

/-- A READ of field 0's DRAM that has waited at tile 3, an A-tile of the field. -/
theorem test_wit_escape : let s := waitS aRead 3 100000
    let x : Flight := ⟨aRead, .router 3 4, 100000, 0⟩
    Alone s 3 5 0 ∧ s.net.flights[0]? = some x ∧ x.pkt.vc < 2 ∧ x.pkt.ordered = false ∧ s.atGoal x = false ∧ s.net.update < 3 ∧
      s.rd (.tile 0 3) Reg.rtrCfgEscWait ≤ x.waited ∧ s.isHead 3 0 = true ∧
      s.escapeStep 3 x.pkt false = .go 5 false ∧ s.credit 3 5 x.pkt 3 = true :=
  ⟨alone_of (x := ⟨aRead, .router 3 4, 100000, 0⟩) (by decide +kernel) (by decide +kernel) rfl (by decide +kernel), by decide +kernel⟩

theorem test_wit_hold : let h : HoldSlot := ⟨0, 1, mcastP 2⟩
    let s := { on with net := { on.net with holds := [h] } }
    s.heldAt 0 1 = some h ∧ h.pkt.vc = 2 ∧ s.lakeAsleep 0 = false ∧ s.net.flights = [] ∧ s.heads 0 = [] ∧
      s.credit 0 1 h.pkt 2 = true ∧ s.liveGraph.link 0 1 = true ∧ on.heldAt 0 1 = none := by decide +kernel

theorem test_wit_tables :
    (let s := { on with overlay := { DMap.empty with tile := [(1, 2)] } }
     s.net.update = 0 ∧ s.nextGraph ≠ s.tableGraph) ∧ on.nextGraph = on.tableGraph ∧
    (∀ n : Fin 6, ({ on with net := { on.net with update := (n : Nat) } } : State).net.update = (n : Nat)) ∧
    (let s := { waitS ((fromTile 0 (coreA 0 + 2 ^ 23) 31 0)) 0 0 with free := 0 }
     (s.net.flights.map (fun x => (x.place, x.pkt.vc))) = [(.router 0 4, 3)]) := by decide +kernel


theorem test_wit_mcast_issue :
    on.rank < 64 ∧ addrKind 6 (mcastD.toNat + 0xF * 2 ^ 48 + on.rank * 2 ^ 52) = 0 ∧ mcastD.toNat.testBit 47 = true ∧
    on.roomAt (16 * 0 + 0) 4 2 6 = true ∧ on.roomAt (16 * 0 + 0) 4 0 6 = true ∧
    (0 : BitVec 48).toNat.testBit 47 = false ∧ on.groupSites 0 = [] ∧ (withGroup on).groupSites 0 ≠ [] := by decide +kernel


theorem test_wit_mcast :
    (let s := { arrive partS 0 (mcastP 2) with free := 0 }
     let x : Flight := ⟨mcastP 2, .router 0 4, 0, 0⟩
     s.net.flights[0]? = some x ∧ x.pkt.typ = 6 ∧ s.atGoal x = true ∧ s.isHead 0 0 = true ∧ s.lakeAsleep 0 = false ∧
      x.pkt.malformed = false ∧ x.pkt.vc = 2 ∧ s.mcastBranches 0 x.pkt = [4] ∧ x.done = 0 ∧
      (∀ e ∈ s.mcastTargets x.pkt.dest, (s.mcastPath x.pkt e).isSome = true) ∧ s.heldAt 0 4 = none ∧
      s.answerRoom (16 * (0 / 16) + 5) false = true ∧ NoBatch s 0 0 ∧ s.resetting 0 0 = false ∧
      s.absent (queueDest s.rank 0 0 0 false) = false ∧ tileType 0 ≠ .a ∧ s.granted x.pkt.src 0 2 = true ∧
      (s.mcastTargets x.pkt.dest).filter (fun e => decide (e.1 = 0) && decide (e.2.1 = 0)) = [(0, 0, 0)] ∧
      Room (inQ s 0 0 0) 1) := by unfold Room NoBatch; decide +kernel

/-- A packet for a group waits at the group's root, tile 5 of pond 0, on another channel. -/
theorem test_wit_mcast_root : let s := withGroup (arrive on 5 groupP)
    let x : Flight := ⟨groupP, .router 5 4, 0, 0⟩
    s.net.flights[0]? = some x ∧ x.pkt.typ = 6 ∧ s.atGoal x = true ∧ s.isHead 5 0 = true ∧ s.lakeAsleep 5 = false ∧
      x.pkt.malformed = false ∧ x.pkt.vc ≠ 2 ∧ s.roomAt 5 4 2 6 = true := by decide +kernel

/-! Collectives: witnesses. -/

/-- A REDUCE of tile 0 to queue 0 of tile 1, CNT c of 2. -/
def red (tag c : Nat) : Packet := mkReduce false 0 tag 2 c 0 0 (queueDest 0 0 1 0 false) 0 9

theorem test_wit_combine :
    let x : Flight := ⟨red 3 1, .router 0 3, 0, 0⟩
    let y : Flight := ⟨red 3 1, .router 0 2, 0, 0⟩
    let s := { on with net := { on.net with flights := [y, x] } }
    x.pkt.typ = 5 ∧ s.atGoal x = false ∧ x.pkt.malformed = false ∧ y.pkt.matches x.pkt = true ∧
      0 < s.rd (.tile 0 0) Reg.rtrCfgCombWin ∧ y.waited ≤ x.waited + s.rd (.tile 0 0) Reg.rtrCfgCombWin := by decide +kernel

/-- One packet takes the same output whichever of two link ports it came in by. -/
theorem test_wit_same_output (s : State) (p : Packet) : s.hopOf 0 2 p = s.hopOf 0 3 p := by simp [State.hopOf]

theorem test_wit_slots :
    (∀ c : Fin 2, let p := red 3 (c + 1)
     let s := arrive on 1 p
     s.atTile 0 = some (0, 1, p) ∧ p.typ = 5 ∧ p.malformed = false ∧ s.resetting 0 1 = false ∧ s.absent p.dest = false ∧
      (s.net.rslots.find? (fun e => decide (e.1 = slotKey 1 3))).isNone = true ∧ (if (c : Nat) = 0 then p.cnt < p.expect else p.cnt = p.expect) ∧
      (∀ n, n < 4 → s.steerOn 0 1 n 4 = false) ∧ Room (inQ s 0 1 (dQueue p.dest)) 1) ∧
    (∀ c : Fin 2, let x : RSlot := ⟨19, queueDest 0 0 1 0 false, 0, 0, false, c + 1, 2, 5⟩
     let s0 := arrive on 1 (red 3 1)
     let s := { s0 with net := { s0.net with rslots := [(slotKey 1 3, x)] } }
     NoBatch s 0 1 ∧ Room (inQ s 0 1 (dQueue x.dest)) 1 ∧
      s.net.rslots.find? (fun e => decide (e.1 = slotKey 1 3)) = some (slotKey 1 3, x) ∧ x.tag ≠ (red 3 1).tag ∧
      (if (c : Nat) = 0 then x.cnt ≠ x.expect else x.cnt = x.expect)) := by unfold Room NoBatch; decide +kernel

/-- An ALLREDUCE of context 0, two chunks in one shard, two contributions a chunk. -/
def cRec (mem : Bool) : CollRec := ⟨1, 0, 1, mem, 0, false, 0, 0, 0, 0, 0, 2, 1, 2, 0, 0, 0⟩

theorem test_wit_contribute :
    ∀ n : Fin 2,
    let s0 := { partS with img := { ImgSt.init with colls := [cRec false] } }
    let s := put ((s0.wri (.tile 0 0) Reg.rtrQcollEn 7 1).wri (.tile 0 0) Reg.rtrQcollStart 7 (n + 1)) 0 true 7 [⟨false, 5⟩]
    s.clocked 0 = true ∧ s.rdi (.tile 0 0) Reg.rtrQcollEn 7 = 1 ∧ s.headOf 0 0 true 7 = some ⟨false, 5⟩ ∧
      s.collRec (s.rdi (.tile 0 0) Reg.rtrQcollCtx 7) = some (cRec false) ∧ s.rdi (.tile 0 0) Reg.rtrQcollMarker 7 = 0 ∧
      s.rdi (.tile 0 0) Reg.rtrQcollStart 7 + s.rdi (.tile 0 0) Reg.rtrQcposSent 7 = n + 1 ∧
      (∀ n, n < 4 → s.steerOn 0 0 n 4 = false) ∧ s.portRoom (srcTile 0 0 0 0) 5 false = true ∧
      (if (n : Nat) = 0 then 0 + (n : Nat) + 1 < 1 * 2 else 1 * 2 ≤ 0 + (n : Nat) + 1) := by decide +kernel

/-- Field 0's context 0 holds shard 0; the packet p is at the field's crossbar. -/
def ctxS (r : CollRec) (b : CBuf) (p : Packet) : State := { atF partS p with
  img := { ImgSt.init with colls := [r] }
  colls := [(0, ⟨some b, none⟩)] }

theorem test_wit_context :
    (let p := mkReduce false 0 1 2 1 0 0 (mkAddr 0 0xC 64) 0 9
     let s := ctxS (cRec false) (CBuf.fresh 0) p
     s.atTile 0 = none ∧ s.atStrip 0 = some (0, p) ∧ s.net.flights[0]?.map (fun x => x.pkt) = some p ∧ p.typ = 5 ∧ p.malformed = false ∧ 64 ≤ p.dest % 128 ∧ p.dest % 128 < 80 ∧
      s.collRec 0 = some (cRec false) ∧ s.cbuf 0 0 (p.tag / 512) = some (CBuf.fresh 0) ∧ p.tag < 1024 ∧ p.rop = 0 ∧ p.rfmt = 0 ∧
      p.num = false ∧ p.role = 0 ∧ p.tag % 512 < 2 ∧ ((CBuf.fresh 0).o.get (p.tag % 512) (0, 0)).1 + p.cnt < 2) ∧
    (let p := mkReduce false 3 0 1 1 0 0 (mkAddr 0 0xC 64) 0 0
     let r := { cRec false with kind := 3 }
     let s := ctxS r (CBuf.fresh 0) p
     s.atTile 0 = none ∧ s.atStrip 0 = some (0, p) ∧ s.net.flights[0]?.map (fun x => x.pkt) = some p ∧ p.typ = 5 ∧
      p.malformed = false ∧ 64 ≤ p.dest % 128 ∧ p.dest % 128 < 80 ∧ s.collRec 0 = some r ∧
      s.cbuf 0 0 (p.tag / 512) = some (CBuf.fresh 0) ∧ p.tag < 1024 ∧ p.rop = r.op ∧ p.rfmt = r.fmt ∧ p.num = r.num ∧ p.role = 3 ∧
      p.cnt = 1 ∧ r.kind = 3 ∧ s.owns 0 = true ∧
      (CBuf.fresh 0).started = false) := by decide +kernel

theorem test_wit_memory_mode :
    let b := { CBuf.fresh 0 with passes := [⟨64, [.write 128]⟩] }
    let s := { partS with
      img := { ImgSt.init with colls := [cRec true] }
      colls := [(0, ⟨some b, none⟩)] }
    s.collRec 0 = some (cRec true) ∧ s.cbuf 0 0 0 = some b ∧ (cRec true).mem = true ∧ b.outst = 0 ∧ b.passes = [⟨64, [.write 128]⟩] ∧ b.pos < 2 ∧
      s.rdi (.opt 0) Reg.optCstatState 0 ≠ 2 ∧ s.coll 0 0 ≠ Coll.idle := by decide +kernel

/-! The optical fabric: witnesses. -/

/-- `on` as rank 0 of two modules, with port 0 in a state. -/
def prt (st : Nat) : State :=
  (onW ((List.range 48).flatMap (fun f => [(.opt f, Reg.optSysSize, 2), (.opt f, Reg.optSysActive, 93)]))).pwr_ 0 Reg.optPstatState st

/-- A frame as its sender forms it, decoded without error. -/
def aFrame (seq ack kind : Nat) (ps : List Packet) : Frame := ⟨true, frameOf seq ack kind ps⟩

theorem test_wit_frames :
    (let s := prt 3
     s.portUp 0 = true ∧ (s.port 0).nak = false ∧ (s.port 0).again = 0 ∧ waitingAt s 0 = []) ∧ (prt 4).portUp 0 = true ∧
    (let s := { prt 3 with net := { (prt 3).net with flights := [⟨faraway, .port 0, 0, 0⟩] } }
     s.portUp 0 = true ∧ waitingAt s 0 ≠ [] ∧ (s.port 0).replay.length < 2048) ∧
    (let s := (prt 3).setPort 0 { PortSt.init with nak := true }
     s.portUp 0 = true ∧ (s.port 0).nak = true) ∧
    (let s := (prt 3).setPort 0 { PortSt.init with
       replay := [(5, [faraway])]
       again := 1
       bad := 15 }
     s.portUp 0 = true ∧ (s.port 0).nak = false ∧ (s.port 0).again ≠ 0 ∧
      (s.port 0).replay[(s.port 0).replay.length - (s.port 0).again]? = some (5, [faraway]) ∧
      ((s.port 0).acked 5).replay ≠ [] ∧ ((s.port 0).replay.head?.map (fun e => e.1)) = some 5 ∧ 15 ≤ (s.port 0).bad ∧
      ((s.port 0).acked 6).replay = []) := by decide +kernel

/-- What is formed with these numbers is received with them. -/
theorem aFrame_got {seq ack kind : Nat} {ps : List Packet}
    (h : frameBody seq ack kind ps < 2 ^ (8 * 632) ∧ frameBody seq ack kind ps % 2 ^ 16 = seq ∧
      frameBody seq ack kind ps / 2 ^ 16 % 2 ^ 16 = ack ∧ frameBody seq ack kind ps / 2 ^ 32 % 2 ^ 4 = kind) :
    let f := aFrame seq ack kind ps
    f.good = true ∧ f.seq = seq ∧ f.ack = ack ∧ f.kind = kind :=
  let x := frameOf_fields seq ack kind ps h.1
  ⟨frameOf_good seq ack kind ps h.1, x.1.trans h.2.1, x.2.1.trans h.2.2.1, x.2.2.trans h.2.2.2⟩

/-- Data for this rank in sequence and out of it, an idle frame, a NAK; and a frame that FEC gives up. -/
theorem test_wit_received :
    (let f := aFrame 0 0 0 [aRead]
     (f.good = true ∧ f.seq = 0 ∧ f.ack = 0 ∧ f.kind = 0) ∧ ((prt 3).port 0).rx = 0 ∧ f.pkts = [aRead] ∧
      dRank aRead.dest = (prt 3).rank ∧ aRead.down = false) ∧
    (let f := aFrame 7 3 0 []
     f.good = true ∧ f.seq = 7 ∧ f.ack = 3 ∧ f.kind = 0) ∧
    (let f := aFrame 0 0 1 []
     f.good = true ∧ f.seq = 0 ∧ f.ack = 0 ∧ f.kind = 1) ∧
    (let f := aFrame 0 5 2 []
     f.good = true ∧ f.seq = 0 ∧ f.ack = 5 ∧ f.kind = 2) ∧ (⟨false, 0⟩ : Frame).good = false :=
  ⟨⟨aFrame_got (by decide +kernel), by decide +kernel, (frameOf_pkts 0 0 0 [aRead] (by decide +kernel)).trans (by decide +kernel),
      by decide +kernel⟩,
    aFrame_got (by decide +kernel), aFrame_got (by decide +kernel), aFrame_got (by decide +kernel), rfl⟩

theorem test_wit_train :
    (prt 0).mayTrain 0 = true ∧ (prt 0).spareNo 0 = none ∧
    (let s := (prt 1).wr (.opt 0) Reg.optLaserPresent 1
     s.mayTrain 0 = true ∧ s.prd 0 Reg.optPstatState = 1 ∧ s.rd (.opt 0) Reg.optLaserPresent = 1) ∧
    (let s := (prt 2).pwr_ 0 Reg.optPeerValid 1
     s.mayTrain 0 = true ∧ s.prd 0 Reg.optPstatState = 2 ∧ s.prd 0 Reg.optPeerValid = 1 ∧
      (∀ q ∈ [61, 125, 189], s.prd q Reg.optPstatSubst ≠ 1) ∧ s.ranks = 2 ∧ s.rd (.opt 0) Reg.optSysFab192 = 0 ∧
      s.cabled 0 = some (1, 0) ∧ widthOf (bitCount 16 0xFFFF) = 16 ∧ widthOf (bitCount 16 7) = 0) ∧
    (let s := (prt 5).wr (.opt 0) Reg.optLaserPresent 1
     s.mayTrain 0 = true ∧ s.prd 0 Reg.optPstatState = 5 ∧ (s.port 0).was = false ∧ s.prd 0 Reg.optPstatFails < 3) ∧
    ((prt 3).portThere 0 = true ∧ (prt 3).prd 0 Reg.optPctrlEn = 1 ∧ (prt 3).prd 0 Reg.optPctrlHoldDown = 0 ∧ 1 < (prt 3).ranks) := by
  decide +kernel

theorem test_wit_lanes :
    let s := ((prt 3).pwr_ 0 Reg.optPstatLanes 16).pwr_ 0 Reg.optPstatLaneOk 0xFFFF
    s.portUp 0 = true ∧ s.prd 0 Reg.optPstatLaneOk < 2 ^ 16 ∧ s.prd 0 Reg.optPstatLanes ≤ 16 ∧
      min (widthOf (bitCount 16 0xFFFE)) 16 = 12 ∧ widthOf (bitCount 16 7) = 0 ∧ widthOf (bitCount 16 0xFFFF) = 16 ∧
      s.rd .hub Reg.svcPwrStatAuxOk = 1 ∧ ((s.wr (.opt 0) Reg.optLaserPresent 1).rd (.opt 0) Reg.optLaserPresent = 1 ∧
      1 ≤ s.prd 0 Reg.optPstatState ∧ s.prd 0 Reg.optPstatState ≤ 4) := by decide +kernel

theorem test_wit_port_down :
    let s := (((prt 0).pwr_ 0 Reg.optPeerPeerRank 1).wr (.opt 0) Reg.optPspeSpe 1).setPort 0 { PortSt.init with
      leaving := true
      wantEn := true
      wantFree := true }
    s.portLeaving 0 = true ∧ s.portUp 0 = false ∧ s.portThere 0 = true ∧ s.prd 0 Reg.optPstatState = 0 ∧
      (s.rd (.opt 0) Reg.optPspeSpe).testBit 0 = true ∧ (s.port 0).wantEn = true ∧ (s.port 0).wantFree = true ∧
      (prt 3).portLeaving 0 = false ∧ (prt 3).portThere 0 = true := by decide +kernel

theorem test_wit_spare :
    let s := ((prt 5).pwr_ 61 Reg.optPstatState 7).wr (.opt 15) Reg.optLaserPresent 1
    s.cabled 0 = some (1, 0) ∧ s.portIsDown 0 = true ∧ (s.standIn (s.dealOf 0)).isNone = true ∧ s.spareTo 1 = some 61 ∧
      s.rd (portUnit 61) Reg.optLaserPresent = 1 ∧ s.rightPeer 61 ⟨1, 2, false, 0xFF⟩ = true ∧ s.rightPeer 61 ⟨1, 2, false, 0⟩ = false ∧
      widthOf (bitCount 16 (0xFFFF - (0xFFFF &&& s.rd (portUnit 61) Reg.optLaserLow))) ≠ 0 ∧
      widthOf (bitCount 16 (7 - (7 &&& s.rd (portUnit 61) Reg.optLaserLow))) = 0 := by decide +kernel

/-! Trust: witnesses. What is signed by keys the model leaves open (log entry 8) has no concrete witness. -/

/-- P-256's base point, big-endian. -/
def pointMem : Tab Byte :=
  (beBytes 32 p256g.1 ++ beBytes 32 p256g.2).zipIdx.map (fun e => (e.2, e.1))

theorem test_wit_fw_stage : let c := hc 0x10 255 0 false
    let s := cmdS on c
    HubQuiet s ∧ s.hub.busMaster = true ∧ Accepted s 0 0x10 c ∧ bundleCode (s.hostMem.bytes (c.f 16 8) 0) s.trust.c = 1 :=
  ⟨quiet_of (by decide +kernel), by decide +kernel, accepted_of (by decide +kernel), by decide +kernel⟩

theorem test_wit_fw_activate :
    ∀ v : Fin 2, let c := hc 0x11 255 v false
    let s := cmdS on c
    (s.command 0 0x11 = some c ∧ c.slot = 0 ∧ c.handle % 1024 = 0 ∧ s.hub.cmds = [c]) ∧ c.f 16 1 = v ∧
      (s.trust.slot 1).valid = false ∧ (s.trust.slot s.trust.running).valid = true ∧
      ({ s.trust with slotB := ⟨true, 3, 0, 0, 0⟩ }.slot 1).valid = true ∧
      ({ s.trust with slotA := FwSlot.empty }.slot 0).valid = false := by decide +kernel

theorem test_wit_enroll : let c := hc 0x13 255 (0x454E524C * 2 ^ 64) false
    let s := { cmdS on c with hostMem := pointMem }
    Accepted s 0 0x13 c ∧ s.trust.configKey = 0 ∧ c.f 24 4 = 0x454E524C ∧
      ecOn (beNat ((s.hostMem.bytes 0 64).take 32)) (beNat ((s.hostMem.bytes 0 64).drop 32)) = true ∧
      (hc 0x13 255 0 false).f 24 4 ≠ 0x454E524C ∧ ({ s.trust with configKey := 5 }).configKey ≠ 0 :=
  ⟨accepted_of (by decide +kernel), by decide +kernel⟩

theorem test_wit_licence : let c := hc 0x12 255 0 false
    Accepted (cmdS on c) 0 0x12 c ∧ licenceCode ((cmdS on c).hostMem.bytes (c.f 16 8) 160) = 1 ∧ (cmdS on c).trust.lics = [] :=
  ⟨accepted_of (by decide +kernel), by decide +kernel⟩

theorem test_wit_boot :
    let s := pw 0 [] PowerSt.init
    s.rd .hub Reg.svcPwrStatState = 0 ∧ s.rd .hub Reg.svcPwrStatAuxOk = 1 ∧ s.pwr.modReset = false ∧ s.trust.failed = 0 ∧
      s.trust.trial = 0 ∧ s.trust.active = 0 ∧ ((s.trust.slot 0).valid = true ∧ s.trust.c ≤ (s.trust.slot 0).svn) ∧
      ¬ (s.trust.slot 1).valid = true ∧ ({ s.trust with
        trial := 2
        failed := 2 }).trial - 1 = 1 := by decide +kernel

theorem test_wit_attest :
    on.rd .hub Reg.svcPwrStatState ≠ 0 ∧ on.trust.conn ≠ 1 ∧ on.trust.conn ≠ 3 ∧ on.trust.exchange = false ∧ on.trust.session = false ∧
    (let x := { TrustSt.init with
       conn := 3
       session := true
       exchange := true
       keys := [(1, 7)] }
     x.conn = 3 ∧ x.session = true ∧ x.exchange = true ∧ x.sets.get 9 0 ≠ 1 + 1 ∧ x.keys.get 1 0 ≠ 0 ∧ x.keys.get 26 0 = 0 ∧
      ({ x with sets := [(1, 1)] }).sets.get 1 0 = 0 + 1) ∧
    (onW [(.hub, Reg.hubStatusIdeActive, 1)]).rd .hub Reg.hubStatusIdeActive = 1 := by decide +kernel

/-- FIPS 180-4's example: the digest of "abc"; and the CRC-32 of "123456789". -/
theorem test_sha : beNat (sha256 [0x61, 0x62, 0x63]) = 0xba7816bf8f01cfea414140de5dae2223b00361a396177a9cb410ff61f20015ad := by
  decide +kernel
theorem test_crc : crc32 [0x31, 0x32, 0x33, 0x34, 0x35, 0x36, 0x37, 0x38, 0x39] = 0xCBF43926 := by decide +kernel

/-! Counters, telemetry and the service interfaces: witnesses. -/

theorem test_wit_counter : Reg.scoreInstr.width = 48 ∧ 0 < Reg.scoreWrap.width ∧
    Reg.scoreInstr.key (.tile 0 5) 0 ≠ Reg.scoreWrap.key (.tile 0 5) 0 ∧ on.rdi (.tile 0 5) Reg.scoreInstr 0 < 2 ^ 48 := by decide

/-- R457: one count past 0xFFFF_FFFF_FFFF leaves 0 and the wrap bit. -/
theorem test_counter_wrap :
    let s := (onW [(.tile 0 5, Reg.scoreInstr, 2 ^ 48 - 1)]).counti (.tile 0 5) Reg.scoreInstr 0 Reg.scoreWrap 0 0 1
    s.rd (.tile 0 5) Reg.scoreInstr = 0 ∧ s.rd (.tile 0 5) Reg.scoreWrap = 1 := by decide +kernel

theorem test_wit_telemetry :
    (let s := { onW [(.hub, Reg.svcTelemCtrlEn, 1)] with time := 3600 * 10 ^ 9 }
     let p := s.rd .hub Reg.svcTelemCtrlPeriodS * 10 ^ 9
     s.hubOn = true ∧ s.rd .hub Reg.svcTelemCtrlEn = 1 ∧ s.rd .hub Reg.svcTelemLastTime / p < s.now / p) ∧
    (let c := (unitCtrs (.tile 0 5)).find? (fun c => decide (c.fld.key (.tile 0 5) 0 = Reg.scoreInstr.key (.tile 0 5) 0))
     (c.map (fun c => c.wrap)) = some (some Reg.scoreWrap)) ∧
    (onW [(.tile 0 5, Reg.scoreInstr, 5)]).rdi (.tile 0 5) Reg.scoreInstr 0 = 5 ∧ on.ctrAbsent (.lake 575) = false ∧
    on.regAbsent (.tile 0 5) Reg.scoreInstr.off = false ∧ State.reset.ctrAbsent (.tile 0 0) = true ∧ (UnitId.tile 13823 15).ok = true ∧ (ctrOf (.tile 0 5) Reg.scoreInstr.off).isSome = true ∧
    isWrapReg (.tile 0 5) Reg.scoreWrap.off = true ∧ Reg.scoreWrap.off % 8 = 0 := by decide +kernel

theorem test_wit_latch : let s := { on with latches := [(4 * (UnitId.tile 0 5).idx, (Reg.scoreInstr.off + 1, 9))] }
    s.latches.get (4 * (UnitId.tile 0 5).idx + 0) (0, 0) = (Reg.scoreInstr.off + 1, 9) := by decide +kernel

theorem test_wit_smbus :
    (on.hubOn = true ∧ 1 ≤ on.rd .hub Reg.svcPwrStatState ∧ on.rd .hub Reg.svcPwrStatState ≤ 6) ∧
    (onW [(.hub, Reg.svcPwrStatAlert, 1)]).smbAlertLow = true ∧ (pw 7 [] PowerSt.init).rd .hub Reg.svcPwrStatState = 7 ∧
    (pw 4 [] { PowerSt.init with modReset := true }).hubOn = false := by decide +kernel

theorem test_wit_jtag : on.rd .hub Reg.svcPwrStatAuxOk = 1 ∧ on.pwr.modReset = false ∧
    (pw 4 [] { PowerSt.init with modReset := true }).pwr.modReset = true := by decide +kernel

/-! The whole block: witnesses. -/

theorem test_wit_step : ({ on with pending := [.smbMainV] }).pending = [.smbMainV] ∧ on.pending = [] := by decide +kernel

/-- A step that succeeds from a state that meets the trust invariant. -/
theorem test_wit_trust_inv : (∃ t, step State.reset = .next t) ∧
    (State.reset.trust.session = true → State.reset.trust.conn = 3) ∧ State.reset.trust.active < 2 := ⟨⟨_, rfl⟩, by decide, by decide⟩

theorem test_wit_isolation : reachesTrust .smbMainV = false ∧ outsideWafer .smbMainV = true ∧ reachesTrust .perst = true := by decide

theorem test_wit_packet : 31 < 32 ∧ 1023 < 1024 ∧ (mkPacket 15 true true true 31 1023 (2 ^ 28 - 1) (2 ^ 58 - 1) 255 7).dest = 2 ^ 58 - 1 ∧
    (mkPacket 15 true true true 31 1023 (2 ^ 28 - 1) (2 ^ 58 - 1) 255 7).hchkOk = true := by decide +kernel

/-! Steps on small states: what the spec's rules say of fixed values. -/

/-- R356, R360: AUX at 12 V releases the hub. -/
theorem test_aux : (after (exec (.auxQualified 12000 0 true) (State.reset.wr .hub Reg.svcPwrStatAuxOk 0)) State.reset).rd .hub
    Reg.svcPwrStatAuxOk = 1 := by decide +kernel
/-- R186: a write of COUNT takes effect at once. -/
theorem test_spring_write : ((after (exec (.springWrite 0 0x30 [5, 0, 0, 0]) on) on).spring 0 3).count = 5 := by decide +kernel
/-- R480: MAIN_W is read as two bytes, the low one first. -/
theorem test_smb_main_w : (after (exec .smbMainW (onW [(.hub, Reg.svcPwrMeasMainW, 0x1234)])) on).hub.reply = ⟨0, [0x34, 0x12]⟩ := by
  decide +kernel
/-- R481: IDCODE 0x1A48_03B5, low byte first. -/
theorem test_idcode : (after (exec .jtagIdcode on) on).hub.reply = ⟨0, [0xB5, 0x03, 0x48, 0x1A]⟩ := by decide +kernel
/-- R320: SUBMIT of a FREE slot of zeros with the log disabled: a NOP of partition 0, BAD_ARGUMENT. -/
theorem test_submit_bad : (after (exec (.submit 0) on) on).hub.reply = ⟨0, leBytes 8 3⟩ := by decide +kernel
/-- R387: the power cap at reset is 22,000 W. -/
theorem test_reset_cap : State.reset.rd .hub Reg.svcCapCtrlCapW = 22000 := by decide
end Sys2Proof.Tests
end

section
/-! Requests at their targets (R19, R128, R160, R221, R240). -/

namespace Sys2Proof.Machine
open Sys2Proof.Claims

/-! Reading a register that a write does not reach, whatever the units are. -/

/-- Two register fields lie inside their units at different places. -/
abbrev Fld.Apart (f : Fld) (i : Nat) (f' : Fld) (i' : Nat) : Prop :=
  f.slot i ≠ f'.slot i' ∧ f.slot i < 2 ^ 29 ∧ f'.slot i' < 2 ^ 29

theorem Fld.Apart.key_ne {f f' : Fld} {i i' : Nat} (h : f.Apart i f' i') (u u' : UnitId) : f.key u i ≠ f'.key u' i' := by
  obtain ⟨hne, hlt, hlt'⟩ := h
  rw [Fld.key_eq, Fld.key_eq]
  omega

theorem State.rdi_wri_apart (s : State) (u u' : UnitId) {f f' : Fld} {i i' : Nat} (v : Nat) (h : f'.Apart i' f i) :
    (s.wri u f i v).rdi u' f' i' = s.rdi u' f' i' :=
  State.rdi_wri_ne s v (h.key_ne u' u)

theorem State.rdi_counti_apart (s : State) (u u' : UnitId) {f f' w : Fld} {i i' j : Nat} (b n : Nat) (h : f'.Apart i' f i)
    (hw : f'.Apart i' w j) : (s.counti u f i w j b n).rdi u' f' i' = s.rdi u' f' i' :=
  State.rdi_counti_ne s b n (h.key_ne u' u) (hw.key_ne u' u)

/-! Requests that leave the network at a tile. -/

theorem State.eject_eq (s : State) (n i : Nat) : s.eject n i = { s with
    regs := (s.eject n i).regs
    net := (s.eject n i).net } := by
  unfold State.eject State.noteEject
  rw [State.counti_eq]
  rfl

/-- An ejection counts at the router's local port, port 4, and in no other register. -/
theorem State.rdi_eject (s : State) (n i : Nat) (u : UnitId) {f : Fld} {j : Nat} (h : f.Apart j Reg.rtrPktOut 4)
    (hw : f.Apart j Reg.rtrPwrap 4) : (s.eject n i).rdi u f j = s.rdi u f j :=
  State.rdi_counti_apart (s.dropFlight n) _ u 1 1 h hw

@[simp] theorem State.rank_eject (s : State) (n i : Nat) : (s.eject n i).rank = s.rank :=
  s.rdi_eject n i _ (by decide) (by decide)

theorem State.setArrTab_eq (s : State) (g : Nat) (l : List ArrEnt) : s.setArrTab g l = { s with
    arrivals := (s.setArrTab g l).arrivals
    regs := (s.setArrTab g l).regs } := by
  unfold State.setArrTab
  dsimp only
  split <;> rfl

theorem State.countArrival_eq (s : State) (g : Nat) (p : Packet) : s.countArrival g p = { s with
    arrivals := (s.countArrival g p).arrivals
    regs := (s.countArrival g p).regs } := by
  unfold State.countArrival
  split
  · exact State.setArrTab_eq s g _
  · rfl

@[simp] theorem State.rank_setArrTab (s : State) (g : Nat) (l : List ArrEnt) : (s.setArrTab g l).rank = s.rank := by
  unfold State.setArrTab
  dsimp only
  split
  · exact State.rdi_wri_apart _ _ _ _ (by decide)
  · rfl

@[simp] theorem State.rank_countArrival (s : State) (g : Nat) (p : Packet) : (s.countArrival g p).rank = s.rank := by
  unfold State.countArrival
  split
  · exact State.rank_setArrTab s g _
  · rfl

/-! Answers on their way. -/

/-- Who is on this rank depends on the rank alone. -/
theorem local_of_rank {s t : State} {p : Packet} (h : Local s p) (hr : t.rank = s.rank) : Local t p := by
  unfold Local
  rw [hr]
  exact h

theorem State.mem_flights_launch (s : State) (p : Packet) (a : Place) : (⟨p, a, 0, 0⟩ : Flight) ∈ (s.launch p a).net.flights := by
  cases a <;> simp [State.launch, State.arrive]

/-- R241, R252: a response to a sender of this rank enters the network at once. -/
theorem State.answered_respond {s : State} {p : Packet} (h : Local s p) (me typ len : Nat) (o : Bool) (v : BitVec 256) :
    Answered (s.respond me p.src typ len p.tag o v) me p typ len o v := by
  obtain ⟨hrank, hspace⟩ := h
  have he : s.egressOf me (destOfSrc p.src) = some 0 := by simp [State.egressOf, hrank, hspace]
  unfold Answered Launched State.respond
  simp only [he]
  exact State.mem_flights_launch s _ _

theorem State.nackFrom_eq (s : State) (g t : Nat) (p : Packet) (k : Nat) : s.nackFrom g t p k = { s with
    arrivals := (s.nackFrom g t p k).arrivals
    regs := (s.nackFrom g t p k).regs
    net := (s.nackFrom g t p k).net } := by
  unfold State.nackFrom
  rw [State.respond_eq, State.countArrival_eq]

theorem State.ackFrom_eq (s : State) (g t : Nat) (p : Packet) : s.ackFrom g t p = { s with
    arrivals := (s.ackFrom g t p).arrivals
    regs := (s.ackFrom g t p).regs
    net := (s.ackFrom g t p).net } := by
  unfold State.ackFrom
  rw [State.respond_eq, State.countArrival_eq]

theorem State.answered_nackFrom {s : State} {p : Packet} (h : Local s p) (g t k : Nat) :
    Answered (s.nackFrom g t p k) (srcTile s.rank g t 0) p 0xA 0 (decide (p.typ = 3 ∨ p.typ = 7)) (nackPayload k p.dest) :=
  State.answered_respond (local_of_rank h (s.rank_countArrival g p)) ..

theorem State.answered_ackFrom {s : State} {p : Packet} (h : Local s p) (g t : Nat) :
    Answered (s.ackFrom g t p) (srcTile s.rank g t 0) p 9 1 (decide (p.typ = 7)) 1 :=
  State.answered_respond (local_of_rank h (s.rank_countArrival g p)) ..

/-! Requests at a tile. -/

/-- A request that has arrived is served on the state from which it has been ejected. -/
theorem State.arriveTile_serves {s u : State} {n typ g t : Nat} {p : Packet} (h : Arrives s n typ g t p)
    {serve : State → Nat → Nat → Packet → Option State} (hu : serve (s.eject n (16 * g + t)) g t p = some u) :
    s.arriveTile n typ serve = u := by
  obtain ⟨hat, htyp, hwf, hreset, habsent, -, hroom⟩ := h
  simp only [State.arriveTile, hat, htyp, hwf, hreset, habsent, hroom, hu, ne_eq, not_true_eq_false, false_and, Bool.false_eq_true,
    Bool.not_true, if_false]

/-! Rights depend on the partitions, the image and the rank alone (R19, R20, R221). -/

theorem State.partOf_congr {s t : State} (hp : t.parts = s.parts) (g : Nat) : t.partOf g = s.partOf g := by
  unfold State.partOf
  rw [hp]

theorem State.lpondOf_congr {s t : State} (hp : t.parts = s.parts) (g : Nat) : t.lpondOf g = s.lpondOf g := by
  unfold State.lpondOf
  rw [State.partOf_congr hp, hp]

theorem State.srcPart_congr {s t : State} (hp : t.parts = s.parts) (hi : t.img = s.img) (hr : t.rank = s.rank) (src : Nat) :
    t.srcPart src = s.srcPart src := by
  unfold State.srcPart
  rw [hr, hi, State.partOf_congr hp]

theorem State.granted_congr {s t : State} (hp : t.parts = s.parts) (hi : t.img = s.img) (hr : t.rank = s.rank)
    (src g right : Nat) : t.granted src g right = s.granted src g right := by
  simp only [State.granted, State.partOf_congr hp, State.lpondOf_congr hp, State.srcPart_congr hp hi hr, hi, hr]

theorem State.csrAllowed_congr {s t : State} (hp : t.parts = s.parts) (hi : t.img = s.img) (hr : t.rank = s.rank) (src g : Nat) :
    t.csrAllowed src g = s.csrAllowed src g := by
  simp only [State.csrAllowed, State.partOf_congr hp, State.srcPart_congr hp hi hr, hr]

theorem State.tileKind_eject (s : State) (n i g : Nat) (p : Packet) (w : Bool) :
    (s.eject n i).tileKind g p w = s.tileKind g p w := by
  have hp : (s.eject n i).parts = s.parts := by rw [State.eject_eq]
  have hi : (s.eject n i).img = s.img := by rw [State.eject_eq]
  have hs : (s.eject n i).scratch g = s.scratch g := by
    unfold State.scratch State.rd
    rw [s.rdi_eject n i _ (by decide) (by decide)]
  simp only [State.tileKind, State.granted_congr hp hi (s.rank_eject n i), State.csrAllowed_congr hp hi (s.rank_eject n i), hs]

theorem State.granted_eject (s : State) (n i src g right : Nat) : (s.eject n i).granted src g right = s.granted src g right :=
  State.granted_congr (by rw [State.eject_eq]) (by rw [State.eject_eq]) (s.rank_eject n i) src g right

theorem State.sramBad_eject (s : State) (n i k m : Nat) : (s.eject n i).sramBad k m = s.sramBad k m := by
  rw [State.eject_eq]; rfl
theorem State.partialBad_eject (s : State) (n i k m : Nat) : (s.eject n i).partialBad k m = s.partialBad k m := by
  rw [State.eject_eq]; rfl
theorem State.memNat_eject (s : State) (n i k m : Nat) : (s.eject n i).memNat k m = s.memNat k m := by
  rw [State.eject_eq]; rfl

theorem readReq_arrives {s : State} {n g t : Nat} {p : Packet} (h : Arrives s n 0 g t p) (e : Ecc) :
    readReq n e s = (s.eject n (16 * g + t)).serveRead g t p e := by
  obtain ⟨hat, -⟩ := id h
  simp only [readReq, hat]
  exact State.arriveTile_serves h rfl

theorem writeReq_arrives {s : State} {n g t : Nat} {p : Packet} (h : Arrives s n 1 g t p) :
    writeReq n s = (s.eject n (16 * g + t)).serveWrite g t p := by
  obtain ⟨hat, -⟩ := id h
  simp only [writeReq, hat]
  exact State.arriveTile_serves h rfl

theorem exec_read (n : Nat) (e : Ecc) (s : State) : exec (.read n e) s = s.endsOutside (readReq n e s) := rfl
theorem exec_write (n : Nat) (s : State) : exec (.write n) s = s.endsOutside (writeReq n s) := rfl
theorem exec_qentry (n : Nat) (s : State) : exec (.qentry n) s = s.endsOutside (qentry n s) := rfl
theorem exec_signal (n : Nat) (s : State) : exec (.signal n) s = s.endsOutside (signal n s) := rfl

/-! A READ or WRITE of memory that its tile accepts (R128, R240). -/

theorem State.serveRead_memory {s : State} {g t : Nat} {p : Packet} (hd : dSpace p.dest = 1 ∨ dSpace p.dest = 2)
    (hk : s.tileKind g p false = 0) (hb : s.sramBad (tileKey p.dest) (p.len + 1) = false) :
    s.serveRead g t p .good = s.dataFrom (s.meTile g t) p (s.memNat (tileKey p.dest) (p.len + 1)) := by
  rcases hd with hd | hd <;> simp [State.serveRead, hk, hd, State.sramEcc, hb]

theorem State.serveWrite_memory {s : State} {g t : Nat} {p : Packet} (hd : dSpace p.dest = 1 ∨ dSpace p.dest = 2)
    (hk : s.tileKind g p true = 0) (hb : s.partialBad (tileKey p.dest) (p.len + 1) = false) :
    s.serveWrite g t p = ((s.putMem (tileKey p.dest) ((bvBytes 32 p.payload).take (p.len + 1))).healSram (tileKey p.dest)
      (p.len + 1)).ackFrom g t p := by
  rcases hd with hd | hd <;> simp [State.serveWrite, hk, hd, hb]

theorem State.dataFrom_eq (s : State) (me : Nat) (p : Packet) (v : Nat) : s.dataFrom me p v = { s with
    regs := (s.dataFrom me p v).regs
    net := (s.dataFrom me p v).net } := State.respond_eq ..

/-! Refusals by a target's router (R19). -/

theorem State.refuseTile_eq (s : State) (g t : Nat) (p : Packet) (k : Nat) : s.refuseTile g t p k = { s with
    arrivals := (s.refuseTile g t p k).arrivals
    regs := (s.refuseTile g t p k).regs
    net := (s.refuseTile g t p k).net
    err := (s.recTile g t 32 0x0A 9 (refusedDetail p.dest k)).err } := by
  unfold State.refuseTile
  rw [State.nackFrom_eq]
  rfl

theorem State.recTile_queue (s : State) (g t sub kind op detail : Nat) :
    ∃ r, (s.recTile g t sub kind op detail).err.queue = s.err.queue ++ [r] ∧ r.kind = kind := ⟨_, rfl, rfl⟩

theorem State.answered_refuseTile {s : State} {p : Packet} (h : Local s p) (g t k : Nat) :
    Answered (s.refuseTile g t p k) (srcTile s.rank g t 0) p 0xA 0 (decide (p.typ = 3 ∨ p.typ = 7)) (nackPayload k p.dest) :=
  State.answered_nackFrom (s := s.recTile g t 32 0x0A 9 (refusedDetail p.dest k)) h g t k

theorem State.serveRead_refuses {s : State} {g t : Nat} {p : Packet} (h : s.tileKind g p false ≠ 0) (e : Ecc) :
    s.serveRead g t p e = s.refuseTile g t p (s.tileKind g p false) := by
  simp [State.serveRead, h]

theorem State.serveWrite_refuses {s : State} {g t : Nat} {p : Packet} (h : s.tileKind g p true ≠ 0) :
    s.serveWrite g t p = s.refuseTile g t p (s.tileKind g p true) := by
  simp [State.serveWrite, h]

/-! The hub's log writes no register of another unit. -/

/-- Registers of every unit but the hub read as before. -/
def State.SameOffHub (s t : State) : Prop :=
  ∀ (u : UnitId) (f : Fld) (i : Nat), u.idx ≠ UnitId.hub.idx → f.slot i < 2 ^ 29 → t.rdi u f i = s.rdi u f i

theorem State.SameOffHub.of_regs {s t : State} (h : t.regs = s.regs) : s.SameOffHub t := fun u f i _ _ => by
  unfold State.rdi
  rw [h]

theorem State.SameOffHub.trans {s t r : State} (h : s.SameOffHub t) (h' : t.SameOffHub r) : s.SameOffHub r :=
  fun u f i hu hf => (h' u f i hu hf).trans (h u f i hu hf)

theorem State.SameOffHub.wri (s : State) {f : Fld} {i : Nat} (v : Nat) (hf : f.slot i < 2 ^ 29) :
    s.SameOffHub (s.wri .hub f i v) :=
  fun _ _ _ hu hf' => State.rdi_wri_ne s v (Fld.key_ne_unit hu hf' hf)

theorem State.SameOffHub.setBiti (s : State) {f : Fld} {i : Nat} (b : Nat) (hf : f.slot i < 2 ^ 29) :
    s.SameOffHub (s.setBiti .hub f i b) := by
  unfold State.setBiti
  split
  · exact .of_regs rfl
  · exact .wri s _ hf

theorem State.SameOffHub.hub (s : State) (h : HubSt) : s.SameOffHub { s with hub := h } := .of_regs rfl

theorem State.SameOffHub.writeRec (s : State) (r : CRec) : s.SameOffHub (s.writeRec r) := by
  have hfree : (if r.event || r.run then s else s.freeSlot (r.handle % 1024)).regs = s.regs := by split <;> rfl
  unfold State.writeRec
  dsimp only
  generalize (if r.event || r.run then s else s.freeSlot (r.handle % 1024)) = t at hfree
  have htail (v : Nat) (m : Tab Byte) : s.SameOffHub (({ t with hostMem := m } : State).wr .hub Reg.hubClogTailTail v) :=
    (of_regs hfree).trans (wri { t with hostMem := m } v (by decide))
  split <;> split
  · exact htail _ _
  · exact (htail _ _).trans (hub _ _)
  · exact htail _ _
  · exact (htail _ _).trans (hub _ _)

theorem State.SameOffHub.flushLog (n : Nat) (s : State) : s.SameOffHub (State.flushLog n s) := by
  induction n generalizing s with
  | zero => exact of_regs rfl
  | succ n ih =>
    unfold State.flushLog
    split
    · exact of_regs rfl
    · split
      · exact (hub s _).trans ((writeRec _ _).trans (ih _))
      · exact of_regs rfl

theorem State.SameOffHub.settleLog (s : State) : s.SameOffHub s.settleLog := by
  unfold State.settleLog
  dsimp only
  refine trans ?_ (wri _ _ (by decide))
  split
  · exact (flushLog _ s).trans ((hub _ _).trans (flushLog _ _))
  · exact flushLog _ s

theorem State.SameOffHub.postEvent (s : State) (c i a d p : Nat) : s.SameOffHub (s.postEvent c i a d p) := by
  have hnmi : s.SameOffHub (if c = 1 ∨ c = 2 ∨ c = 3 then (s.setBiti .hub Reg.hubNmiStatNmi 0 (c - 1)).sendMsix 0 else s) := by
    split
    · exact (setBiti s _ (by decide)).trans (hub _ _)
    · exact of_regs rfl
  unfold State.postEvent
  dsimp only
  revert hnmi
  generalize (if c = 1 ∨ c = 2 ∨ c = 3 then (s.setBiti .hub Reg.hubNmiStatNmi 0 (c - 1)).sendMsix 0 else s) = r
  intro hnmi
  refine hnmi.trans ?_
  split
  · exact (hub _ _).trans (settleLog _)
  · exact (hub _ _).trans (wri _ _ (by decide))

theorem State.SameOffHub.rank {s t : State} (h : s.SameOffHub t) : t.rank = s.rank := h _ _ _ (by decide) (by decide)

/-! Accumulates at a channel controller (R160). -/

/-- R226: unsealing changes the image's seals and posts events. -/
theorem State.breakSeals_posts (s : State) (f o n : Nat) :
    ∃ i, ({ s with img := i } : State).LogOnly (s.breakSeals f o n) ∧ s.SameOffHub (s.breakSeals f o n) := by
  unfold State.breakSeals
  dsimp only
  split
  · exact ⟨s.img, .refl s, .of_regs rfl⟩
  · refine ⟨_, List.foldlRecOn (motive := fun t => State.LogOnly _ t ∧ s.SameOffHub t) _ _ ⟨.refl _, .of_regs rfl⟩ ?_⟩
    intro t ⟨hlog, hoff⟩ x _
    split
    · exact ⟨hlog, hoff⟩
    · exact ⟨hlog.trans (.postEvent ..), hoff.trans (.postEvent _ _ _ _ _ _)⟩

theorem State.dramPut_eq (s : State) (f o : Nat) (bs : List Byte) : s.dramPut f o bs = { s with
    mem := s.mem.putBytes (dramKey f o) bs
    img := (s.dramPut f o bs).img
    regs := (s.dramPut f o bs).regs
    hub := (s.dramPut f o bs).hub
    hostMem := (s.dramPut f o bs).hostMem } := by
  obtain ⟨i, ⟨a, b, c, h⟩, -⟩ := (s.putMem (dramKey f o) bs).breakSeals_posts f o bs.length
  unfold State.dramPut
  rw [h]
  rfl

@[simp] theorem State.rank_dramPut (s : State) (f o : Nat) (bs : List Byte) : (s.dramPut f o bs).rank = s.rank := by
  obtain ⟨i, -, h⟩ := (s.putMem (dramKey f o) bs).breakSeals_posts f o bs.length
  exact h.rank

@[simp] theorem State.dram_setDram (s : State) (f : Nat) (d : DramSt) : (s.setDram f d).dram f = d := by
  simp [State.dram, State.setDram]

/-- R155: all of a burst lies in one channel. -/
theorem DramSt.chan_burst (d : DramSt) (o : Nat) : d.chan (o / 64 * 64) = d.chan o := by
  unfold DramSt.chan
  rw [show o / 64 * 64 / 256 = o / 256 by omega]

theorem DramSt.chan_lt (d : DramSt) (o : Nat) : d.chan o < 32 := by
  unfold DramSt.chan
  rw [List.getD_eq_getElem?_getD]
  cases h : d.list[o / 256 % Max.max d.list.length 1]? with
  | none => decide
  | some c => exact List.mem_range.mp (List.mem_filter.mp (List.mem_of_getElem? h)).1

/-- Counting at a channel leaves the rank. -/
theorem State.rank_chCount (s : State) (f : Nat) {ch : Nat} (hch : ch < 32) {r : Fld} (bit n : Nat)
    (hr : Reg.optSysRank.Apart 0 r ch) : (s.chCount f ch r bit n).rank = s.rank := by
  refine State.rdi_counti_apart s _ _ bit n hr ?_
  simp only [Fld.Apart, Fld.slot, Reg.optSysRank, Reg.dramChWrap]
  omega

theorem State.chCount_eq (s : State) (f ch : Nat) (r : Fld) (bit n : Nat) :
    s.chCount f ch r bit n = { s with regs := (s.chCount f ch r bit n).regs } := State.counti_eq ..

/-- R157: ECC that finds no more than a correctable error at most counts it. -/
theorem State.dramEcc_counts (s : State) (f o : Nat) {e : Ecc} (he : e ≠ .uncorrectable) :
    s.dramEcc f o e = { s with regs := (s.dramEcc f o e).regs } ∧ (s.dramEcc f o e).rank = s.rank := by
  cases e with
  | good => exact ⟨rfl, rfl⟩
  | corrected => exact ⟨rfl, State.rdi_wri_apart _ _ _ _ (by decide)⟩
  | uncorrectable => exact absurd rfl he

theorem State.raccApply_eq (s : State) (f : Nat) (p : Packet) : s.raccApply f p = { s with
    mem := s.mem.putBytes (dramKey f (dramOff p.dest))
      (leBytes 32 (combine32 p.len 0 false (s.memNat (dramKey f (dramOff p.dest)) 32) p.payload.toNat))
    img := (s.raccApply f p).img
    regs := (s.raccApply f p).regs
    hub := (s.raccApply f p).hub
    hostMem := (s.raccApply f p).hostMem
    net := (s.raccApply f p).net } := by
  unfold State.raccApply
  dsimp only
  unfold State.dramAnswer
  rw [State.respond_eq, State.dramPut_eq]
  rfl

theorem State.answered_raccApply {s : State} {p : Packet} (h : Local s p) (f : Nat) :
    Answered (s.raccApply f p) (srcStrip s.rank f ((s.dram f).chan (dramOff p.dest))) p 9 1 false 1 := by
  unfold State.raccApply
  dsimp only
  unfold State.dramAnswer
  generalize leBytes 32 _ = bs
  have hrank (v : Nat) : ((s.dramPut f (dramOff p.dest) bs).wr (.dram f) Reg.dramRacc v).rank = s.rank :=
    (State.rdi_wri_apart _ _ _ _ (by decide)).trans (s.rank_dramPut _ _ _)
  have hdram (v : Nat) : ((s.dramPut f (dramOff p.dest) bs).wr (.dram f) Reg.dramRacc v).dram f = s.dram f := by
    rw [State.dramPut_eq]
    rfl
  rw [hrank, hdram]
  exact State.answered_respond (local_of_rank h (hrank _)) ..

/-- R156, R157, R160: an accumulate alone on a good burst of a working channel is counted as a read and a write and applied. -/
theorem State.dramServe_racc {s : State} {f : Nat} {p : Packet} {e : Ecc} (htyp : p.typ = 4)
    (hdead : (s.dram f).dead.testBit ((s.dram f).chan (dramOff p.dest)) = false)
    (hburst : s.dramBad (dramKey f (dramOff p.dest / 64 * 64)) 64 = false)
    (hbad : s.dramBad (dramKey f (dramOff p.dest)) 32 = false) (he : e ≠ .uncorrectable) :
    ∃ r, s.dramServe f [p] e = State.raccApply r f p ∧ r = { s with regs := r.regs } ∧ r.rank = s.rank := by
  have hch := (s.dram f).chan_lt (dramOff p.dest)
  generalize hc : (s.dram f).chan (dramOff p.dest) = ch at hdead hch
  have hrd := s.chCount_eq f ch Reg.dramChRd 0 1
  obtain ⟨hecc, heccRank⟩ := (s.chCount f ch Reg.dramChRd 0 1).dramEcc_counts f (dramOff p.dest / 64 * 64) he
  have hbad' (k n : Nat) : ((s.chCount f ch Reg.dramChRd 0 1).dramEcc f (dramOff p.dest / 64 * 64) e).dramBad k n = s.dramBad k n := by
    rw [hecc, hrd]
    rfl
  refine ⟨((s.chCount f ch Reg.dramChRd 0 1).dramEcc f (dramOff p.dest / 64 * 64) e).chCount f ch Reg.dramChWr 1 1, ?_, ?_, ?_⟩
  · simp [State.dramServe, DramSt.chan_burst, hc, hdead, hbad', htyp, hburst, hbad]
  · rw [State.chCount_eq, hecc, hrd]
  · rw [State.rank_chCount _ _ hch _ _ ?_, heccRank, State.rank_chCount _ _ hch _ _ ?_] <;>
      simp only [Fld.Apart, Fld.slot, Reg.optSysRank, Reg.dramChRd, Reg.dramChWr] <;> omega

/-- R155, R160: an accumulate that finds its controller with nothing held and the stack running is served at once. -/
theorem raccReq_serves {s : State} {n f : Nat} {p : Packet} {e : Ecc} (hat : s.atStrip n = some (f, p)) (htyp : p.typ = 4)
    (hwf : p.malformed = false) (hspace : dSpace p.dest = 0) (hqueue : (s.dram f).queue = [])
    (huse : dramOff p.dest + 32 ≤ (s.dram f).usable) (hro : s.dramReadOnly f (dramOff p.dest) 32 = false)
    (hstop : s.dramStopped f = false) :
    ∃ r, raccReq n e s = State.dramServe r f [p] e ∧ r.dram f = { s.dram f with queue := [] } ∧ r = { s with
      net := r.net
      drams := r.drams } := by
  have hheld : s.arriveDram n 4 = (s.dropFlight n).setDram f { s.dram f with queue := [p] } := by
    have hro' : (s.dropFlight n).dramReadOnly f (dramOff p.dest) 32 = false := hro
    have hstop' : (s.dropFlight n).dramStopped f = false := hstop
    have hdram : (s.dropFlight n).dram f = s.dram f := rfl
    simp [State.arriveDram, State.dramAccept, hat, hwf, hspace, htyp, hdram, hro', hstop', hqueue, Nat.not_lt.mpr huse]
  have hstop' : ((s.dropFlight n).setDram f { s.dram f with queue := [p] }).dramStopped f = false := hstop
  refine ⟨((s.dropFlight n).setDram f { s.dram f with queue := [p] }).setDram f { s.dram f with queue := [] }, ?_, ?_, rfl⟩
  · simp [raccReq, hat, hheld, htyp, hstop', hqueue, State.dramTake]
  · rw [State.dram_setDram]

end Sys2Proof.Machine

namespace Sys2Proof.Claims
open Sys2Proof.Machine

theorem Arrives.local_eject {s : State} {n typ g t : Nat} {p : Packet} (h : Arrives s n typ g t p) (i : Nat) :
    Local (s.eject n i) p := by
  obtain ⟨-, -, -, -, -, hl, -⟩ := h
  exact local_of_rank hl (s.rank_eject n i)

theorem read_memory_answered {s : State} {n g t : Nat} {p : Packet} (hd : dSpace p.dest = 1 ∨ dSpace p.dest = 2)
    (h : Arrives s n 0 g t p) (hk : s.tileKind g p false = 0) (hb : s.sramBad (tileKey p.dest) (p.len + 1) = false) :
    ∃ u, exec (.read n .good) s = .next u ∧ u.mem = s.mem ∧ Answered u (srcTile s.rank g t 0) p 8 p.len false
      (BitVec.ofNat 256 (s.memNat (tileKey p.dest) (p.len + 1) % 2 ^ (8 * (p.len + 1)))) := by
  have hserve : readReq n .good s = (s.eject n (16 * g + t)).dataFrom (srcTile s.rank g t 0) p
      (s.memNat (tileKey p.dest) (p.len + 1)) := by
    rw [readReq_arrives h, State.serveRead_memory hd (by rwa [State.tileKind_eject]) (by rwa [State.sramBad_eject]),
      State.memNat_eject, State.meTile, State.rank_eject]
  have hframe : readReq n .good s = { s with
      regs := (readReq n .good s).regs
      net := (readReq n .good s).net } := by rw [hserve, State.dataFrom_eq, State.eject_eq]
  refine ⟨_, State.endsOutside_of (by rw [hframe]) (by rw [hframe]) (by rw [hframe]), by rw [hframe], ?_⟩
  rw [hserve]
  exact State.answered_respond (Arrives.local_eject h _) ..

theorem write_memory_stored {s : State} {n g t : Nat} {p : Packet} (hd : dSpace p.dest = 1 ∨ dSpace p.dest = 2)
    (h : Arrives s n 1 g t p) (hk : s.tileKind g p true = 0) (hb : s.partialBad (tileKey p.dest) (p.len + 1) = false) :
    ∃ u, exec (.write n) s = .next u ∧ u.mem = s.mem.putBytes (tileKey p.dest) ((bvBytes 32 p.payload).take (p.len + 1)) ∧
      Answered u (srcTile s.rank g t 0) p 9 1 false 1 := by
  have hserve := writeReq_arrives h
  rw [State.serveWrite_memory hd (by rwa [State.tileKind_eject]) (by rwa [State.partialBad_eject])] at hserve
  have hframe : writeReq n s = { s with
      mem := s.mem.putBytes (tileKey p.dest) ((bvBytes 32 p.payload).take (p.len + 1))
      bad := (writeReq n s).bad
      arrivals := (writeReq n s).arrivals
      regs := (writeReq n s).regs
      net := (writeReq n s).net } := by
    rw [hserve, State.ackFrom_eq, State.eject_eq]
    rfl
  refine ⟨_, State.endsOutside_of (by rw [hframe]) (by rw [hframe]) (by rw [hframe]), by rw [hframe], ?_⟩
  obtain ⟨-, htyp, -⟩ := id h
  have hans := State.answered_ackFrom (s := ((s.eject n (16 * g + t)).putMem (tileKey p.dest)
    ((bvBytes 32 p.payload).take (p.len + 1))).healSram (tileKey p.dest) (p.len + 1)) (Arrives.local_eject h _) g t
  rw [htyp] at hans
  rw [hserve, ← s.rank_eject n (16 * g + t)]
  exact hans

/-- A command whose request is refused by its target's router. -/
theorem exec_refused {s : State} {n typ g t k : Nat} {p : Packet} {c : Instr} {ord : Bool} (h : Arrives s n typ g t p)
    (hord : decide (typ = 3 ∨ typ = 7) = ord) (hc : exec c s = s.endsOutside ((s.eject n (16 * g + t)).refuseTile g t p k)) :
    ∃ u r, exec c s = .next u ∧ u.mem = s.mem ∧ u.queues = s.queues ∧ u.springs = s.springs ∧
      u.err.queue = s.err.queue ++ [r] ∧ r.kind = 0x0A ∧
      Answered u (srcTile s.rank g t 0) p 0xA 0 ord (nackPayload k p.dest) := by
  have hans := State.answered_refuseTile (Arrives.local_eject h (16 * g + t)) g t k
  obtain ⟨-, htyp, -⟩ := id h
  rw [State.rank_eject, htyp, hord] at hans
  obtain ⟨r, hqueue, hkind⟩ := State.recTile_queue (s.eject n (16 * g + t)) g t 32 0x0A 9 (refusedDetail p.dest k)
  generalize hu : (s.eject n (16 * g + t)).refuseTile g t p k = u at hc hans
  have hframe : u = { s with
      arrivals := u.arrivals
      regs := u.regs
      net := u.net
      err := u.err } := by rw [← hu, State.refuseTile_eq, State.eject_eq]
  refine ⟨u, r, hc.trans (State.endsOutside_of (by rw [hframe]) (by rw [hframe]) (by rw [hframe])), by rw [hframe],
    by rw [hframe], by rw [hframe], ?_, hkind, hans⟩
  rw [← hu, State.refuseTile_eq]
  exact hqueue.trans (by rw [State.eject_eq])

theorem targetMemoryRule : TargetMemoryRule := fun _ _ _ _ _ hd => ⟨read_memory_answered hd, write_memory_stored hd⟩

theorem targetRefusesRule : TargetRefusesRule := by
  intro s n g t p
  dsimp only
  refine ⟨fun e h hk => exec_refused h rfl ?_, fun h hk => exec_refused h rfl ?_, fun h hg => exec_refused h rfl ?_,
    fun h hg => exec_refused h rfl ?_⟩
  · rw [exec_read, readReq_arrives h, State.serveRead_refuses (by rwa [State.tileKind_eject]), State.tileKind_eject]
  · rw [exec_write, writeReq_arrives h, State.serveWrite_refuses (by rwa [State.tileKind_eject]), State.tileKind_eject]
  · rw [exec_qentry, qentry, State.arriveTile_serves h]
    simp [State.granted_eject, hg]
  · rw [exec_signal, signal, State.arriveTile_serves h]
    simp [State.serveSignal, State.granted_eject, hg]

theorem remoteAccumulateRule : RemoteAccumulateRule := by
  intro s n f p e o k hat htyp hwf hspace hlocal hqueue huse hro hstop hdead hburst hbad he
  obtain ⟨r, hserves, hdram, hr⟩ := raccReq_serves (e := e) hat htyp hwf hspace hqueue huse hro hstop
  have hrank : r.rank = s.rank := by rw [hr]; rfl
  have hsame (j m : Nat) : r.dramBad j m = s.dramBad j m := by rw [hr]; rfl
  have hchan : (r.dram f).chan o = (s.dram f).chan o := by rw [hdram]; rfl
  have hworks : (r.dram f).dead.testBit ((r.dram f).chan o) = false := by
    rw [hchan, hdram]
    exact hdead
  obtain ⟨t, happly, ht, htrank⟩ := State.dramServe_racc htyp hworks ((hsame ..).trans hburst) ((hsame ..).trans hbad) he
  have hexec : exec (.racc ⟨n, e⟩) s = s.endsOutside (t.raccApply f p) :=
    congrArg s.endsOutside (hserves.trans happly)
  have htdram : t.dram f = r.dram f := by rw [ht]; rfl
  have hans := State.answered_raccApply (local_of_rank hlocal (htrank.trans hrank)) f
  rw [htdram, hchan, htrank, hrank] at hans
  have hframe : t.raccApply f p = { s with
      mem := s.mem.putBytes k (leBytes 32 (combine32 p.len 0 false (s.memNat k 32) p.payload.toNat))
      img := (t.raccApply f p).img
      regs := (t.raccApply f p).regs
      hub := (t.raccApply f p).hub
      hostMem := (t.raccApply f p).hostMem
      net := (t.raccApply f p).net
      drams := r.drams } := by
    rw [State.raccApply_eq, ht, hr]
    rfl
  have hempty : (t.raccApply f p).dram f = { s.dram f with queue := [] } := by
    rw [hframe, ← hdram]
    rfl
  exact ⟨_, hexec.trans (State.endsOutside_of (by rw [hframe]) (by rw [hframe]) (by rw [hframe])), by rw [hframe], by rw [hempty],
    hans⟩

/-- Settles O15: each request is served on the state it has been ejected from, and its answer enters the network at once, for its
sender is on this rank. -/
theorem targetsServeOrRefuse : Obligations.TargetsServeOrRefuse :=
  ⟨targetMemoryRule, targetRefusesRule, remoteAccumulateRule⟩

end Sys2Proof.Claims
end

section
/-! Records of a field enter its log (R403–R406). -/

namespace Sys2Proof.Machine

/-- Taking the lower UNIT of two, from a record that none undercuts. -/
theorem foldl_lowerUnit_of_le {r : ErrRec} {l : List ErrRec} (h : ∀ x ∈ l, r.unit ≤ x.unit) :
    l.foldl (fun b x => if x.unit < b.unit then x else b) r = r := by
  induction l with
  | nil => rfl
  | cons x l ih =>
    rw [List.foldl_cons, if_neg (Nat.not_lt.mpr (h x List.mem_cons_self))]
    exact ih fun y hy => h y (List.mem_cons_of_mem x hy)

/-- R403: the oldest record, when it has the lowest UNIT of its field's records of its service cycle, is next. -/
theorem State.nextRec_of_oldest {s : State} {f : Nat} {r : ErrRec} {rest : List ErrRec} (hqueue : s.err.queue = r :: rest)
    (hfield : r.field = f) (hunit : ∀ x ∈ rest, x.field = f → x.time = r.time → r.unit ≤ x.unit) : s.nextRec f = some r := by
  unfold State.nextRec
  rw [hqueue, List.filter_cons_of_pos (by simpa using hfield)]
  dsimp only
  rw [foldl_lowerUnit_of_le]
  intro x hx
  simp only [List.mem_filter, decide_eq_true_eq] at hx
  obtain ⟨⟨hmem, hxfield⟩, htime⟩ := hx
  exact hunit x hmem hxfield htime

/-- The record as field f's log takes it. -/
def State.numbered (s : State) (f : Nat) (r : ErrRec) : ErrRec := { r with seq := s.rd (.fld f) Reg.fldElogStatWritten % 65536 }

/-- R403, R404: a record that does not repeat another enters the log of a field whose own supervisor works, and waits for the
module log. -/
theorem State.fieldLog_eq {s : State} {f : Nat} {r : ErrRec} (hrep : s.repeats f r = false) (hsupv : s.supvWorks f = true) :
    s.fieldLog f r = { s with
      regs := (s.fieldLog f r).regs
      err := { s.err with
        elog := s.err.elog.set f [] ((s.numbered f r :: s.err.elog.get f []).take 1024)
        mlogWait := s.err.mlogWait ++ [s.numbered f r] } } := by
  simp [State.fieldLog, hrep, hsupv, State.toModuleLog, State.numbered]

theorem State.fieldLog_written {s : State} {f : Nat} {r : ErrRec} (hrep : s.repeats f r = false) :
    (s.fieldLog f r).rd (.fld f) Reg.fldElogStatWritten = (s.rd (.fld f) Reg.fldElogStatWritten + 1) % 2 ^ 32 := by
  simp only [State.fieldLog, hrep, Bool.false_eq_true, if_false]
  exact (State.rdi_wri_slot _ _ _ (by decide)).trans (State.rd_wr_self ..)

/-- The oldest record has left the records on their way. -/
def State.dequeued (s : State) (rest : List ErrRec) : State := { s with err := { s.err with queue := rest } }

/-- R403, R406, R420: the oldest record of a supervised field is logged; one of severity P or F also changes the self-test state of
the pond it names (state b) and faults its partition. -/
theorem errorRecordLog_eq {s : State} {f : Nat} {r : ErrRec} {rest : List ErrRec} (hf : f < 48) (hqueue : s.err.queue = r :: rest)
    (hnext : s.nextRec f = some r) (hsupv : s.supvWorks f = true) :
    ∃ b : State, b = { (s.dequeued rest).fieldLog f r with tests := b.tests } ∧ errorRecordLog f s =
      if sevOf r.kind < 2 then (s.dequeued rest).fieldLog f r else if r.part < 64 then b.faultPart r.part r else b := by
  have hsupd : (s.dequeued rest).supervised f = true := by
    have hworks : (s.dequeued rest).supvWorks f = true := hsupv
    unfold State.supvWorks at hworks
    unfold State.supervised
    dsimp only
    rw [hworks, Bool.true_or]
  unfold errorRecordLog
  rw [hnext, hqueue]
  dsimp only
  rw [List.erase_cons_head, if_neg (Nat.not_le.mpr hf)]
  unfold State.dequeued at hsupd ⊢
  rw [if_pos hsupd]
  refine ⟨_, ?_, rfl⟩
  split <;> rfl

/-- R406: a running partition without a fault takes the field and the time of the fault, and recovery begins. -/
theorem State.faultPart_running {s : State} {n : Nat} (r : ErrRec) (hstate : (s.parts.get n Part.none).state = 3)
    (hcode : (s.parts.get n Part.none).faultCode = 0) :
    s.faultPart n r = { s with parts := (s.faultPart n r).parts } ∧ ((s.faultPart n r).parts.get n Part.none).recStep = 1 ∧
      ((s.faultPart n r).parts.get n Part.none).faultField = r.field ∧
      ((s.faultPart n r).parts.get n Part.none).faultTime = r.time := by
  unfold State.faultPart State.faultWith
  dsimp only
  rw [if_neg (fun h => h.1 hcode), if_neg (by simp [hstate, hcode])]
  unfold State.modPart
  dsimp only
  rw [Tab.get_set_self]
  exact ⟨rfl, rfl, rfl, rfl⟩

/-! Supervisors (R17). -/

@[simp] theorem State.overlayWrite_field (s : State) (m : DMap) : (s.overlayWrite m).overlay.field = m.field := by
  unfold State.overlayWrite
  rw [State.gradeCheck_overlay]
  rfl

/-- R24: a mark in field f's word leaves the working word of every other field. -/
theorem State.fieldW_overField_ne (s : State) {f q : Nat} (b : Nat) (h : q ≠ f) : (s.overField f b).fieldW q = s.fieldW q := by
  have hmarks : (s.overField f b).fieldMarks q = s.fieldMarks q := by
    unfold State.fieldMarks
    rw [State.overField_factory]
    unfold State.overField
    rw [State.overlayWrite_field, Tab.get_set_ne _ _ _ _ _ _ h]
  unfold State.fieldW State.usableGib State.goodChans
  rw [hmarks]

theorem pairOf_ne : ∀ f : FieldIx, pairOf f ≠ f := by decide

/-- Field f's own supervisor has failed. -/
def State.loseSupervisor (s : State) (f : Nat) : State := { s with err := { s.err with supvFailed := f :: s.err.supvFailed } }

/-- R17: what the failure of a supervisor does while its pair's works. -/
theorem supervisorFail_eq {s : State} {f : Nat} (hf : s.supvWorks f = true) (hq : s.supvWorks (pairOf f) = true)
    (hne : pairOf f ≠ f) :
    supervisorFail f s = ((((s.loseSupervisor f).overField f 0).wr (.fld (pairOf f)) Reg.fldSupvAdopting 1).wr (.fld f)
      Reg.fldSupvAdopted 1).recStrip (pairOf f) 36 0x19 0 0xFF f := by
  have hpair : ((s.loseSupervisor f).overField f 0).supvWorks (pairOf f) = true := by
    unfold State.supvWorks at hq ⊢
    rw [State.fieldW_overField_ne _ _ hne, State.overField_err, State.loseSupervisor, List.contains_cons,
      beq_false_of_ne hne, Bool.false_or]
    exact hq
  unfold supervisorFail
  unfold State.loseSupervisor at hpair
  dsimp only
  rw [hf, hpair]
  rfl

end Sys2Proof.Machine

namespace Sys2Proof.Claims
open Sys2Proof.Machine

theorem exec_errorRecordLog (f : FieldIx) (s : State) : exec (.errorRecordLog f) s = s.endsOutside (errorRecordLog f s) := rfl

/-- R403, R404: a record of severity I or C is logged. -/
theorem record_logged {s : State} {f : FieldIx} {r : ErrRec} {rest : List ErrRec} (hqueue : s.err.queue = r :: rest)
    (hnext : s.nextRec f = some r) (hsupv : s.supvWorks f = true) (hrep : s.repeats f r = false) (hsev : sevOf r.kind < 2) :
    ∃ t, exec (.errorRecordLog f) s = .next t ∧ (t.err.elog.get f []).head? = some (s.numbered f r) ∧
      t.err.mlogWait = s.err.mlogWait ++ [s.numbered f r] ∧ t.err.queue = rest ∧
      t.rd (.fld f) Reg.fldElogStatWritten = (s.rd (.fld f) Reg.fldElogStatWritten + 1) % 2 ^ 32 ∧ t = { s with
        regs := t.regs
        err := t.err } := by
  have hlog := State.fieldLog_eq (s := s.dequeued rest) hrep hsupv
  obtain ⟨b, hb, hrec⟩ := errorRecordLog_eq f.isLt hqueue hnext hsupv
  rw [if_pos hsev] at hrec
  refine ⟨(s.dequeued rest).fieldLog f r, ?_, ?_, ?_, ?_, State.fieldLog_written (s := s.dequeued rest) hrep, ?_⟩
  · rw [exec_errorRecordLog, hrec]
    refine State.endsOutside_of ?_ ?_ ?_ <;> rw [hlog] <;> rfl
  · rw [hlog]
    dsimp only
    rw [Tab.get_set_self]
    rfl
  · rw [hlog]
    rfl
  · rw [hlog]
    rfl
  · rw [hlog]
    rfl

/-- R406: a record of severity P or F faults the running partition it names. -/
theorem record_faults {s : State} {f : FieldIx} {r : ErrRec} {rest : List ErrRec} (hqueue : s.err.queue = r :: rest)
    (hnext : s.nextRec f = some r) (hfield : r.field = f) (hsupv : s.supvWorks f = true) (hrep : s.repeats f r = false)
    (hsev : 2 ≤ sevOf r.kind) (hpart : r.part < 64) (hstate : (s.parts.get r.part Machine.Part.none).state = 3)
    (hcode : (s.parts.get r.part Machine.Part.none).faultCode = 0) :
    ∃ t, exec (.errorRecordLog f) s = .next t ∧ (t.parts.get r.part Machine.Part.none).recStep = 1 ∧
      (t.parts.get r.part Machine.Part.none).faultField = f ∧ (t.parts.get r.part Machine.Part.none).faultTime = r.time ∧
      t.err.queue = rest := by
  have hlog := State.fieldLog_eq (s := s.dequeued rest) hrep hsupv
  obtain ⟨b, hb, hrec⟩ := errorRecordLog_eq f.isLt hqueue hnext hsupv
  rw [if_neg (Nat.not_lt.mpr hsev), if_pos hpart] at hrec
  have hparts : b.parts = s.parts := by
    rw [hb, hlog]
    rfl
  rw [← hparts] at hstate hcode
  obtain ⟨heq, hstep, hat, htime⟩ := State.faultPart_running r hstate hcode
  refine ⟨b.faultPart r.part r, ?_, hstep, hat.trans hfield, htime, ?_⟩
  · rw [exec_errorRecordLog, hrec]
    refine State.endsOutside_of ?_ ?_ ?_ <;> rw [heq, hb, hlog] <;> rfl
  · rw [heq, hb, hlog]
    rfl

theorem moduleLog_appends {s : State} {r : ErrRec} (hon : s.hubOn = true) (hwait : s.err.mlogWait = [r]) :
    ∃ t, exec .moduleLogAppend s = .next t ∧ t.err.mlog = (r :: s.err.mlog).take 65536 ∧ t.err.mlogWait = [] ∧
      t.rd .hub Reg.svcMlogStatWritten = (s.rd .hub Reg.svcMlogStatWritten + 1) % 2 ^ 32 ∧ t.mem = s.mem := by
  have hexec : exec .moduleLogAppend s = s.endsOutside (moduleLogAppend s) := congrArg s.endsOutside (State.atHub_of hon)
  rw [hexec]
  unfold moduleLogAppend
  rw [hwait, List.foldl_cons, List.foldl_nil]
  exact ⟨_, rfl, rfl, rfl, (State.rdi_wri_slot _ _ _ (by decide)).trans (State.rd_wr_self ..), rfl⟩

/-- R17: a failed supervisor's field is adopted by its pair's. -/
theorem supervisor_adopted {s : State} {f q : FieldIx} (hq : (q : Nat) = pairOf f) (hf : s.supvWorks f = true)
    (hworks : s.supvWorks q = true) :
    ∃ t, exec (.supervisorFail f) s = .next t ∧ t.supvWorks f = false ∧ t.supervised f = true ∧
      t.rd (.fld q) Reg.fldSupvAdopting = 1 ∧ t.rd (.fld f) Reg.fldSupvAdopted = 1 ∧ t.parts = s.parts ∧
      ∃ e ∈ t.err.queue, e.kind = 0x19 ∧ e.field = q := by
  have hne : (q : Nat) ≠ f := hq ▸ pairOf_ne f
  have hfail := supervisorFail_eq hf (hq ▸ hworks) (pairOf_ne f)
  rw [← hq] at hfail
  have hlost : (supervisorFail f s).err.supvFailed = (f : Nat) :: s.err.supvFailed := by
    rw [hfail]
    exact congrArg ErrSt.supvFailed (State.overField_err _ _ _)
  have hword : (supervisorFail f s).fieldW q = s.fieldW q := by
    rw [hfail]
    exact State.fieldW_overField_ne _ _ hne
  have hpair : (((supervisorFail f s).fieldW q).testBit 0 || (supervisorFail f s).err.supvFailed.contains (q : Nat)) = false := by
    rw [hword, hlost, List.contains_cons, beq_false_of_ne hne, Bool.false_or]
    simpa [State.supvWorks] using hworks
  have hframe : (supervisorFail f s).pending = s.pending ∧ (supervisorFail f s).factory = s.factory ∧
      (supervisorFail f s).trust = s.trust ∧ (supervisorFail f s).parts = s.parts := by
    rw [hfail]
    exact ⟨State.overField_pending _ _ _, State.overField_factory _ _ _, State.overField_trust _ _ _, State.overField_parts _ _ _⟩
  obtain ⟨hpending, hfactory, htrust, hparts⟩ := hframe
  refine ⟨supervisorFail f s, State.endsOutside_of hpending hfactory htrust, ?_, ?_, ?_, ?_, hparts, ?_⟩
  · simp [State.supvWorks, hlost]
  · unfold State.supervised
    dsimp only
    rw [← show (q : Nat) = 8 * ((f : Nat) / 8) + ((f : Nat) % 8 ^^^ 1) from hq, hpair]
    simp
  · rw [hfail]
    exact (State.rdi_wri_apart _ (.fld f) (.fld q) (f := Reg.fldSupvAdopted) (i := 0) 1 (by decide)).trans
      (State.rd_wr_self _ (.fld q) Reg.fldSupvAdopting 1)
  · rw [hfail]
    exact State.rd_wr_self _ (.fld f) Reg.fldSupvAdopted 1
  · rw [hfail]
    exact ⟨_, List.mem_append_right _ List.mem_cons_self, rfl, rfl⟩

/-- Settles O38: the record is the next of its field, a working supervisor's log takes it, and its severity decides the rest. -/
theorem recordsAreLogged : Obligations.RecordsAreLogged := by
  intro s f
  refine ⟨?_, fun r => moduleLog_appends, fun q hq => supervisor_adopted hq⟩
  intro r rest hqueue hfield hunit hsupv hrep
  have hnext := State.nextRec_of_oldest hqueue hfield hunit
  refine ⟨fun hsev => ?_, fun hsev hpart hstate hcode => record_faults hqueue hnext hfield hsupv hrep hsev hpart hstate hcode⟩
  obtain ⟨t, hexec, h⟩ := record_logged hqueue hnext hsupv hrep hsev
  exact ⟨t, _, hexec, rfl, h⟩

end Sys2Proof.Claims
end

section
/-! Every command completes (R21, log entries 1 and 11). -/

namespace Sys2Proof.Claims
open Sys2Proof.Machine

/-- A command that closes with `ends` completes, with the queue and the factory map it was given. -/
theorem ends_completes (s t : State) : ∃ r, s.ends t = .next r ∧ r.pending = s.pending ∧ r.factory = s.factory :=
  ⟨_, rfl, rfl, rfl⟩

/-- The meaning of every command closes with `ends`, `endsOutside` or `endsQuiet`, and the last two close with the first. -/
theorem commandsCompleteRule : CommandsCompleteRule := by
  intro c s
  cases c <;> exact ends_completes s _

theorem stepIdlesRule : StepIdlesRule := by
  intro s hempty
  exact ⟨s.tick, by simp only [step, hempty], rfl, rfl⟩

/-- Settles O55: every command's meaning closes with the queue and the factory map it was given. -/
theorem everyStepAnswers : Obligations.EveryStepAnswers := ⟨commandsCompleteRule, stepIdlesRule⟩

end Sys2Proof.Claims
end

section
/-! Quarter records of the weight ring (R84–R86, R92). -/

namespace Sys2Proof.Machine
open Sys2Proof.Claims

/-! Arrays of an M-core. -/

/-- An array with a quarter in hand is one of the core's. -/
theorem MCore.lt_of_work {m : MCore} {a : Nat} {w : Nat × Nat} (h : (m.arr a).work = some w) : a < m.arrs.length := by
  rcases Nat.lt_or_ge a m.arrs.length with hlt | hge
  · exact hlt
  · have hidle : m.arr a = MArr.idle := by
      rw [MCore.arr, List.getD_eq_getElem?_getD, List.getElem?_eq_none hge, Option.getD_none]
    rw [hidle] at h
    cases h

theorem MCore.arr_setArr {m : MCore} {a : Nat} (x : MArr) (h : a < m.arrs.length) : (m.setArr a x).arr a = x := by
  simp [MCore.arr, MCore.setArr, h]

/-- R34: an array with a quarter in hand is given no other. -/
theorem State.assignQuarter_of_work {s : State} {g t a : Nat} {w : Nat × Nat} (h : ((s.mcore g t).arr a).work = some w) :
    s.assignQuarter g t a = s := by
  simp [State.assignQuarter, h]

/-! The next record of an array that has a quarter in hand and lacks records. -/

section
variable {s : State} {g t a gid q : Nat} (hwork : ((s.mcore g t).arr a).work = some (gid, q))
  (hen : s.rd (.tile g t) Reg.mcoreSparseRecEn = 1) (hgoes : (s.mcore g t).stopped = false)
  (hmore : ((s.mcore g t).arr a).recs.length < s.rowK g t / 64)
include hwork hen hgoes hmore

/-- R86, R92: a valid record joins those loaded for the array, in the M-core's own state; an invalid one is META_INVALID. -/
theorem sparseRecordLoad_cases : ∃ m d,
    sparseRecordLoad g t a s = (if recordValid s g t a q then s.setMcore g t m else s.metaInvalid g t d) ∧
      ∃ r, (m.arr a).recs = ((s.mcore g t).arr a).recs ++ [r] := by
  have hloads : (!s.flag (.tile g t) Reg.mcoreSparseRecEn || (s.mcore g t).stopped ||
      decide (s.rowK g t / 64 ≤ ((s.mcore g t).arr a).recs.length)) = false := by
    simp [State.flag, hen, hgoes, Nat.not_le.mpr hmore]
  -- the load asks whether a record is sparse, `recordValid` whether it is dense or zero
  simp only [sparseRecordLoad, State.assignQuarter_of_work hwork, hwork, hloads, Bool.false_eq_true, if_false, ← Bool.not_or,
    Bool.not_eq_true', ← Bool.not_eq_true, ite_not]
  refine ⟨_, _, rfl, ?_⟩
  split <;> exact ⟨_, congrArg MArr.recs (MCore.arr_setArr _ (MCore.lt_of_work hwork))⟩

theorem sparseRecordLoad_valid (hvalid : recordValid s g t a q = true) :
    ∃ m, sparseRecordLoad g t a s = s.setMcore g t m ∧ ∃ r, (m.arr a).recs = ((s.mcore g t).arr a).recs ++ [r] := by
  obtain ⟨m, d, hload, hrecs⟩ := sparseRecordLoad_cases hwork hen hgoes hmore
  exact ⟨m, hload.trans (if_pos hvalid), hrecs⟩

theorem sparseRecordLoad_invalid (hinvalid : recordValid s g t a q = false) :
    ∃ d, sparseRecordLoad g t a s = s.metaInvalid g t d := by
  obtain ⟨m, d, hload, -⟩ := sparseRecordLoad_cases hwork hen hgoes hmore
  exact ⟨d, hload.trans (if_neg (by simp [hinvalid]))⟩

end

/-! META_INVALID (R86). -/

/-- A register is read from the register fields alone. -/
theorem State.rd_of_regs {s t : State} (h : t.regs = s.regs) (u : UnitId) (f : Fld) : t.rd u f = s.rd u f := by
  unfold State.rd State.rdi
  rw [h]

theorem State.rdi_sat_ne (s : State) {u u' : UnitId} {f f' : Fld} {i : Nat} (n : Nat) (h : f'.key u' i ≠ f.key u 0) :
    (s.sat u f n).rdi u' f' i = s.rdi u' f' i := State.rdi_wri_ne s _ h

theorem State.rd_sat_slot (s : State) (u : UnitId) {f f' : Fld} (n : Nat) (h : f'.slot 0 ≠ f.slot 0) :
    (s.sat u f n).rd u f' = s.rd u f' := State.rdi_sat_ne s n (Fld.key_ne u h)

/-- The M-core at tile t stops issue and poisons every set in hand. -/
def State.stopIssue (s : State) (g t : Nat) : State := s.setMcore g t { s.mcore g t with
  stopped := true
  arrs := (s.mcore g t).arrs.map (fun x => { x with sets := x.sets.map (fun y => { y with poison := true }) }) }

theorem State.metaInvalid_eq (s : State) (g t d : Nat) : s.metaInvalid g t d = { s.stopIssue g t with
    regs := ((((s.stopIssue g t).wr (.tile g t) Reg.mcoreSparseMetaErr 1).sat (.tile g t) Reg.mcoreMetaErr 1).wr (.tile g t)
      Reg.mcoreStatusPoison 1).regs
    events := s.events ++ [(g, ⟨3, t⟩)]
    err := (s.metaInvalid g t d).err } := rfl

theorem State.metaInvalid_stopped (s : State) (g t d : Nat) : ((s.metaInvalid g t d).mcore g t).stopped = true := by
  have h : (s.metaInvalid g t d).mcore g t = (s.stopIssue g t).mcore g t := by rw [State.metaInvalid_eq]; rfl
  rw [h, State.stopIssue, State.mcore_setMcore]

theorem State.metaInvalid_rd (s : State) (g t d : Nat) (u : UnitId) (f : Fld) : (s.metaInvalid g t d).rd u f =
    ((((s.stopIssue g t).wr (.tile g t) Reg.mcoreSparseMetaErr 1).sat (.tile g t) Reg.mcoreMetaErr 1).wr (.tile g t)
      Reg.mcoreStatusPoison 1).rd u f :=
  State.rd_of_regs (by rw [State.metaInvalid_eq]) u f

theorem State.metaInvalid_metaErr (s : State) (g t d : Nat) :
    (s.metaInvalid g t d).rd (.tile g t) Reg.mcoreSparseMetaErr = 1 := by
  rw [State.metaInvalid_rd, State.rd_wr_slot, State.rd_sat_slot, State.rd_wr_self] <;> decide

theorem State.metaInvalid_poison (s : State) (g t d : Nat) :
    (s.metaInvalid g t d).rd (.tile g t) Reg.mcoreStatusPoison = 1 := by
  rw [State.metaInvalid_rd, State.rd_wr_self]
  rfl

end Sys2Proof.Machine

namespace Sys2Proof.Claims
open Sys2Proof.Machine

/-- A core that is ready does what its command says. -/
theorem CoreReady.atCore {s : State} {g t : Nat} (h : CoreReady s g t) (f : State → State) : s.atCore g t f = f s := by
  obtain ⟨hclk, htest, hworks, hon⟩ := h
  exact State.atCore_of hclk htest hworks hon

theorem exec_sparseRecordLoad {s : State} {g : PondIx} {m : Fin 8} (h : CoreReady s g (mPos m)) (a : Fin 4) :
    exec (.sparseRecordLoad g m a) s = s.endsOutside (sparseRecordLoad g (mPos m) a s) :=
  congrArg s.endsOutside (h.atCore _)

theorem sparseRecordRule : SparseRecordRule := by
  intro s g m a gid q
  dsimp only
  intro hready hwork hen hgoes hmore
  rw [exec_sparseRecordLoad hready]
  constructor
  · intro hvalid
    obtain ⟨c, hload, r, hrecs⟩ := sparseRecordLoad_valid hwork hen hgoes hmore hvalid
    rw [hload]
    refine ⟨_, State.endsOutside_of rfl rfl rfl, rfl, ?_⟩
    rw [State.mcore_setMcore, hrecs, List.length_append]
    rfl
  · intro hinvalid
    obtain ⟨d, hload⟩ := sparseRecordLoad_invalid hwork hen hgoes hmore hinvalid
    rw [hload]
    have hframe := s.metaInvalid_eq g (mPos m) d
    refine ⟨_, State.endsOutside_of (by rw [hframe]; rfl) (by rw [hframe]; rfl) (by rw [hframe]; rfl), s.metaInvalid_stopped ..,
      s.metaInvalid_metaErr .., s.metaInvalid_poison .., ?_, by rw [hframe]; rfl⟩
    rw [hframe]
    exact List.mem_append_right _ List.mem_cons_self

end Sys2Proof.Claims
end

section
/-! Tokens at the input queues of cores (R177). -/

namespace Sys2Proof.Machine
open Sys2Proof.Claims

@[simp] theorem tileType_mPos : ∀ m : Fin 8, tileType (mPos m) = .m := by decide
@[simp] theorem tileType_vPos : ∀ v : Fin 4, tileType (vPos v) = .v := by decide

/-- R177: a V-core keeps a SCALE of queue 0 or 1. -/
abbrev KeepsScale (q : Nat) (e : QEnt) : Prop := tokType e.data = 6 ∧ q < 2

section
variable {s : State} {g t q : Nat} {e : QEnt} (htok : e.tok = true) (hfree : s.steered g t q = false)
  (hhead : s.headOf g t false q = some e)
include htok hfree hhead

theorem tokenAtHead_drops (h : tileType t = .m ∨ tileType t = .v ∧ ¬ KeepsScale q e) :
    tokenAtHead g t q s = (s.pop g t false q).sat (.tile g t) Reg.rtrTokDrop 1 := by
  rcases h with hm | ⟨hv, hother⟩
  · simp [tokenAtHead, hhead, htok, hfree, hm]
  · simp only [tokenAtHead, hhead, htok, hfree, hv, if_neg hother]
    rfl

theorem tokenAtHead_keeps (hv : tileType t = .v) (h : KeepsScale q e) :
    tokenAtHead g t q s = (s.pop g t false q).setVcore g t { s.vcore g t with
      constNext := (s.vcore g t).constNext ++ [(tokArg e.data % 8, tokUser e.data % 2 ^ 32)] } := by
  simp only [tokenAtHead, hhead, htok, hfree, hv, if_pos h]
  rfl

end

theorem State.pop_hw (s : State) (g t : Nat) (o : Bool) (q : Nat) :
    ((s.pop g t o q).queue (queueKey g t o q)).hw = (s.queue (queueKey g t o q)).hw.drop 1 := by
  unfold State.pop
  rw [State.queue_setQueue]

end Sys2Proof.Machine

namespace Sys2Proof.Claims
open Sys2Proof.Machine

theorem exec_tokenAtHead {s : State} {g : PondIx} {t : Fin 16} (h : CoreReady s g t) (q : Fin 8) :
    exec (.tokenAtHead g t q) s = s.endsOutside (tokenAtHead g t q s) :=
  congrArg s.endsOutside (h.atCore _)

section
variable {s : State} {g : PondIx} {t : Fin 16} {q : Fin 8} {e : QEnt} (htok : e.tok = true) (hready : CoreReady s g t)
  (hfree : s.steered g t q = false) (hhead : s.headOf g t false q = some e)
include htok hready hfree hhead

/-- R177: a token that its core does not keep leaves the queue and counts in RTR_TOK_DROP, and nothing else changes. -/
theorem token_dropped (h : tileType t = .m ∨ tileType t = .v ∧ ¬ KeepsScale q e) :
    ∃ r, exec (.tokenAtHead g t q) s = .next r ∧ (inQ r g t q).hw = (inQ s g t q).hw.drop 1 ∧ r.vcores = s.vcores ∧
      OtherRegs s r [(.tile g t, Reg.rtrTokDrop, 0)] ∧
      r.rd (.tile g t) Reg.rtrTokDrop = min (s.rd (.tile g t) Reg.rtrTokDrop + 1) 0xFFFFFFFF := by
  rw [exec_tokenAtHead hready, tokenAtHead_drops htok hfree hhead h]
  refine ⟨_, State.endsOutside_of rfl rfl rfl, s.pop_hw g t false q, rfl, ?_, State.rdi_sati_self _ _ _ 0 1 rfl⟩
  intro u f i hother
  exact State.rdi_sat_ne (s.pop g t false q) 1 (hother (.tile g t, Reg.rtrTokDrop, 0) List.mem_cons_self)

/-- R177: a SCALE that a V-core keeps leaves the queue and joins the constants of the next row. -/
theorem token_kept (hv : tileType t = .v) (h : KeepsScale q e) :
    ∃ r, exec (.tokenAtHead g t q) s = .next r ∧ (inQ r g t q).hw = (inQ s g t q).hw.drop 1 ∧
      (r.vcore g t).constNext = (s.vcore g t).constNext ++ [(tokArg e.data % 8, tokUser e.data % 2 ^ 32)] := by
  rw [exec_tokenAtHead hready, tokenAtHead_keeps htok hfree hhead hv h]
  refine ⟨_, State.endsOutside_of rfl rfl rfl, s.pop_hw g t false q, ?_⟩
  rw [State.vcore_setVcore]

end

theorem coreTokenRule : CoreTokenRule := by
  intro s g q e htok
  refine ⟨fun m hready hfree hhead => ?_, fun v hready hfree hhead hother => ?_, fun v hready hfree hhead hscale hq => ?_⟩
  · obtain ⟨r, hexec, hqueue, -, hregs, hdrop⟩ :=
      token_dropped (t := ⟨mPos m, _⟩) htok hready hfree hhead (.inl (tileType_mPos m))
    exact ⟨r, hexec, hqueue, hregs, hdrop⟩
  · have hnot : ¬ KeepsScale q e := fun ⟨htyp, hlt⟩ => hother.elim (· htyp) (Nat.not_le.mpr hlt)
    obtain ⟨r, hexec, hqueue, hvcores, -, hdrop⟩ :=
      token_dropped (t := ⟨vPos v, _⟩) htok hready hfree hhead (.inr ⟨tileType_vPos v, hnot⟩)
    exact ⟨r, hexec, hqueue, hvcores, hdrop⟩
  · exact token_kept (t := ⟨vPos v, _⟩) htok hready hfree hhead (tileType_vPos v) ⟨hscale, hq⟩

/-- Settles O5: an array with a quarter in hand loads its next record or stops its core, and a token that no steering unit reads
leaves its queue, kept by a V-core when it is a SCALE for its next row. -/
theorem recordsAndTokensTaken : Obligations.RecordsAndTokensTaken := ⟨sparseRecordRule, coreTokenRule⟩

end Sys2Proof.Claims
end
